-- ==== Sys2Proof/Word.lean ====
section
/-!
DEFINITION. The widths the spec names: register words of 32 bits (R6) and bytes (R7).
-/
namespace Sys2Proof

/-- A register or data word (R6). -/
abbrev Word := BitVec 32

/-- One byte of memory, of a message or of a frame (R7). -/
abbrev Byte := BitVec 8

/-- A sequence of bytes, the first one first. -/
abbrev Bytes := List Byte

end Sys2Proof
end

