-- ==== Sys2Proof/Syntax.lean ====
section
/-!
DEFINITION. The commands: one constructor for every row of spec/opcode_table.json, with its operands. What the
outside world shows the device at that moment (a measurement, a received frame, a flash error) is an operand. The
constructors stand in the table's order but for seven without operands, which stand last: compiled Lean builds values of a
constructor with operands only up to the 245th.
-/
namespace Sys2Proof

/-- The two optical paths (R2). -/
inductive Path where
  | a | b
  deriving DecidableEq, Repr

/-- The sessions that reach the registers (R447, R450, R451): the PCIe endpoint, the maintenance port, and one session
for each source station of ring management. -/
inductive Session where
  | pcie
  | maint
  | ring (station : BitVec 8)
  deriving DecidableEq, Repr

/-- The units that have a basic mode word with a `PROFILE` field (R10). -/
inductive BasicUnit where
  | cnv (p : Path) | rxd (p : Path) | txd (p : Path) | trk (p : Path) | fec (p : Path) | lfr (p : Path)
  | cnt | cry | pkt | sch | hsf | hsl | mem | mon | pwr
  deriving DecidableEq, Repr

/-- Bit upsets that cells of the memory die have suffered since the last command that named them: code word index and
number of bits now in error in that word (R400). The cells are physical, so a command that reads them carries them. -/
abbrev Upsets := List (Nat × Nat)

/-- What a path's converters and searcher observe in one local frame (R91, R97, R116, R123, R125 to R128). With the
sample codes of the four ADCs, `codes`, the receive chain runs on them, and what it computes from them (clipped counts,
levels, correlations and positions, the frequency and clock offsets, slips and pilot sums) is not taken from the other
fields. -/
structure FrameObs where
  adcClip   : List Nat   -- samples at -128 or +127 in the frame, per ADC
  adcRms    : List Nat   -- input RMS in 1/16 LSB, per ADC
  corr      : Nat        -- training correlation C, 1/8 dB
  position  : Nat        -- where in the frame the training block was found, samples (R126)
  sweep     : List (Nat × Nat) -- C, 1/8 dB, and best position of each dispersion candidate evaluated in the frame, in order
  freqStep  : Int        -- change of the frequency estimate, Hz (R123, R126)
  resid     : Int        -- residual frequency offset after the shift, Hz (R123)
  clk       : Int        -- far-end clock offset, 0.01 ppm (R116)
  slips     : Nat        -- pilots at which the phase had to be corrected (R122)
  pilots    : List (Rat × Rat) -- sums of |s|^2 and of |v - s|^2 over the frame's pilots, index 2 x track + polarisation (R125)
  need      : List (Int × Int × Int) -- what each ADC's relief slice was measured to need: offset, gain, skew (R93)
  codes     : List (List Int) -- the sample codes of the ADCs in the order of their pin pairs, where the command carries them
  deriving DecidableEq, Repr

/-- An RS-FEC code word that an Ethernet port has received, once its PCS is aligned (R370): its 10-bit symbols, and how
many of its 257-bit blocks, from the first on, are alignment markers (R236). -/
structure ClientWord where
  word    : List (BitVec 10)
  markers : Nat
  deriving DecidableEq, Repr

/-- A transaction of the maintenance port that reads a register, or one whose command byte the port does not know
(R450). -/
inductive MntRequest where
  | read (off : BitVec 32)
  | unknown (cmd : BitVec 8)
  deriving DecidableEq, Repr

/-- What a path's receive chain measured over one milestone second (R133). -/
structure SecondObs where
  dgdMean    : Nat
  dgdPeak    : Nat
  pdl        : Nat
  sop        : Nat
  deriving DecidableEq, Repr

/-- A complete 32-bit reply frame of the laser (R104, R105). -/
structure LaserReply where
  frame : BitVec 32
  deriving DecidableEq, Repr

/-- A frame that the decoder delivers (R182, R188, R206): its overhead, the slots that carry bytes (others are zero),
the code words that are uncorrectable, corrected bits, iterations used in all, code words that ran all iterations, and
the largest number of iterations. -/
structure RxFrame where
  overhead : Bytes
  slots    : List (Nat × Bytes)
  uncorr   : List Nat
  corr     : Nat
  iterSum  : Nat
  hits     : Nat
  maxUsed  : Nat
  deriving DecidableEq, Repr

/-- The commands that the block takes. -/
inductive Instr where
  /-- `BASIC_PROFILE_WRITE`: write of a unit's basic profile (R10). -/
  | basicProfileWrite (ses : Session) (u : BasicUnit) (profile : BitVec 4)
  /-- `REGISTER_WRITE`: write of a register with its byte enables (R449, R518). -/
  | registerWrite (ses : Session) (bar2 : Bool) (off : BitVec 26) (val : Word) (enables : BitVec 4)
  /-- `LINE_REFERENCE_LOST`: the line reference has been missing for 2 us (R29). -/
  | lineReferenceLost
  /-- `LINE_REFERENCE_PRESENT`: the line reference has been present again for 2 us (R29). -/
  | lineReferencePresent
  /-- `HOST_REFERENCE_LOST`: the host reference has been missing for 2 us (R385). -/
  | hostReferenceLost
  /-- `HOST_REFERENCE_RETURNED`: the host reference is back (R385). -/
  | hostReferenceReturned
  /-- `SYSTEM_REFERENCE_LOST`: the system reference has been missing for 10 us (R29). -/
  | systemReferenceLost
  /-- `LOAD`: LOAD written in RTE_CTRL with SRC = src (R48, R49). -/
  | load (ses : Session) (src : BitVec 2)
  /-- `LOAD_FINISHED`: the source is in staging; a flash error names its sector (R49). -/
  | loadFinished (flashError : Option Nat) (ups : Upsets)
  /-- `STORE`: STORE written with STORE_TGT = slotB (R47). -/
  | store (ses : Session) (slotB : Bool)
  /-- `STORE_FINISHED`: the store has ended; a flash error names its sector (R47). -/
  | storeFinished (flashError : Option Nat)
  /-- `AMEND`: AMEND written (R54). -/
  | amend (ses : Session)
  /-- `AMEND_VERIFIED`: the verification of the amendment has ended (R53, R54). -/
  | amendVerified (ups : Upsets)
  /-- `AMD_CANCEL`: AMD_CANCEL written (R56). -/
  | amdCancel (ses : Session)
  /-- `COMMIT_FLOOR`: COMMIT_FLOOR written (R44). -/
  | commitFloor (ses : Session)
  /-- `PPS_IN_EDGE`: a rising edge of PPS_IN, sinceNs after the previous one (R64). -/
  | ppsInEdge (sinceNs : Nat)
  /-- `TOD_MESSAGE`: a complete TOD_IN message that ends sinceNs after the preceding marker (R62). -/
  | todMessage (msg : Bytes) (sinceNs : Nat)
  /-- `TIME_MARKER_MISSING`: no marker 1 s + 100 us after the previous one (R64). -/
  | timeMarkerMissing
  /-- `TIME_MESSAGE_ABSENT`: no valid message in the second that ends (R64). -/
  | timeMessageAbsent
  /-- `HOLDOVER_LIMIT`: MST_HOLDOVER.LIMIT seconds have passed in HOLDOVER (R64). -/
  | holdoverLimit
  /-- `TIME_SOURCE_WRITE`: write of MST_TIME_CTRL.SRC (R61). -/
  | timeSourceWrite (ses : Session) (src : BitVec 2)
  /-- `SET`: SET written in MST_TIME_CTRL (R65). -/
  | set (ses : Session)
  /-- `ADD`: ADD written in MST_Q_CMD (R68). -/
  | add (ses : Session)
  /-- `CANCEL`: CANCEL written with HANDLE = handle (R75). -/
  | cancel (ses : Session) (handle : BitVec 6)
  /-- `MILESTONE_FIX`: the fixing moment of an entry on a path (R71). -/
  | milestoneFix (p : Path) (handle : BitVec 6)
  /-- `MILESTONE_APPLY`: the target frame of the path's due entries begins (R74). -/
  | milestoneApply (p : Path)
  /-- `DEVICE_MILESTONE_APPLY`: the first frame boundary at or after the time of device-scope entries (R72). -/
  | deviceMilestoneApply
  /-- `MILESTONE_SECOND`: a milestone second boundary, with what was measured in the second that ends (R519). -/
  | milestoneSecond (obsA obsB : SecondObs) (arbUse : List Nat) (cap : Nat)
  /-- `FRAME_BOUNDARY`: a line frame boundary of both paths; for Ethernet ports, the uncorrectable RS-FEC code words and
  the PCS block bytes received since the last one (R27, R236, R370). -/
  | frameBoundary (obsA obsB : FrameObs) (clients : List (Nat × List ClientWord))
  /-- `RX_FRAME`: a frame that the decoder delivers (R195 to R206). -/
  | rxFrame (p : Path) (f : RxFrame)
  /-- `DEFECT_TIMER`: the timer of LOS, LOL, LOF or LOSF reaches its count, and the raw state becomes v (R204). -/
  | defectTimer (p : Path) (d : BitVec 2) (v : Bool)
  /-- `QUARANTINE_END`: 1 s of peer quarantine has passed (R217). -/
  | quarantineEnd (p : Path)
  /-- `TX_EN_WRITE`: write of TX_EN (R98). -/
  | txEnWrite (ses : Session) (p : Path) (v : Bool)
  /-- `RX_EN_WRITE`: write of RX_EN (R98). -/
  | rxEnWrite (ses : Session) (p : Path) (v : Bool)
  /-- `ROW_GRANT_FROM_QUEUE`: grants have been returned: the queue of requests is served (R487). -/
  | rowGrantFromQueue
  /-- `ROW_TIMEOUT`: the queued request of this index has waited TIMEOUT ms (R487). -/
  | rowTimeout (idx : BitVec 4)
  /-- `DAC_POWER_UP_DONE`: 200 us after the carrier grant (R99). -/
  | dacPowerUpDone (p : Path)
  /-- `ADC_CALIBRATION_DONE`: 4.36 ms after the receiver grant; the offset, gain and skew that each slice of each ADC
  needs (R96, R99). -/
  | adcCalibrationDone (p : Path) (need : List (List (Int × Int × Int)))
  /-- `MUTE_WRITE`: write of MUTE (R100). -/
  | muteWrite (ses : Session) (p : Path) (v : Bool)
  /-- `RELIEF_INTERVAL_END`: 1,024 local frames of relief calibration have passed; what the relief slice needs (R93,
  R96). -/
  | reliefIntervalEnd (p : Path) (adc : BitVec 2) (need : Int × Int × Int)
  /-- `RELIEF_SWAP`: the instant of the swap (R94). -/
  | reliefSwap (p : Path) (adc : BitVec 2)
  /-- `GO`: GO written in LASER_CMD with the command (R105). -/
  | go (ses : Session) (p : Path) (write : Bool) (addr : BitVec 8) (data : BitVec 16)
  /-- `LASER_SERVICE_REQUEST`: LA_SRQ_N falls (R105). -/
  | laserServiceRequest (p : Path)
  /-- `LASER_POLL`: 100 ms since the last poll (R105). -/
  | laserPoll (p : Path)
  /-- `LASER_REPLY`: a complete 32-bit reply frame (R104, R105). -/
  | laserReply (p : Path) (reply : LaserReply)
  /-- `LASER_REPLY_TIMEOUT`: no complete reply within 10 ms (R105). -/
  | laserReplyTimeout (p : Path)
  /-- `RST`: RST written in LASER_CFG (R512). -/
  | rst (ses : Session) (p : Path)
  /-- `LASER_RESET_END`: 10 ms of laser reset have passed (R512). -/
  | laserResetEnd (p : Path)
  /-- `PORT_EN_WRITE`: write of PORT_EN (R108). -/
  | portEnWrite (ses : Session) (p : Path) (v : Bool)
  /-- `LASER_FT_CODE_WRITE`: write of CODE in LASER_FT (R171). -/
  | laserFtCodeWrite (ses : Session) (p : Path) (code : BitVec 16)
  /-- `RXD_RUN_WRITE`: write of RUN of the receive DSP (R110). -/
  | rxdRunWrite (ses : Session) (p : Path) (v : Bool)
  /-- `RESTART_ACQUISITION`: RESTART written in RXD_CTRL (R129). -/
  | restartAcquisition (ses : Session) (p : Path)
  /-- `ACQUISITION_STATE_END`: the acquisition state's frames have passed; the frequency, Hz, that the spectrum shows
  where the state is S2 (R126). -/
  | acquisitionStateEnd (p : Path) (coarse : Int)
  /-- `ACQUISITION_TIMEOUT`: ACQ_TIMEOUT.MS since S1 was entered (R129). -/
  | acquisitionTimeout (p : Path)
  /-- `PROFILE_SEARCH`: 64 frames without a correctable code word (R131). -/
  | profileSearch (p : Path)
  /-- `PROFILE_CANDIDATE_END`: 16 frames of the search candidate have passed (R131). -/
  | profileCandidateEnd (p : Path)
  /-- `LO_LOOP_UPDATE`: 1,024 frames have passed (R123). The command is that moment and carries nothing else. -/
  | loLoopUpdate (p : Path) (moment : Unit)
  /-- `TXD_RUN_WRITE`: write of RUN of the transmit DSP (R154). -/
  | txdRunWrite (ses : Session) (p : Path) (v : Bool)
  /-- `COEF_GEN_NEXT_WRITE`: write of NEXT in TXD_COEF_GEN (R152). -/
  | coefGenNextWrite (ses : Session) (p : Path) (next : BitVec 16)
  /-- `LEVELLING_CYCLE_END`: PERIOD superframes have passed (R162). The command is that moment and carries nothing else.
  -/
  | levellingCycleEnd (p : Path) (moment : Unit)
  /-- `LEVELLING_REQUEST`: a usable tag block carries a new request of the far end (R164). -/
  | levellingRequest (p : Path) (num base : BitVec 16) (set : List Nat)
  /-- `LEVELLING_RESPONSE`: a usable tag block answers this end's request (R164). -/
  | levellingResponse (p : Path) (num : BitVec 16) (code : BitVec 8)
  /-- `LEVELLING_REQUEST_TIMEOUT`: 256 superframes without an answer (R163). -/
  | levellingRequestTimeout (p : Path)
  /-- `APPLY`: APPLY written in a rail window: 0 PA_TRK, 1 PB_TRK, 2 HSF (R168). -/
  | apply (ses : Session) (window : BitVec 2) (freeze : Bool) (dwell : BitVec 16)
  /-- `J_WRITE`: write of J in TRK_PROF (R171). -/
  | jWrite (ses : Session) (p : Path) (j : BitVec 8)
  /-- `ITERATION_LOOP_UPDATE`: 1,024 received frames (R185). -/
  | iterationLoopUpdate (p : Path)
  /-- `DECODER_EXCESS_RETURN`: the received frame boundary at which the excess grant is returned (R491). -/
  | decoderExcessReturn (p : Path)
  /-- `GCC_TX_WR_WRITE`: write of WR of the selected channel's transmit ring (R213). -/
  | gccTxWrWrite (ses : Session) (p : Path) (wr : BitVec 16)
  /-- `GCC_EN_WRITE`: write of EN of the selected general channel (R213). -/
  | gccEnWrite (ses : Session) (p : Path) (v : Bool)
  /-- `SLOT_ENTRY_WRITE`: write of the selected slot entry. -/
  | slotEntryWrite (ses : Session) (entry : BitVec 16)
  /-- `SLOT_GEN_NEXT_WRITE`: write of NEXT of the path's slot table. -/
  | slotGenNextWrite (ses : Session) (p : Path) (next : BitVec 16)
  /-- `FLEAM_FRAME`: a complete tributary frame of a lane, its 10-bit code groups from /FS/ on, and the code groups
  outside a frame that came before it (R242, R377). -/
  | fleamFrame (lane : BitVec 4) (frame before : List (BitVec 10))
  /-- `FLEAM_EGRESS_READ`: the lane transmitter reads a tributary frame. -/
  | fleamEgressRead (lane : BitVec 4)
  /-- `REKEY_DUE`: 2^22 frames before the due frame. -/
  | rekeyDue (p : Path)
  /-- `REKEY_EXP_WRITE`: write of REKEY_EXP. -/
  | rekeyExpWrite (ses : Session) (exp : BitVec 6)
  /-- `REKEY_NOW`: REKEY_NOW written in CRY_CMD, for the path that CRY_PATH_SEL selects (R267). -/
  | rekeyNow (ses : Session)
  /-- `ERASE`: ERASE written. -/
  | erase (ses : Session)
  /-- `ERASE_ALL`: ERASE_ALL written. -/
  | eraseAll (ses : Session)
  /-- `HELLO`: a received HELLO. -/
  | hello (p : Path) (msg : Bytes)
  /-- `CERT`: a received CERT. -/
  | cert (p : Path) (msg : Bytes)
  /-- `KEX_INIT`: a received KEX_INIT. -/
  | kexInit (p : Path) (msg : Bytes)
  /-- `KEX_RESP`: a received KEX_RESP. -/
  | kexResp (p : Path) (msg : Bytes)
  /-- `AUTH`: a received AUTH. -/
  | auth (p : Path) (msg : Bytes)
  /-- `DONE`: a received DONE. -/
  | done (p : Path) (msg : Bytes)
  /-- `NAK`: a received NAK. -/
  | nak (p : Path) (msg : Bytes)
  /-- `QUARANTINE`: a received QUARANTINE. -/
  | quarantine (p : Path) (msg : Bytes)
  /-- `VARRUM_REPLY_READY`: the processing of a peer message completes. -/
  | varrumReplyReady (p : Path)
  /-- `HELLO_TIMER`: HELLO is due again. -/
  | helloTimer (p : Path)
  /-- `T_RESP_EXPIRY`: T_RESP has passed. -/
  | tRespExpiry (p : Path)
  /-- `BACKOFF_END`: the backoff time ends. -/
  | backoffEnd (p : Path)
  /-- `OTP_RELEASE`: the trust core releases OTP after reset. -/
  | otpRelease
  /-- `RNG_STARTUP_PASSED`: the start-up test of the random generator passes. -/
  | rngStartupPassed
  /-- `RNG_STARTUP_TIMEOUT`: 10 ms after the OTP release. -/
  | rngStartupTimeout
  /-- `RNG_HEALTH_FAILURE`: a health test of the random generator fails. -/
  | rngHealthFailure
  /-- `PROVISION`: PROVISION written. -/
  | provision (ses : Session)
  /-- `TRANSFER`: TRANSFER written. -/
  | transfer (ses : Session)
  /-- `DECOMMISSION`: DECOMMISSION written. -/
  | decommission (ses : Session)
  /-- `BOOT_PROFILE`: BOOT_PROFILE written. -/
  | bootProfile (ses : Session)
  /-- `CERT_LOAD`: CERT_LOAD written. -/
  | certLoad (ses : Session)
  /-- `OTP_COMMIT_DONE`: the commit has written and read back its words. -/
  | otpCommitDone (took : List (BitVec 9 × BitVec 64))
  /-- `SQ_TAIL_WRITE`: write of TAIL of a page's descriptor ring. -/
  | sqTailWrite (page : BitVec 5) (tail : BitVec 4)
  /-- `GCM_SEAL`: a GCM_SEAL job runs; what its DMA reads return. -/
  | gcmSeal (page : BitVec 5) (src aad : Bytes)
  /-- `GCM_OPEN`: a GCM_OPEN job runs. -/
  | gcmOpen (page : BitVec 5) (src aad : Bytes)
  /-- `CBC_ENC`: a CBC_ENC job runs. -/
  | cbcEnc (page : BitVec 5) (src : Bytes)
  /-- `CBC_DEC`: a CBC_DEC job runs. -/
  | cbcDec (page : BitVec 5) (src : Bytes)
  /-- `CMAC_GEN`: a CMAC_GEN job runs. -/
  | cmacGen (page : BitVec 5) (src : Bytes)
  /-- `CMAC_VER`: a CMAC_VER job runs. -/
  | cmacVer (page : BitVec 5) (src : Bytes)
  /-- `HMAC_GEN`: an HMAC_GEN job runs. -/
  | hmacGen (page : BitVec 5) (src : Bytes)
  /-- `HMAC_VER`: an HMAC_VER job runs. -/
  | hmacVer (page : BitVec 5) (src : Bytes)
  /-- `XTS_ENC`: an XTS_ENC job runs. -/
  | xtsEnc (page : BitVec 5) (src : Bytes)
  /-- `XTS_DEC`: an XTS_DEC job runs. -/
  | xtsDec (page : BitVec 5) (src : Bytes)
  /-- `DERIVE`: a DERIVE job runs. -/
  | derive (page : BitVec 5)
  /-- `JOB_ERASE`: an ERASE job runs. -/
  | jobErase (page : BitVec 5)
  /-- `JOB_COMPLETE`: the page's job completes. -/
  | jobComplete (page : BitVec 5) (dmaError : Bool)
  /-- `ERASED_ABORT`: 64 us after an erase. -/
  | erasedAbort (page : BitVec 5)
  /-- `PAGE_RESET`: RESET written, or EN cleared. -/
  | pageReset (ses : Session) (disable : Bool)
  /-- `MAC_FRAME_RX`: a received Ethernet frame. -/
  | macFrameRx (port : BitVec 5) (frame : Bytes) (bad : Bool) (t : Nat)
  /-- `MAC_FRAME_TX`: the MAC sends a frame of the host-bound buffer. -/
  | macFrameTx (port : BitVec 5)
  /-- `PASS_START`: a free engine takes the next pass. -/
  | passStart (engine : BitVec 6)
  /-- `DROP`: the engine executes DROP. -/
  | drop (engine : BitVec 6)
  /-- `NOP`: the engine executes NOP. -/
  | nop (engine : BitVec 6)
  /-- `LDF`: the engine executes LDF. -/
  | ldf (engine : BitVec 6)
  /-- `LDR`: the engine executes LDR. -/
  | ldr (engine : BitVec 6)
  /-- `MOVI`: the engine executes MOVI. -/
  | movi (engine : BitVec 6)
  /-- `MOVHI`: the engine executes MOVHI. -/
  | movhi (engine : BitVec 6)
  /-- `SUB`: the engine executes SUB. -/
  | sub (engine : BitVec 6)
  /-- `AND`: the engine executes AND. -/
  | and (engine : BitVec 6)
  /-- `OR`: the engine executes OR. -/
  | or (engine : BitVec 6)
  /-- `XOR`: the engine executes XOR. -/
  | xor (engine : BitVec 6)
  /-- `SHL`: the engine executes SHL. -/
  | shl (engine : BitVec 6)
  /-- `SHR`: the engine executes SHR. -/
  | shr (engine : BitVec 6)
  /-- `ADDI`: the engine executes ADDI. -/
  | addi (engine : BitVec 6)
  /-- `ANDI`: the engine executes ANDI. -/
  | andi (engine : BitVec 6)
  /-- `ORI`: the engine executes ORI. -/
  | ori (engine : BitVec 6)
  /-- `SHLI`: the engine executes SHLI. -/
  | shli (engine : BitVec 6)
  /-- `SHRI`: the engine executes SHRI. -/
  | shri (engine : BitVec 6)
  /-- `CMP`: the engine executes CMP. -/
  | cmp (engine : BitVec 6)
  /-- `CMPI`: the engine executes CMPI. -/
  | cmpi (engine : BitVec 6)
  /-- `BR`: the engine executes BR. -/
  | br (engine : BitVec 6)
  /-- `ADV`: the engine executes ADV. -/
  | adv (engine : BitVec 6)
  /-- `SETC`: the engine executes SETC. -/
  | setc (engine : BitVec 6)
  /-- `KEY`: the engine executes KEY. -/
  | key (engine : BitVec 6)
  /-- `KEYR`: the engine executes KEYR. -/
  | keyr (engine : BitVec 6)
  /-- `CHKLEN`: the engine executes CHKLEN. -/
  | chklen (engine : BitVec 6)
  /-- `FLAG`: the engine executes FLAG. -/
  | flag (engine : BitVec 6)
  /-- `LOOKUP`: the engine executes LOOKUP. -/
  | lookup (engine : BitVec 6) (ups : Upsets)
  /-- `CYCLE_LIMIT`: the engine's pass has spent CYC_MAX cycles. -/
  | cycleLimit (engine : BitVec 6)
  /-- `INSERT`: OP 1 written in PKT_FLOW_CMD. -/
  | insert (ses : Session)
  /-- `DELETE`: OP 2 written in PKT_FLOW_CMD. -/
  | delete (ses : Session)
  /-- `READ`: OP 3 written in PKT_FLOW_CMD. -/
  | read (ses : Session)
  /-- `UPDATE`: OP 4 written in PKT_FLOW_CMD. -/
  | update (ses : Session)
  /-- `CLEAR`: OP 5 written in PKT_FLOW_CMD. -/
  | clear (ses : Session)
  /-- `FLOW_COMMAND_COMPLETE`: the running flow command reaches its commit point. -/
  | flowCommandComplete
  /-- `LEARN_INSERT`: a queued learn insert runs. -/
  | learnInsert
  /-- `CALENDAR_BIN`: a calendar bin is processed. -/
  | calendarBin
  /-- `UNIT_REQUEST`: a container asks for a unit. -/
  | unitRequest (p : Path) (cont : BitVec 8) (t : Nat) (bad : Option (BitVec 23))
  /-- `QUEUE_SAMPLE`: 64 us have passed. -/
  | queueSample (t : Nat)
  /-- `GATE_GEN_NEXT_WRITE`: write of NEXT of the path's gate list. -/
  | gateGenNextWrite (ses : Session) (p : Path) (next : BitVec 16)
  /-- `EN`: write of EN of the fast port that HSF_PORT_SEL selects (R385). -/
  | en (ses : Session) (v : Bool)
  /-- `RESTART`: RESTART written for the selected fast port (R385). -/
  | restart (ses : Session)
  /-- `TERMINATION_PROBE`: a termination probe in detect and what it sensed (R385). -/
  | terminationProbe (port : BitVec 5) (sensed : Bool)
  /-- `SIGNAL_DETECTED`: signal on every lane of the port for 1 ms (R385). -/
  | signalDetected (port : BitVec 5)
  /-- `SIGNAL_LOST`: signal lost on a fast lane for 100 us (R385). -/
  | signalLost (lane : BitVec 5)
  /-- `PORT_STATE_TIMEOUT`: the timer of the port's state expires (R385). -/
  | portStateTimeout (port : BitVec 5)
  /-- `TRAINING_FRAME`: a received training frame; the request that the lane's own margin asks for, preset, tap and
  action, 0 for none, or no value where its receiver is ready; and whether the frame came before the answer to the last
  request was sent (R380 to R383). -/
  | trainingFrame (lane : BitVec 5) (request status crc : BitVec 16) (want : Option (BitVec 7)) (early : Bool)
  /-- `CARRIAGE_FRAME`: the 10,880 bits of a received frame of every lane of the port (R372, R376). -/
  | carriageFrame (port : BitVec 5) (frames : List Bytes)
  /-- `CARRIAGE_FRAME_SET`: the start of a transmit frame set (R375). -/
  | carriageFrameSet (port : BitVec 5)
  /-- `LANE_EN`: write of EN of the selected legacy lane (R379). -/
  | laneEn (ses : Session) (v : Bool)
  /-- `LANE_RESTART`: RESTART written for the selected legacy lane (R379). -/
  | laneRestart (ses : Session)
  /-- `LANE_STATE_ADVANCE`: the condition that leaves the lane's state is met (R379). -/
  | laneStateAdvance (lane : BitVec 4)
  /-- `LANE_STATE_TIMEOUT`: 20 ms since state 1 was entered (R379). -/
  | laneStateTimeout (lane : BitVec 4)
  /-- `LANE_ADAPTATION_UPDATE`: 1 ms: the peaking that the adaptation computed (R384). -/
  | laneAdaptationUpdate (lane : BitVec 6) (want : Int)
  /-- `LANE_QUARANTINE_END`: 1 s of quarantine has passed; fast lanes 0 to 31, legacy lanes from 32 (R388). -/
  | laneQuarantineEnd (lane : BitVec 6)
  /-- `RING_MESSAGE`: the 10-bit code groups of a ring message received on L14 or L15, between /RS/ and /RT/, and those
  since the message before it (R377, R387, R389, R390). -/
  | ringMessage (lane15 : Bool) (msg before : List (BitVec 10)) (sinceNs : Nat)
  /-- `RING_SECOND_MARKER`: a received /RM/, sinceNs after the previous marker (R391). -/
  | ringSecondMarker (lane15 : Bool) (sinceNs : Nat)
  /-- `RING_TIME_SEND`: 500 ms after the /RM/ that this station sent (R391). -/
  | ringTimeSend
  /-- `RING_MGMT_READ`: a management read request (R451). -/
  | ringMgmtRead (source dest : BitVec 8) (tag : Byte) (off : Word)
  /-- `RING_MGMT_WRITE`: a management write request (R451). -/
  | ringMgmtWrite (source dest : BitVec 8) (tag : Byte) (off val : Word)
  /-- `BYPASS_CLOSE`: a closing cause of R393, encoded as CLOSE_CAUSE. -/
  | bypassClose (cause : BitVec 4)
  /-- `VDD_RING_FALL`: VDD_RING falls below its threshold (R393, R507). -/
  | vddRingFall
  /-- `BYPASS_OPEN`: the insertion instant (R394). -/
  | bypassOpen
  /-- `BAR4_WRITE`: a memory die write. -/
  | bar4Write (addr : BitVec 27) (data : Bytes)
  /-- `BAR4_READ`: a memory die read. -/
  | bar4Read (addr : BitVec 27) (len : BitVec 12) (ups : Upsets)
  /-- `MERGE_DONE`: a merge entry finishes. -/
  | mergeDone (ups : Upsets)
  /-- `SRAM_WALK`: the walker's turn; SRAM, word address and bits in error of the words that have suffered upsets
  (R401). -/
  | sramWalk (ups : List (Nat × Nat × Nat))
  /-- `SCRUB_PASS_START`: a pass may start. -/
  | scrubPassStart
  /-- `SCRUB_BURST_DONE`: a scrub burst. -/
  | scrubBurstDone (ups : Upsets)
  /-- `SCRUB_PASS_END`: a pass has ended. -/
  | scrubPassEnd
  /-- `REMAP_COPY_DONE`: the copy of a row has completed. -/
  | remapCopyDone
  /-- `REMAP_SWITCH`: the switch to the spare row. -/
  | remapSwitch
  /-- `COMMIT`: COMMIT written in MEM_REPAIR_CMD. -/
  | commit (ses : Session)
  /-- `LEDGER_CLEAR`: CLEAR written in MEM_LEDGER_SEL. -/
  | ledgerClear (ses : Session)
  /-- `MONITOR_TIMER`: the timer's period has passed. -/
  | monitorTimer (t : BitVec 2)
  /-- `SEQUENCE_GO`: GO written. -/
  | sequenceGo (ses : Session)
  /-- `URGENT_DUE`: the next urgent conversion becomes due. -/
  | urgentDue
  /-- `CONVERSION_DONE`: the conversion in progress ends. -/
  | conversionDone (raw : BitVec 16)
  /-- `RES_ACK`: RES_ACK written. -/
  | resAck (ses : Session)
  /-- `SELF_CAL`: SELF_CAL written. -/
  | selfCal (ses : Session)
  /-- `SELF_CAL_DONE`: the self-calibration ends; the sums of the 8,192 raw codes of channels 39 and 38 (R428). -/
  | selfCalDone (sum39 sum38 : Nat)
  /-- `MON_CAL_WRITE`: write of MON_CAL. -/
  | monCalWrite (ses : Session) (val : Word)
  /-- `CHAIN_APPLY`: APPLY written. -/
  | chainApply (ses : Session)
  /-- `DITHER_HALF_PERIOD`: a half-period boundary. -/
  | ditherHalfPeriod (p : Path)
  /-- `DITHER_TURN_END`: the end of a dither turn. -/
  | ditherTurnEnd (p : Path)
  /-- `RX_LEVEL_LOOP_UPDATE`: 1 ms. -/
  | rxLevelLoopUpdate (p : Path)
  /-- `FCAL_APPLY`: FCAL_APPLY written. -/
  | fcalApply (ses : Session)
  /-- `DAC_CODE_WRITE`: write of CODE. -/
  | dacCodeWrite (ses : Session) (code : BitVec 16)
  /-- `FLR`: a function level reset. -/
  | flr
  /-- `PCIE_LINK_DOWN`: the PCIe link goes down. -/
  | pcieLinkDown
  /-- `PERST_N`: PERST_N goes low. -/
  | perstN
  /-- `MNT_REGISTER_WRITE`: maintenance command 0x02. -/
  | mntRegisterWrite (off : BitVec 32) (val : Word)
  /-- `MNT_REGISTER_READ`: maintenance command 0x03, or one that the port does not know, which the table has no row for.
  -/
  | mntRegisterRead (req : MntRequest)
  /-- `MNT_MEMORY_WRITE`: maintenance command 0x12. -/
  | mntMemoryWrite (addr : BitVec 32) (val : Word)
  /-- `MNT_MEMORY_READ`: maintenance command 0x13. -/
  | mntMemoryRead (addr : BitVec 32)
  /-- `MNT_READ_COMPLETE`: the background read completes. -/
  | mntReadComplete (ups : Upsets)
  /-- `MNT_SESSION_RESET`: maintenance command 0x99. -/
  | mntSessionReset
  /-- `MNT_CS_ABORT`: MNT_CS_N rises too early. -/
  | mntCsAbort
  /-- `STATE_RESTART`: RESTART written in CTL_STATE. -/
  | stateRestart (ses : Session)
  /-- `MISMATCH_TIMEOUT`: a mismatch has lasted its settle time. -/
  | mismatchTimeout (u : BitVec 6)
  /-- `ACQUIRE`: OP 1. -/
  | acquire (ses : Session) (dom : BitVec 3)
  /-- `RENEW`: OP 2. -/
  | renew (ses : Session) (dom : BitVec 3)
  /-- `LOCK_COMMIT`: OP 3. -/
  | lockCommit (ses : Session) (dom : BitVec 3)
  /-- `ABORT`: OP 4. -/
  | abort (ses : Session) (dom : BitVec 3)
  /-- `LEASE_EXPIRY`: the lease expires. -/
  | leaseExpiry (dom : BitVec 3)
  /-- `HOLDOFF_END`: the holdoff of a vector ends. -/
  | holdoffEnd (v : BitVec 6)
  /-- `LOSS_MARKER`: the ring has room again. -/
  | lossMarker
  /-- `SPILL_SECTOR_WRITE`: a spill sector is written; whether the flash failed (R469). -/
  | spillSectorWrite (failed : Bool)
  /-- `SPILL_READ`: SPILL_READ written. -/
  | spillRead (ses : Session) (sector : BitVec 24)
  /-- `SPILL_READ_DONE`: the spill read finishes. -/
  | spillReadDone
  /-- `PMC_CFG_WRITE`: write of a counter's configuration. -/
  | pmcCfgWrite (ses : Session) (n : BitVec 13) (val : Word)
  /-- `DUMP_WRITTEN`: the dump's DMA completes. -/
  | dumpWritten
  /-- `WAYSIDE_ITEM_DONE`: a wayside test item completes; `found` is the detail of a failure that the built-in test of a
  job engine or a signpost engine found, `ups` the bits in error that the memory block's words come to have before they
  are read back (R477). -/
  | waysideItemDone (item : BitVec 2) (found : Option Word) (ups : Upsets)
  /-- `SUPPLY_WARNING`: a rail below 95 %. -/
  | supplyWarning (rail : BitVec 4)
  /-- `SUPPLY_RESET`: a rail below 88 %. -/
  | supplyReset (rail : BitVec 4)
  /-- `PWR_SW_RESET`: 0xA5 written. -/
  | pwrSwReset (ses : Session)
  /-- `THERMAL_READING`: 1 ms: the sensors' readings. -/
  | thermalReading (raw : List Int)
  /-- `CEILING_WRITE`: write of CEILING. -/
  | ceilingWrite (ses : Session) (v : BitVec 9)
  /-- `TIMEOUT_WRITE`: write of TIMEOUT. -/
  | timeoutWrite (ses : Session) (v : BitVec 14)
  /-- `LANE_LOCK_LOST`: a condition that takes a legacy lane out of state 4 (R379). -/
  | laneLockLost (lane : BitVec 4)
  /-- `ETHERNET_PORT_ALIGNED`: the PCS of the port reports alignment on every PCS lane (R370, R385). -/
  | ethernetPortAligned (port : BitVec 5)
  /-- `ETHERNET_ALIGNMENT_LOST`: the PCS of the port loses alignment (R385). -/
  | ethernetAlignmentLost (port : BitVec 5)
  /-- `REGISTER_READ`: a BAR0 read over PCIe. -/
  | registerRead (bar2 : Bool) (off : BitVec 26)
  /-- `POWER_ON`: VDD_CORE rises. -/
  | powerOn
  /-- `RESET_N_LOW`: RESET_N low for 1 us. -/
  | resetNLow
  /-- `RESET_RELEASE`: the release of reset. -/
  | resetRelease
  /-- `SW_RESET_HOLD_END`: 10 us have passed. -/
  | swResetHoldEnd
  /-- `TRIP_HOLD_END`: 1 s in trip reset has passed. -/
  | tripHoldEnd
  /-- `CONVERSION_DUE`: a queued conversion becomes due. -/
  | conversionDue
  /-- `PERST_N_RELEASE`: PERST_N rises. -/
  | perstNRelease
  deriving DecidableEq, Repr

end Sys2Proof
end

