-- ==== Sys2Proof/Decode.lean ====
section
/-!
DEFINITION. Decoding. The spec gives no row of its command table any bits (98_reader.md): commands reach the block as
writes, reads, frames and pin events, which the constructors of `Instr` carry as operands.
-/
namespace Sys2Proof

/-- The command that a word spells by the table's bits. No row has bits, so no word spells a command. -/
def decodeTableWord (_nbits _w : Nat) : Option Instr := none

end Sys2Proof
end

