-- ==== Sys2Proof/Config.lean ====
section
/-!
DEFINITION. What the spec leaves open and what published standards define outside it. Every constant here is opaque:
it has no body, so no proof can see its value, and a claim that holds, holds whatever the value is.
-/
namespace Sys2Proof.Config

/-- A free number: `ctr` is `State.freeCtr`, which every command advances, and `i` tells the free values of one
command apart. -/
opaque freeNat (ctr i : Nat) : Nat

/-- The pattern of the wayside memory test, made from the dump number and the address (R477); how is not stated. -/
opaque waysideByte (dump a : Nat) : Byte

/-- A free byte, as `freeNat`. -/
opaque freeByte (ctr i : Nat) : Byte

/-- The source of the bonded-skew event (R22), which the spec does not number. -/
opaque bondSkewSource : Nat

/-! ### Functions of the real numbers

The spec gives the signal processing as formulas over the real numbers; the model's numbers are rational, so the values of
these functions are not computed. The docstring says what each stands for. -/

/-- Cosine and sine of a number of turns, of 2 pi each. -/
opaque cosTurn (x : Rat) : Rat
opaque sinTurn (x : Rat) : Rat

/-- Cosine and sine of an angle in radian. -/
opaque cosRad (x : Rat) : Rat
opaque sinRad (x : Rat) : Rat

/-- The angle of a complex number, in turns. -/
opaque argTurn (re im : Rat) : Rat

/-- The square root. -/
opaque sqrtOf (x : Rat) : Rat

/-- 10 to the power x. -/
opaque pow10 (x : Rat) : Rat

/-- The integral of a function from `lo` to `hi`. -/
opaque integral (f : Rat → Rat) (lo hi : Rat) : Rat

/-! ### Signal processing that the spec leaves open -/

/-- The value between its samples of a stream, by fractional-delay interpolation (R112, R116). -/
opaque between (stream : Int → Rat) (time : Rat) : Rat

/-- The value at bin `b` of 4,096 of a spectrum given at 576 points: real and imaginary part (R118). -/
opaque interpBins (points : List (Rat × Rat)) (b : Nat) : Rat × Rat

/-- The weight of frequency `f`, in symbol rates, when the equaliser separates track `t` of `tracks` (R117). -/
opaque trackWeight (tracks t : Nat) (f : Rat) : Rat

/-- The phase, in turns, of the carrier of track `t` at the first sample of a frame: at the transmitter, and as the
receiver takes it out (R140). -/
opaque txPhase (t : Nat) : Rat
opaque rxPhase (t : Nat) : Rat

/-- The residual dispersion, ps/nm, that the device estimates from the group-delay slope of the taps, whose entries are
listed bin by bin as real and imaginary parts (R115). -/
opaque tapDispersion (taps : List (Rat × Rat)) : Int

/-- What the device reads from the taps of a frame (R135): the DGD averaged over the bins, 0.1 ps, from the taps bin by
bin, and the PDL, 0.01 dB, from the squared singular values of each bin. -/
opaque tapDgd (taps : List (Rat × Rat)) : Nat
opaque tapPdl (singular : List (Rat × Rat)) : Nat

/-- The largest rotation rate, krad/s, that the trackers' matrices of a frame tell, listed track by track (R135). -/
opaque sopRate (jones : List (Rat × Rat)) : Nat

/-- The coarse frequency offset, Hz, that the spectrum of a window of samples tells (R126), and the offset that remains
in a received training block (R126). Each sample is listed as XI, XQ, YI and YQ. -/
opaque coarseOffset (samples : List (List Rat)) : Int
opaque trainingOffset (samples : List (List Rat)) : Int

/-- The far end's clock offset, 0.01 ppm, that timing recovery estimates from the compensated samples (R116). -/
opaque clockOffset (samples : List (List Rat)) : Int

/-! ### The Ethernet PCS of IEEE 802.3 -/

/-- The alignment markers of a client rate, in 100 Gb/s, in whole 257-bit blocks, and the client's blocks from one group of
them to the next (R236). -/
opaque alignMarkers (rate : Nat) : List Bool
opaque markerPeriod (rate : Nat) : Nat

/-- A 257-bit block of an uncorrectable code word with the sync headers of its blocks corrupted (R370). -/
opaque corruptBlock (block : List Bool) : List Bool

/-- The words beyond two frames' container words that the client buffer of a mapper holds, whose size is not stated
(R252). -/
opaque mapBuffer : Nat

/-! ### Cryptographic functions of published standards -/

/-- Byte `i` of AES-256 in counter mode, counting blocks as GCM does (NIST SP 800-38D). -/
opaque aesCtr (key iv : Bytes) (i : Nat) : Byte

/-- The authentication tag of AES-256-GCM over additional data and cipher text, 16 bytes. -/
opaque gcmTag (key iv aad cipher : Bytes) : Bytes

/-- One AES-256 block. -/
opaque aesBlock (key block : Bytes) : Bytes

/-- The inverse of one AES-256 block. -/
opaque aesUnblock (key block : Bytes) : Bytes

/-- AES-256-CMAC (NIST SP 800-38B), 16 bytes. -/
opaque cmac (key msg : Bytes) : Bytes

/-- AES-256-XTS of one data unit (IEEE 1619): encryption, and decryption. -/
opaque xtsEnc (key tweak msg : Bytes) : Bytes
opaque xtsDec (key tweak msg : Bytes) : Bytes

/-- SHA-384, 48 bytes, and HMAC with it. -/
opaque sha384 (msg : Bytes) : Bytes
opaque hmac384 (key msg : Bytes) : Bytes

/-- ECDSA P-384 over the SHA-384 hash of a message: the public point of a private key, a signature r ‖ s, and its
verification. -/
opaque ecPublic (priv : Bytes) : Bytes
opaque ecdsaSign (priv msg : Bytes) (ctr : Nat) : Bytes
opaque ecdsaVerify (pub msg sig : Bytes) : Bool

/-- ECDH P-384: the x coordinate of the shared point; none where the public key is no valid point. -/
opaque ecdh (priv pub : Bytes) : Option Bytes

/-- ML-DSA-65 (FIPS 204). -/
opaque mldsaPublic (priv : Bytes) : Bytes
opaque mldsaSign (priv msg : Bytes) (ctr : Nat) : Bytes
opaque mldsaVerify (pub msg sig : Bytes) : Bool

/-- ML-KEM-768 (FIPS 203): the encapsulation key of a seed, encapsulation to (cipher text, shared key), and
decapsulation. -/
opaque kemPublic (seed : Bytes) : Bytes
opaque kemEncaps (ek : Bytes) (ctr : Nat) : Bytes × Bytes
opaque kemDecaps (seed ct : Bytes) : Bytes

/-- The device root in the mask ROM of the trust core: its ECDSA P-384 public key and its identifier (R298). -/
opaque rootKey : Bytes
opaque rootId : Bytes

/-- Where the training pattern of a fast lane starts (R380): the spec does not say. -/
opaque trainSeed : Nat → BitVec 13

end Sys2Proof.Config
end

