-- ==== Sys2Proof/Machine/Operands.lean ====
section
/-!
DEFINITION. Operand forms: fields of words, signed fields, the byte orders of R6 and R7, and the CRCs of the spec.
-/
namespace Sys2Proof.Machine

/-- Bits [hi:lo] of a number. -/
def bitsOf (n hi lo : Nat) : Nat := (n / 2 ^ lo) % 2 ^ (hi + 1 - lo)

/-- Bits [hi:lo] of a register word. -/
def fieldOf (w : Word) (hi lo : Nat) : Nat := bitsOf w.toNat hi lo

/-- Bit `i` of a register word. -/
def flagOf (w : Word) (i : Nat) : Bool := w.toNat.testBit i

/-- The word with bits [hi:lo] replaced by `v`. -/
def setField (w : Word) (hi lo v : Nat) : Word :=
  let n := w.toNat
  BitVec.ofNat 32 (n - bitsOf n hi lo * 2 ^ lo + (v % 2 ^ (hi + 1 - lo)) * 2 ^ lo)

/-- The mask of bits [hi:lo]. -/
def fieldMask (hi lo : Nat) : Word := BitVec.ofNat 32 ((2 ^ (hi + 1 - lo) - 1) * 2 ^ lo)

/-- A `bits`-wide two's complement field as an integer. -/
def signedOf (bits n : Nat) : Int := if n < 2 ^ (bits - 1) then (n : Int) else (n : Int) - (2 ^ bits : Nat)

/-- An integer as a `bits`-wide two's complement field. -/
def toField (bits : Nat) (i : Int) : Nat := (i % ((2 ^ bits : Nat) : Int)).toNat

/-- `b2n true = 1`. -/
def b2n (b : Bool) : Nat := if b then 1 else 0

/-- A value of a wrapping counter of `bits` bits. -/
def wrapTo (bits n : Nat) : Nat := n % 2 ^ bits

/-- A value of a saturating counter of `bits` bits. -/
def satTo (bits n : Nat) : Nat := min n (2 ^ bits - 1)

/-- Rounds a quotient up. -/
def ceilDiv (a b : Nat) : Nat := (a + b - 1) / b

/-- Convergent rounding of `n / d`: a tie goes to the even neighbour (R89, R422). -/
def roundHalfEven (n : Int) (d : Nat) : Int :=
  let q := n / (d : Int)
  let r2 := 2 * (n % (d : Int))
  if r2 < d then q else if (d : Int) < r2 then q + 1 else if q % 2 = 0 then q else q + 1

/-- Clamps between bounds. -/
def clampInt (x lo hi : Int) : Int := if x < lo then lo else if hi < x then hi else x

/-- A number as `n` bytes, most significant first (R7). -/
def beBytes : Nat → Nat → Bytes
  | 0, _ => []
  | n + 1, v => BitVec.ofNat 8 (v / 256 ^ n) :: beBytes n v

/-- The number that bytes spell, most significant first (R7). -/
def beNat (b : Bytes) : Nat := b.foldl (fun a x => a * 256 + x.toNat) 0

/-- A number as `n` bytes, least significant first (R6). -/
def leBytes : Nat → Nat → Bytes
  | 0, _ => []
  | n + 1, v => BitVec.ofNat 8 v :: leBytes n (v / 256)

/-- The number that bytes spell, least significant first (R6). -/
def leNat : Bytes → Nat
  | [] => 0
  | b :: bs => b.toNat + 256 * leNat bs

/-- `n` bytes from offset `i`; bytes past the end read as zero. -/
def bytesAt (b : Bytes) (i n : Nat) : Bytes :=
  let t := (b.drop i).take n
  t ++ List.replicate (n - t.length) 0

/-- The most-significant-first number in the `n` bytes at offset `i`. -/
def beAt (b : Bytes) (i n : Nat) : Nat := beNat (bytesAt b i n)

/-- Pads with zero bytes, or cuts, to exactly `n` bytes. -/
def padTo (n : Nat) (b : Bytes) : Bytes := bytesAt b 0 n

/-- Replaces the bytes from offset `i` by `v`. -/
def patchBytes (b : Bytes) (i : Nat) (v : Bytes) : Bytes := padTo i b ++ v ++ b.drop (i + v.length)

/-- Cuts a byte string into pieces of `n` bytes; `fuel` bounds the number of pieces. -/
def chunksOf (n : Nat) : Nat → Bytes → List Bytes
  | 0, _ => []
  | _ + 1, [] => []
  | fuel + 1, b => b.take n :: chunksOf n fuel (b.drop n)

/-- One step of a most-significant-bit-first CRC of `w` bits with polynomial `poly`, on one message bit. -/
def crcBit (w poly : Nat) (c : Nat) (b : Bool) : Nat :=
  let top := c.testBit (w - 1)
  let c' := (c * 2) % 2 ^ w
  if top != b then c' ^^^ poly else c'

/-- A most-significant-bit-first CRC step on one byte. -/
def crcByte (w poly : Nat) (c : Nat) (x : Byte) : Nat :=
  [7, 6, 5, 4, 3, 2, 1, 0].foldl (fun a i => crcBit w poly a (x.toNat.testBit i)) c

/-- A most-significant-bit-first CRC over bytes. -/
def crcMsb (w poly init : Nat) (b : Bytes) : Nat := b.foldl (crcByte w poly) init

/-- The CRC-16 of the milestone unit and the overhead (R63): polynomial 0x1021, initial value 0xFFFF, no inversion. -/
def crc16 (b : Bytes) : Nat := crcMsb 16 0x1021 0xFFFF b

/-- One reflected (least-significant-bit-first) CRC-32 step on one bit, polynomial 0xEDB8_8320. -/
def crc32Bit (c : Nat) : Nat := if c % 2 = 1 then (c / 2) ^^^ 0xEDB88320 else c / 2

/-- One reflected CRC-32 step on one byte. -/
def crc32Byte (c : Nat) (x : Byte) : Nat :=
  crc32Bit (crc32Bit (crc32Bit (crc32Bit (crc32Bit (crc32Bit (crc32Bit (crc32Bit (c ^^^ x.toNat))))))))

/-- The reflected CRC-32 with its final inversion, from an initial register value. -/
def crc32From (init : Nat) (b : Bytes) : Nat := (b.foldl crc32Byte init) ^^^ 0xFFFFFFFF

/-- The CRC-32 of IEEE 802.3. -/
def crc32 (b : Bytes) : Nat := crc32From 0xFFFFFFFF b

/-- The index of the first element that satisfies `p`. -/
def findIndex {α : Type} (p : α → Bool) : List α → Option Nat
  | [] => none
  | a :: l => if p a then some 0 else (findIndex p l).map (· + 1)

/-- Replaces element `i` by its image. -/
def modifyAt {α : Type} (f : α → α) : Nat → List α → List α
  | _, [] => []
  | 0, a :: l => f a :: l
  | n + 1, a :: l => a :: modifyAt f n l

end Sys2Proof.Machine
end

