-- ==== Sys2Proof/Machine/RegTypes.lean ====
section
/-!
DEFINITION. What a register descriptor says of a register: where it lies, which of its fields can be written, with
the access type and class of R9 and the values that R517 lets a write set.
-/
namespace Sys2Proof.Machine

/-- Access types of the fields that a write can reach (R9). -/
inductive Access where
  | rw | wo | w1c | rwl
  deriving DecidableEq, Repr

/-- Classes of a field (R9): live, milestone, idle-only. -/
inductive FieldClass where
  | l | m | i
  deriving DecidableEq, Repr

/-- Values from `lo` to `hi` in steps of `step`. -/
structure Range where
  lo   : Nat
  hi   : Nat
  step : Nat
  deriving DecidableEq, Repr

/-- One writable field. An empty `ok` lets every value be written; otherwise R517 refuses a value in no range. -/
structure RegField where
  hi    : Nat
  lo    : Nat
  acc   : Access
  cls   : FieldClass
  reset : Nat
  ok    : List Range
  deriving DecidableEq, Repr

/-- One register, or `count` registers of one layout at 4-byte steps from `off`. `basic` marks a basic mode word
(R10, R40); a write of any other register is an expert write. -/
structure RegDesc where
  off    : Nat
  count  : Nat
  basic  : Bool
  fields : List RegField
  deriving DecidableEq, Repr

end Sys2Proof.Machine
end

