-- ==== Sys2Proof/Machine/Registers.lean ====
section
/-!
DEFINITION. The register map: one descriptor for every register of BAR0, with the writable fields of the spec's
register field tables (bits, access type, class, reset value, and the values that R517 lets be written). Read-only
fields are not listed here: each is computed from the unit state by the register read of its unit.
-/
namespace Sys2Proof.Machine

/-! Offsets of the registers in BAR0 (Path A's for the path blocks; Path B's lie 0x0040_0000 higher). -/
namespace Reg

abbrev TOP_ID : Nat := 0x00000000
abbrev TOP_UNIT_FUSED : Nat := 0x00000004
abbrev TOP_UNIT_INST : Nat := 0x00000008
abbrev TOP_FABRIC_GEN : Nat := 0x0000000c
abbrev RTE_CTRL : Nat := 0x00100000
abbrev RTE_STATUS : Nat := 0x00100004
abbrev RTE_LEN : Nat := 0x00100008
abbrev RTE_SLOT : Nat := 0x0010000c
abbrev RTE_ACTIVE : Nat := 0x00100010
abbrev RTE_ACTIVE_GEN : Nat := 0x00100014
abbrev RTE_AMD_TIME_SEC_HI : Nat := 0x00100018
abbrev RTE_AMD_TIME_SEC_LO : Nat := 0x0010001c
abbrev RTE_AMD_TIME_NS : Nat := 0x00100020
abbrev RTE_EXPERT_LOCK : Nat := 0x00100024
abbrev RTE_FAIL_DETAIL : Nat := 0x00100028
abbrev MST_TIME_CTRL : Nat := 0x00200000
abbrev MST_TIME_STATUS : Nat := 0x00200004
abbrev MST_TIME_SEC_HI : Nat := 0x00200008
abbrev MST_TIME_SEC_LO : Nat := 0x0020000c
abbrev MST_TIME_NS : Nat := 0x00200010
abbrev MST_SET_SEC_HI : Nat := 0x00200014
abbrev MST_SET_SEC_LO : Nat := 0x00200018
abbrev MST_SET_NS : Nat := 0x0020001c
abbrev MST_HOLDOVER : Nat := 0x00200020
abbrev MST_RING_DELAY : Nat := 0x00200024
abbrev MST_RATE_ADJ : Nat := 0x00200028
abbrev MST_Q_TIME_SEC_HI : Nat := 0x00200030
abbrev MST_Q_TIME_SEC_LO : Nat := 0x00200034
abbrev MST_Q_TIME_NS : Nat := 0x00200038
abbrev MST_Q_ENTRY : Nat := 0x0020003c
abbrev MST_Q_CMD : Nat := 0x00200040
abbrev MST_Q_STATUS : Nat := 0x00200044
abbrev MST_Q_MAP_LO : Nat := 0x00200048
abbrev MST_Q_MAP_HI : Nat := 0x0020004c
abbrev MST_GEN : Nat := 0x00200060
abbrev MST_GEN_MISMATCH : Nat := 0x00200090
abbrev MST_SEQ : Nat := 0x00200094
abbrev PA_CNV_BASIC : Nat := 0x00400000
abbrev PA_CNV_CTRL : Nat := 0x00400004
abbrev PA_CNV_STATUS : Nat := 0x00400008
abbrev PA_CNV_MAP : Nat := 0x0040000c
abbrev PA_CNV_DAC_SEL : Nat := 0x00400010
abbrev PA_CNV_DAC_TRIM : Nat := 0x00400014
abbrev PA_CNV_DAC_TAP0 : Nat := 0x00400018
abbrev PA_CNV_SAT_THR : Nat := 0x00400028
abbrev PA_CNV_DAC_SAT : Nat := 0x0040002c
abbrev PA_CNV_ADC_LEVEL0 : Nat := 0x00400030
abbrev PA_CNV_RELIEF : Nat := 0x00400040
abbrev PA_CNV_SLICE_SEL : Nat := 0x00400044
abbrev PA_CNV_SLICE_COEF : Nat := 0x00400048
abbrev PA_CNV_LASER_CFG : Nat := 0x00400050
abbrev PA_CNV_LASER_CMD : Nat := 0x00400054
abbrev PA_CNV_LASER_RESP : Nat := 0x00400058
abbrev PA_CNV_LASER_FT : Nat := 0x0040005c
abbrev PA_CNV_LASER_STAT : Nat := 0x00400060
abbrev PA_RXD_BASIC : Nat := 0x00440000
abbrev PA_RXD_CTRL : Nat := 0x00440004
abbrev PA_RXD_CD_HINT : Nat := 0x00440008
abbrev PA_RXD_LAMBDA : Nat := 0x0044000c
abbrev PA_RXD_AGC : Nat := 0x00440010
abbrev PA_RXD_FE_SEL : Nat := 0x00440014
abbrev PA_RXD_FE_COEF : Nat := 0x00440018
abbrev PA_RXD_FE_IQ : Nat := 0x0044001c
abbrev PA_RXD_FDE_CTRL : Nat := 0x00440020
abbrev PA_RXD_POL_CTRL : Nat := 0x00440024
abbrev PA_RXD_CPR_CTRL : Nat := 0x00440028
abbrev PA_RXD_LO_CTRL : Nat := 0x0044002c
abbrev PA_RXD_DEMAP_CTRL : Nat := 0x00440030
abbrev PA_RXD_THR : Nat := 0x00440034
abbrev PA_RXD_ACQ_TIMEOUT : Nat := 0x00440038
abbrev PA_RXD_STATE : Nat := 0x00440040
abbrev PA_RXD_ACQ_INFO : Nat := 0x00440044
abbrev PA_RXD_STAT_LATCH : Nat := 0x00440050
abbrev PA_RXD_ST_CD : Nat := 0x00440054
abbrev PA_RXD_ST_FOFS : Nat := 0x00440058
abbrev PA_RXD_ST_CLK : Nat := 0x0044005c
abbrev PA_RXD_ST_DGD : Nat := 0x00440060
abbrev PA_RXD_ST_PDL : Nat := 0x00440064
abbrev PA_RXD_ST_SOP : Nat := 0x00440068
abbrev PA_RXD_ST_MISS : Nat := 0x0044006c
abbrev PA_RXD_SNR_SEL : Nat := 0x00440070
abbrev PA_RXD_SNR : Nat := 0x00440074
abbrev PA_TXD_BASIC : Nat := 0x00480000
abbrev PA_TXD_CTRL : Nat := 0x00480004
abbrev PA_TXD_COEF_GEN : Nat := 0x00480008
abbrev PA_TXD_SHAPE : Nat := 0x0048000c
abbrev PA_TXD_TRK_PWR0 : Nat := 0x00480010
abbrev PA_TXD_MASK_SEL : Nat := 0x00480020
abbrev PA_TXD_MASK : Nat := 0x00480024
abbrev PA_TXD_PCF_SEL : Nat := 0x00480028
abbrev PA_TXD_PCF : Nat := 0x0048002c
abbrev PA_TXD_STATUS : Nat := 0x00480030
abbrev PA_TXD_FRAME_INFO : Nat := 0x00480034
abbrev PA_TXD_TRK_SEL : Nat := 0x00480038
abbrev PA_TXD_TRK_INFO : Nat := 0x0048003c
abbrev PA_TXD_TRK_FILL : Nat := 0x00480040
abbrev PA_TXD_COMP_SEL : Nat := 0x00480044
abbrev PA_TXD_COMP : Nat := 0x00480048
abbrev PA_TRK_BASIC : Nat := 0x004c0000
abbrev PA_TRK_LEV_CTRL : Nat := 0x004c0004
abbrev PA_TRK_LEV_STATUS : Nat := 0x004c0008
abbrev PA_TRK_LEV_CNT : Nat := 0x004c000c
abbrev PA_TRK_PROF_SEL : Nat := 0x004c0010
abbrev PA_TRK_PROF : Nat := 0x004c0014
abbrev PA_TRK_RAIL_SEL : Nat := 0x004c0020
abbrev PA_TRK_RAIL_MIN : Nat := 0x004c0024
abbrev PA_TRK_RAIL_MAX : Nat := 0x004c0028
abbrev PA_TRK_RAIL_STEP : Nat := 0x004c002c
abbrev PA_TRK_RAIL_CTRL : Nat := 0x004c0030
abbrev PA_TRK_RAIL_STATUS : Nat := 0x004c0034
abbrev PA_TRK_RAIL_OUT : Nat := 0x004c0038
abbrev PA_FEC_BASIC : Nat := 0x00500000
abbrev PA_FEC_CTRL : Nat := 0x00500004
abbrev PA_FEC_LOOP : Nat := 0x00500008
abbrev PA_FEC_STATUS : Nat := 0x0050000c
abbrev PA_FEC_GRANT : Nat := 0x00500010
abbrev PA_FEC_INJ : Nat := 0x00500014
abbrev PA_FEC_BER_THR : Nat := 0x00500018
abbrev PA_FEC_STAT_LATCH : Nat := 0x00500020
abbrev PA_FEC_ST_FRAMES : Nat := 0x00500024
abbrev PA_FEC_ST_ERR_FRAMES : Nat := 0x00500028
abbrev PA_FEC_ST_WORDS : Nat := 0x0050002c
abbrev PA_FEC_ST_UNCORR : Nat := 0x00500030
abbrev PA_FEC_ST_CORR_HI : Nat := 0x00500034
abbrev PA_FEC_ST_CORR_LO : Nat := 0x00500038
abbrev PA_FEC_ST_ITER : Nat := 0x0050003c
abbrev PA_LFR_BASIC : Nat := 0x00540000
abbrev PA_LFR_CTRL : Nat := 0x00540004
abbrev PA_LFR_STATUS : Nat := 0x00540008
abbrev PA_LFR_DEF_STICKY : Nat := 0x0054000c
abbrev PA_LFR_DEG_CTRL : Nat := 0x00540010
abbrev PA_LFR_DEG_BER : Nat := 0x00540014
abbrev PA_LFR_TX_FC_HI : Nat := 0x00540018
abbrev PA_LFR_TX_FC_LO : Nat := 0x0054001c
abbrev PA_LFR_RX_FC_HI : Nat := 0x00540020
abbrev PA_LFR_RX_FC_LO : Nat := 0x00540024
abbrev PA_LFR_TRACE_SEL : Nat := 0x00540028
abbrev PA_LFR_TRACE_TX : Nat := 0x0054002c
abbrev PA_LFR_TRACE_RX : Nat := 0x00540030
abbrev PA_LFR_VIOL : Nat := 0x00540034
abbrev PA_LFR_PM_SEL : Nat := 0x00540038
abbrev PA_LFR_PM_ES : Nat := 0x0054003c
abbrev PA_LFR_PM_SES : Nat := 0x00540040
abbrev PA_LFR_PM_UAS : Nat := 0x00540044
abbrev PA_LFR_PM_STATE : Nat := 0x00540048
abbrev PA_LFR_PM_LAST : Nat := 0x0054004c
abbrev PA_LFR_GCC_CTRL : Nat := 0x00540050
abbrev PA_LFR_GCC_SEL : Nat := 0x00540054
abbrev PA_LFR_GCC_TX : Nat := 0x00540058
abbrev PA_LFR_GCC_RX : Nat := 0x0054005c
abbrev PA_LFR_GCC_STAT : Nat := 0x00540060
abbrev CNT_BASIC : Nat := 0x00c00000
abbrev CNT_CTRL : Nat := 0x00c00004
abbrev CNT_SLOT_GEN_A : Nat := 0x00c00008
abbrev CNT_SLOT_GEN_B : Nat := 0x00c0000c
abbrev CNT_SLOT_SEL : Nat := 0x00c00010
abbrev CNT_SLOT_ENTRY : Nat := 0x00c00014
abbrev CNT_C_SEL : Nat := 0x00c00020
abbrev CNT_C_CTRL : Nat := 0x00c00024
abbrev CNT_C_SIZE : Nat := 0x00c00028
abbrev CNT_C_STATUS : Nat := 0x00c0002c
abbrev CNT_C_CNT0 : Nat := 0x00c00030
abbrev CNT_C_CNT1 : Nat := 0x00c00034
abbrev CNT_C_TRACE_SEL : Nat := 0x00c00038
abbrev CNT_C_TRACE_TX : Nat := 0x00c0003c
abbrev CNT_C_TRACE_RX : Nat := 0x00c00040
abbrev CNT_SLIP_SEL : Nat := 0x00c00050
abbrev CNT_SLIP : Nat := 0x00c00054
abbrev CNT_SLIP_BAD : Nat := 0x00c00058
abbrev CRY_BASIC : Nat := 0x00d00000
abbrev CRY_PATH_SEL : Nat := 0x00d00004
abbrev CRY_POLICY : Nat := 0x00d00008
abbrev CRY_CMD : Nat := 0x00d0000c
abbrev CRY_PEER_PIN0 : Nat := 0x00d00010
abbrev CRY_PEER_SEEN0 : Nat := 0x00d00020
abbrev CRY_VAR_STATUS : Nat := 0x00d00030
abbrev CRY_EPOCH : Nat := 0x00d00034
abbrev CRY_KEY_AGE : Nat := 0x00d00038
abbrev CRY_AGREE_CNT : Nat := 0x00d0003c
abbrev CRY_C_SEL : Nat := 0x00d00040
abbrev CRY_C_CTRL : Nat := 0x00d00044
abbrev CRY_C_STATUS : Nat := 0x00d00048
abbrev CRY_C_AUTH : Nat := 0x00d0004c
abbrev CRY_C_UNCHK : Nat := 0x00d00050
abbrev TRU_STATUS : Nat := 0x00e00000
abbrev TRU_CMD : Nat := 0x00e00004
abbrev TRU_RESULT : Nat := 0x00e00008
abbrev TRU_IN_LEN : Nat := 0x00e0000c
abbrev TRU_ID0 : Nat := 0x00e00010
abbrev TRU_BP0 : Nat := 0x00e00020
abbrev TRU_BP1 : Nat := 0x00e00024
abbrev TRU_OTP_SEL : Nat := 0x00e00028
abbrev TRU_OTP_HI : Nat := 0x00e0002c
abbrev TRU_OTP_LO : Nat := 0x00e00030
abbrev TRU_GEN : Nat := 0x00e00034
abbrev TRU_PAGE_SEL : Nat := 0x00e00040
abbrev TRU_PAGE_CTRL : Nat := 0x00e00044
abbrev TRU_PAGE_STAT : Nat := 0x00e00048
abbrev TRU_PAGE_BASE_HI : Nat := 0x00e0004c
abbrev TRU_PAGE_BASE_LO : Nat := 0x00e00050
abbrev TRU_PAGE_LIMIT_HI : Nat := 0x00e00054
abbrev TRU_PAGE_LIMIT_LO : Nat := 0x00e00058
abbrev TRU_INBUF : Nat := 0x00e02000
abbrev PKT_BASIC : Nat := 0x01000000
abbrev PKT_CTRL : Nat := 0x01000004
abbrev PKT_HASH_SEED : Nat := 0x01000008
abbrev PKT_DEFAULT : Nat := 0x0100000c
abbrev PKT_TBL_SEL : Nat := 0x01000010
abbrev PKT_TBL_DATA : Nat := 0x01000014
abbrev PKT_FLOW_KEY0 : Nat := 0x01000020
abbrev PKT_FLOW_RES_HI : Nat := 0x01000048
abbrev PKT_FLOW_RES_LO : Nat := 0x0100004c
abbrev PKT_FLOW_CMD : Nat := 0x01000050
abbrev PKT_FLOW_STATUS : Nat := 0x01000054
abbrev PKT_FLOW_PKTS_HI : Nat := 0x01000058
abbrev PKT_FLOW_PKTS_LO : Nat := 0x0100005c
abbrev PKT_FLOW_BYTES_HI : Nat := 0x01000060
abbrev PKT_FLOW_BYTES_LO : Nat := 0x01000064
abbrev PKT_FLOW_USED : Nat := 0x01000068
abbrev PKT_PORT_SEL : Nat := 0x01000070
abbrev PKT_PORT_CNT0 : Nat := 0x01000074
abbrev PKT_ST_LATCH : Nat := 0x01000090
abbrev SCH_BASIC : Nat := 0x01800000
abbrev SCH_CTRL : Nat := 0x01800004
abbrev SCH_TBL_SEL : Nat := 0x01800008
abbrev SCH_TBL_DATA : Nat := 0x0180000c
abbrev SCH_GATE_SEL : Nat := 0x01800010
abbrev SCH_GATE_DATA : Nat := 0x01800014
abbrev SCH_GATE_GEN_A : Nat := 0x01800018
abbrev SCH_GATE_GEN_B : Nat := 0x0180001c
abbrev SCH_POL_SEL : Nat := 0x01800020
abbrev SCH_POL_CONF : Nat := 0x01800024
abbrev SCH_POL_EXC : Nat := 0x01800028
abbrev SCH_Q_SEL : Nat := 0x01800030
abbrev SCH_Q_DEPTH : Nat := 0x01800034
abbrev SCH_Q_SOJ : Nat := 0x01800038
abbrev SCH_Q_DROP : Nat := 0x0180003c
abbrev SCH_BUF : Nat := 0x01800040
abbrev SCH_CAL : Nat := 0x01800044
abbrev HSF_BASIC : Nat := 0x01c00000
abbrev HSF_PORT_SEL : Nat := 0x01c00004
abbrev HSF_PORT_CTRL : Nat := 0x01c00008
abbrev HSF_PORT_STATUS : Nat := 0x01c0000c
abbrev HSF_PORT_CNT0 : Nat := 0x01c00010
abbrev HSF_PORT_CNT1 : Nat := 0x01c00014
abbrev HSF_PORT_CNT2 : Nat := 0x01c00018
abbrev HSF_PORT_CLK : Nat := 0x01c0001c
abbrev HSF_LANE_SEL : Nat := 0x01c00020
abbrev HSF_LANE_CTRL : Nat := 0x01c00024
abbrev HSF_LANE_TAPS : Nat := 0x01c00028
abbrev HSF_LANE_STAT : Nat := 0x01c0002c
abbrev HSF_RAIL_SEL : Nat := 0x01c00100
abbrev HSF_RAIL_MIN : Nat := 0x01c00104
abbrev HSF_RAIL_MAX : Nat := 0x01c00108
abbrev HSF_RAIL_STEP : Nat := 0x01c0010c
abbrev HSF_RAIL_CTRL : Nat := 0x01c00110
abbrev HSF_RAIL_STATUS : Nat := 0x01c00114
abbrev HSF_RAIL_OUT : Nat := 0x01c00118
abbrev HSL_BASIC : Nat := 0x01e00000
abbrev HSL_LANE_SEL : Nat := 0x01e00004
abbrev HSL_LANE_CTRL : Nat := 0x01e00008
abbrev HSL_LANE_STATUS : Nat := 0x01e0000c
abbrev HSL_RING_CTRL : Nat := 0x01e00010
abbrev HSL_RING_STATUS : Nat := 0x01e00014
abbrev HSL_RING_CNT : Nat := 0x01e00018
abbrev MEM_BASIC : Nat := 0x02000000
abbrev MEM_SCRUB_CTRL : Nat := 0x02000004
abbrev MEM_SCRUB_STATUS : Nat := 0x02000008
abbrev MEM_SCRUB_CAP : Nat := 0x0200000c
abbrev MEM_DRAM_ERR : Nat := 0x02000010
abbrev MEM_SRAM_ERR : Nat := 0x02000014
abbrev MEM_MERGE : Nat := 0x02000018
abbrev MEM_WATCH : Nat := 0x0200001c
abbrev MEM_LEDGER_SEL : Nat := 0x02000020
abbrev MEM_LEDGER_ENT : Nat := 0x02000024
abbrev MEM_LEDGER_STAT : Nat := 0x02000028
abbrev MEM_REMAP_SEL : Nat := 0x0200002c
abbrev MEM_REMAP_ENT : Nat := 0x02000030
abbrev MEM_REMAP_STAT : Nat := 0x02000034
abbrev MEM_REPAIR_CMD : Nat := 0x02000038
abbrev MEM_REPAIR_STATUS : Nat := 0x0200003c
abbrev MEM_ARB_USE0 : Nat := 0x02000040
abbrev MON_BASIC : Nat := 0x02200000
abbrev MON_CTRL : Nat := 0x02200004
abbrev MON_STATUS : Nat := 0x02200008
abbrev MON_CAL : Nat := 0x0220000c
abbrev MON_TMR_SEL : Nat := 0x02200010
abbrev MON_TMR : Nat := 0x02200014
abbrev MON_SEQ_SEL : Nat := 0x02200018
abbrev MON_SEQ_CTRL : Nat := 0x0220001c
abbrev MON_SEQ_MASK_LO : Nat := 0x02200020
abbrev MON_SEQ_MASK_HI : Nat := 0x02200024
abbrev MON_RESULT : Nat := 0x02200028
abbrev MON_OVR : Nat := 0x0220002c
abbrev MON_CH_SEL : Nat := 0x02200040
abbrev MON_CH_CFG : Nat := 0x02200044
abbrev MON_CH_DEC : Nat := 0x02200048
abbrev MON_FIR_SEL : Nat := 0x0220004c
abbrev MON_FIR_COEF : Nat := 0x02200050
abbrev MON_CH_CTRL : Nat := 0x02200054
abbrev MON_CH_OUT : Nat := 0x02200058
abbrev MON_CH_INFO : Nat := 0x0220005c
abbrev MON_CH_GD : Nat := 0x02200060
abbrev MON_CH_HIGH : Nat := 0x02200064
abbrev MON_CH_LOW : Nat := 0x02200068
abbrev MON_CH_HYST : Nat := 0x0220006c
abbrev MON_OPT_SEL : Nat := 0x02200070
abbrev MON_DITH0 : Nat := 0x02200074
abbrev MON_DITH1 : Nat := 0x02200078
abbrev MON_LOOP_SEL : Nat := 0x0220007c
abbrev MON_LOOP_CTRL : Nat := 0x02200080
abbrev MON_LOOP_SET : Nat := 0x02200084
abbrev MON_DAC_CODE : Nat := 0x02200088
abbrev MON_FCAL_SEL : Nat := 0x02200090
abbrev MON_FCAL_DATA : Nat := 0x02200094
abbrev CTL_ACC_STATUS : Nat := 0x02400000
abbrev CTL_STATE_SEL : Nat := 0x02400004
abbrev CTL_STATE : Nat := 0x02400008
abbrev CTL_RING_MGMT : Nat := 0x0240000c
abbrev CTL_LOCK_CMD : Nat := 0x02400010
abbrev CTL_LOCK_STATUS : Nat := 0x02400014
abbrev CTL_LOCK_LEASE : Nat := 0x02400018
abbrev CTL_LOCK_OWNER : Nat := 0x0240001c
abbrev CTL_LOCK_SCOPE0 : Nat := 0x02400020
abbrev MSIX_TABLE : Nat := 0x02408000
abbrev MSIX_PBA : Nat := 0x02409000
abbrev EVT_SRC_SEL : Nat := 0x02500000
abbrev EVT_SRC_CFG : Nat := 0x02500004
abbrev EVT_CTRL : Nat := 0x02500008
abbrev EVT_PEND0 : Nat := 0x02500010
abbrev EVT_JRN_WR : Nat := 0x02500040
abbrev EVT_JRN_RD : Nat := 0x02500044
abbrev EVT_SPILL_CTRL : Nat := 0x02500048
abbrev EVT_SPILL_CMD : Nat := 0x0250004c
abbrev EVT_SPILL_STAT : Nat := 0x02500050
abbrev PMC_DUMP_CTRL : Nat := 0x02600000
abbrev PMC_DUMP_BASE_HI : Nat := 0x02600004
abbrev PMC_DUMP_BASE_LO : Nat := 0x02600008
abbrev PMC_DUMP_BUF : Nat := 0x0260000c
abbrev PMC_DUMP_PTR : Nat := 0x02600010
abbrev PMC_DUMP_STAT : Nat := 0x02600014
abbrev PMC_DUMP_VEC : Nat := 0x02600018
abbrev PMC_CNT0 : Nat := 0x02608000
abbrev PMC_CFG0 : Nat := 0x02610000
abbrev PMC_OVF0 : Nat := 0x02618000
abbrev PWR_BASIC : Nat := 0x02800000
abbrev PWR_CEILING : Nat := 0x02800004
abbrev PWR_CTRL : Nat := 0x02800008
abbrev PWR_ALLOC : Nat := 0x0280000c
abbrev PWR_STATUS : Nat := 0x02800010
abbrev PWR_GRANT_SEL : Nat := 0x02800014
abbrev PWR_GRANT : Nat := 0x02800018
abbrev PWR_DENY_CNT : Nat := 0x0280001c
abbrev PWR_TEMP_SEL : Nat := 0x02800020
abbrev PWR_TEMP : Nat := 0x02800024
abbrev PWR_THERM : Nat := 0x02800028
abbrev PWR_RESET_CAUSE : Nat := 0x0280002c
abbrev PWR_SW_RESET : Nat := 0x02800030
abbrev PWR_SUPPLY : Nat := 0x02800034
abbrev WST_CTRL : Nat := 0x02900000
abbrev WST_STATUS : Nat := 0x02900004
end Reg

/-- Registers of 01_architecture.md (R25). -/
def regsTop0 : List RegDesc :=
  [⟨Reg.TOP_ID, 1, false,
     []⟩,
   ⟨Reg.TOP_UNIT_FUSED, 1, false,
     []⟩,
   ⟨Reg.TOP_UNIT_INST, 1, false,
     []⟩,
   ⟨Reg.TOP_FABRIC_GEN, 1, false,
     []⟩]

/-- Registers of 02_route_image.md (R58, R59). -/
def regsRte0 : List RegDesc :=
  [⟨Reg.RTE_CTRL, 1, false,
     [⟨7, 7, .rw, .l, 0, []⟩,
      ⟨6, 6, .wo, .l, 0, []⟩,
      ⟨5, 5, .wo, .l, 0, []⟩,
      ⟨4, 4, .wo, .l, 0, []⟩,
      ⟨3, 3, .wo, .l, 0, []⟩,
      ⟨2, 2, .wo, .l, 0, []⟩,
      ⟨1, 0, .rw, .l, 0, []⟩]⟩,
   ⟨Reg.RTE_STATUS, 1, false,
     [⟨2, 2, .w1c, .l, 0, []⟩]⟩,
   ⟨Reg.RTE_LEN, 1, false,
     [⟨24, 0, .rw, .l, 0, [⟨0, 16777216, 1⟩]⟩]⟩,
   ⟨Reg.RTE_SLOT, 1, false,
     [⟨9, 8, .rw, .l, 0, [⟨0, 2, 1⟩]⟩]⟩,
   ⟨Reg.RTE_ACTIVE, 1, false,
     []⟩,
   ⟨Reg.RTE_ACTIVE_GEN, 1, false,
     []⟩,
   ⟨Reg.RTE_AMD_TIME_SEC_HI, 1, false,
     [⟨15, 0, .rw, .l, 0, []⟩]⟩,
   ⟨Reg.RTE_AMD_TIME_SEC_LO, 1, false,
     [⟨31, 0, .rw, .l, 0, []⟩]⟩,
   ⟨Reg.RTE_AMD_TIME_NS, 1, false,
     [⟨31, 0, .rw, .l, 0, [⟨0, 999999999, 1⟩]⟩]⟩,
   ⟨Reg.RTE_EXPERT_LOCK, 1, false,
     []⟩,
   ⟨Reg.RTE_FAIL_DETAIL, 1, false,
     []⟩]

/-- Registers of 03_milestones.md (R84). -/
def regsMst0 : List RegDesc :=
  [⟨Reg.MST_TIME_CTRL, 1, false,
     [⟨2, 2, .wo, .l, 0, []⟩,
      ⟨1, 0, .rw, .l, 0, []⟩]⟩,
   ⟨Reg.MST_TIME_STATUS, 1, false,
     [⟨3, 3, .w1c, .l, 0, []⟩]⟩,
   ⟨Reg.MST_TIME_SEC_HI, 1, false,
     []⟩,
   ⟨Reg.MST_TIME_SEC_LO, 1, false,
     []⟩,
   ⟨Reg.MST_TIME_NS, 1, false,
     []⟩,
   ⟨Reg.MST_SET_SEC_HI, 1, false,
     [⟨15, 0, .rw, .l, 0, []⟩]⟩,
   ⟨Reg.MST_SET_SEC_LO, 1, false,
     [⟨31, 0, .rw, .l, 0, []⟩]⟩,
   ⟨Reg.MST_SET_NS, 1, false,
     [⟨31, 0, .rw, .l, 0, [⟨0, 999999999, 1⟩]⟩]⟩,
   ⟨Reg.MST_HOLDOVER, 1, false,
     [⟨15, 0, .rw, .l, 100, []⟩]⟩,
   ⟨Reg.MST_RING_DELAY, 1, false,
     [⟨19, 0, .rw, .l, 0, []⟩]⟩,
   ⟨Reg.MST_RATE_ADJ, 1, false,
     [⟨31, 0, .rw, .l, 0, []⟩]⟩,
   ⟨Reg.MST_Q_TIME_SEC_HI, 1, false,
     [⟨15, 0, .rw, .l, 0, []⟩]⟩]

/-- Registers of 03_milestones.md (R84). -/
def regsMst1 : List RegDesc :=
  [⟨Reg.MST_Q_TIME_SEC_LO, 1, false,
     [⟨31, 0, .rw, .l, 0, []⟩]⟩,
   ⟨Reg.MST_Q_TIME_NS, 1, false,
     [⟨31, 0, .rw, .l, 0, [⟨0, 999999999, 1⟩]⟩]⟩,
   ⟨Reg.MST_Q_ENTRY, 1, false,
     [⟨10, 10, .rw, .l, 0, []⟩,
      ⟨9, 9, .rw, .l, 0, []⟩,
      ⟨8, 8, .rw, .l, 0, []⟩,
      ⟨6, 6, .rw, .l, 0, []⟩,
      ⟨4, 4, .rw, .l, 0, []⟩,
      ⟨3, 3, .rw, .l, 0, []⟩,
      ⟨0, 0, .rw, .l, 0, []⟩]⟩,
   ⟨Reg.MST_Q_CMD, 1, false,
     [⟨7, 2, .rw, .l, 0, []⟩,
      ⟨1, 1, .wo, .l, 0, []⟩,
      ⟨0, 0, .wo, .l, 0, []⟩]⟩,
   ⟨Reg.MST_Q_STATUS, 1, false,
     []⟩,
   ⟨Reg.MST_Q_MAP_LO, 1, false,
     []⟩,
   ⟨Reg.MST_Q_MAP_HI, 1, false,
     []⟩,
   ⟨Reg.MST_GEN, 12, false,
     []⟩,
   ⟨Reg.MST_GEN_MISMATCH, 1, false,
     []⟩,
   ⟨Reg.MST_SEQ, 1, false,
     []⟩]

/-- Registers of 04_line_converters.md (R107). -/
def regsCnv0 : List RegDesc :=
  [⟨Reg.PA_CNV_BASIC, 1, true,
     [⟨25, 16, .rw, .l, 600, [⟨300, 900, 10⟩]⟩,
      ⟨3, 0, .rw, .l, 0, [⟨0, 1, 1⟩]⟩]⟩,
   ⟨Reg.PA_CNV_CTRL, 1, false,
     [⟨7, 6, .rw, .i, 1, []⟩,
      ⟨2, 2, .rw, .l, 0, []⟩,
      ⟨1, 1, .rw, .l, 0, []⟩,
      ⟨0, 0, .rw, .l, 0, []⟩]⟩,
   ⟨Reg.PA_CNV_STATUS, 1, false,
     [⟨5, 5, .w1c, .l, 0, []⟩,
      ⟨4, 4, .w1c, .l, 0, []⟩]⟩,
   ⟨Reg.PA_CNV_MAP, 1, false,
     [⟨11, 11, .rw, .i, 0, []⟩,
      ⟨10, 10, .rw, .i, 0, []⟩,
      ⟨9, 9, .rw, .i, 0, []⟩,
      ⟨8, 8, .rw, .i, 0, []⟩,
      ⟨7, 4, .rw, .i, 0, []⟩,
      ⟨3, 0, .rw, .i, 0, []⟩]⟩,
   ⟨Reg.PA_CNV_DAC_SEL, 1, false,
     [⟨8, 8, .rw, .l, 0, []⟩,
      ⟨1, 0, .rw, .l, 0, []⟩]⟩,
   ⟨Reg.PA_CNV_DAC_TRIM, 1, false,
     [⟨27, 16, .rw, .l, 0, []⟩,
      ⟨15, 10, .rw, .l, 30, [⟨0, 60, 1⟩]⟩,
      ⟨9, 0, .rw, .l, 0, []⟩]⟩,
   ⟨Reg.PA_CNV_DAC_TAP0, 4, false,
     [⟨25, 16, .rw, .l, 0, []⟩,
      ⟨9, 0, .rw, .l, 0, []⟩]⟩,
   ⟨Reg.PA_CNV_SAT_THR, 1, false,
     [⟨31, 16, .rw, .l, 64, []⟩,
      ⟨15, 0, .rw, .l, 64, []⟩]⟩,
   ⟨Reg.PA_CNV_DAC_SAT, 1, false,
     []⟩,
   ⟨Reg.PA_CNV_ADC_LEVEL0, 4, false,
     []⟩,
   ⟨Reg.PA_CNV_RELIEF, 1, false,
     []⟩,
   ⟨Reg.PA_CNV_SLICE_SEL, 1, false,
     [⟨14, 8, .rw, .l, 0, [⟨0, 64, 1⟩]⟩,
      ⟨1, 0, .rw, .l, 0, []⟩]⟩]

/-- Registers of 04_line_converters.md (R107). -/
def regsCnv1 : List RegDesc :=
  [⟨Reg.PA_CNV_SLICE_COEF, 1, false,
     []⟩,
   ⟨Reg.PA_CNV_LASER_CFG, 1, false,
     [⟨31, 16, .rw, .l, 0, []⟩,
      ⟨8, 8, .rw, .l, 0, []⟩,
      ⟨5, 4, .rw, .i, 0, []⟩,
      ⟨3, 3, .wo, .l, 0, []⟩,
      ⟨2, 2, .rw, .l, 0, []⟩,
      ⟨1, 1, .rw, .l, 1, []⟩,
      ⟨0, 0, .rw, .l, 0, []⟩]⟩,
   ⟨Reg.PA_CNV_LASER_CMD, 1, false,
     [⟨31, 31, .wo, .l, 0, []⟩,
      ⟨24, 24, .rw, .l, 0, []⟩,
      ⟨23, 16, .rw, .l, 0, []⟩,
      ⟨15, 0, .rw, .l, 0, []⟩]⟩,
   ⟨Reg.PA_CNV_LASER_RESP, 1, false,
     []⟩,
   ⟨Reg.PA_CNV_LASER_FT, 1, false,
     [⟨15, 0, .rw, .l, 32768, []⟩]⟩,
   ⟨Reg.PA_CNV_LASER_STAT, 1, false,
     []⟩]

/-- Registers of 05_receive_dsp.md (R135). -/
def regsRxd0 : List RegDesc :=
  [⟨Reg.PA_RXD_BASIC, 1, true,
     [⟨3, 0, .rw, .l, 0, [⟨0, 3, 1⟩]⟩]⟩,
   ⟨Reg.PA_RXD_CTRL, 1, false,
     [⟨3, 3, .wo, .l, 0, []⟩,
      ⟨2, 2, .rw, .l, 0, []⟩,
      ⟨1, 1, .rw, .l, 0, []⟩,
      ⟨0, 0, .rw, .l, 0, []⟩]⟩,
   ⟨Reg.PA_RXD_CD_HINT, 1, false,
     [⟨31, 31, .rw, .l, 0, []⟩,
      ⟨30, 20, .rw, .l, 0, []⟩,
      ⟨19, 0, .rw, .l, 0, []⟩]⟩,
   ⟨Reg.PA_RXD_LAMBDA, 1, false,
     [⟨20, 0, .rw, .i, 1550000, [⟨1520000, 1630000, 1⟩]⟩]⟩,
   ⟨Reg.PA_RXD_AGC, 1, false,
     [⟨31, 16, .rw, .l, 512, []⟩,
      ⟨15, 8, .rw, .l, 32, []⟩]⟩,
   ⟨Reg.PA_RXD_FE_SEL, 1, false,
     [⟨1, 0, .rw, .l, 0, []⟩]⟩,
   ⟨Reg.PA_RXD_FE_COEF, 1, false,
     [⟨27, 16, .rw, .l, 0, []⟩,
      ⟨9, 0, .rw, .l, 0, []⟩]⟩,
   ⟨Reg.PA_RXD_FE_IQ, 1, false,
     [⟨25, 16, .rw, .l, 0, []⟩,
      ⟨9, 0, .rw, .l, 0, []⟩]⟩,
   ⟨Reg.PA_RXD_FDE_CTRL, 1, false,
     [⟨18, 16, .rw, .l, 2, [⟨0, 6, 1⟩]⟩,
      ⟨15, 0, .rw, .l, 256, []⟩]⟩,
   ⟨Reg.PA_RXD_POL_CTRL, 1, false,
     [⟨12, 8, .rw, .l, 8, [⟨1, 16, 1⟩]⟩,
      ⟨3, 0, .rw, .l, 4, []⟩]⟩,
   ⟨Reg.PA_RXD_CPR_CTRL, 1, false,
     [⟨8, 8, .rw, .l, 1, []⟩,
      ⟨6, 0, .rw, .l, 32, []⟩]⟩,
   ⟨Reg.PA_RXD_LO_CTRL, 1, false,
     [⟨3, 0, .rw, .l, 1, [⟨0, 8, 1⟩]⟩]⟩]

/-- Registers of 05_receive_dsp.md (R135). -/
def regsRxd1 : List RegDesc :=
  [⟨Reg.PA_RXD_DEMAP_CTRL, 1, false,
     [⟨1, 0, .rw, .l, 2, []⟩]⟩,
   ⟨Reg.PA_RXD_THR, 1, false,
     [⟨31, 24, .rw, .l, 120, []⟩,
      ⟨23, 16, .rw, .l, 72, []⟩,
      ⟨15, 0, .rw, .l, 64, []⟩]⟩,
   ⟨Reg.PA_RXD_ACQ_TIMEOUT, 1, false,
     [⟨15, 0, .rw, .l, 100, [⟨1, 65535, 1⟩]⟩]⟩,
   ⟨Reg.PA_RXD_STATE, 1, false,
     []⟩,
   ⟨Reg.PA_RXD_ACQ_INFO, 1, false,
     []⟩,
   ⟨Reg.PA_RXD_STAT_LATCH, 1, false,
     []⟩,
   ⟨Reg.PA_RXD_ST_CD, 1, false,
     []⟩,
   ⟨Reg.PA_RXD_ST_FOFS, 1, false,
     []⟩,
   ⟨Reg.PA_RXD_ST_CLK, 1, false,
     []⟩,
   ⟨Reg.PA_RXD_ST_DGD, 1, false,
     []⟩,
   ⟨Reg.PA_RXD_ST_PDL, 1, false,
     []⟩,
   ⟨Reg.PA_RXD_ST_SOP, 1, false,
     []⟩]

/-- Registers of 05_receive_dsp.md (R135). -/
def regsRxd2 : List RegDesc :=
  [⟨Reg.PA_RXD_ST_MISS, 1, false,
     []⟩,
   ⟨Reg.PA_RXD_SNR_SEL, 1, false,
     [⟨4, 4, .rw, .l, 0, []⟩,
      ⟨3, 0, .rw, .l, 0, []⟩]⟩,
   ⟨Reg.PA_RXD_SNR, 1, false,
     []⟩]

/-- Registers of 06_transmit_dsp.md (R156). -/
def regsTxd0 : List RegDesc :=
  [⟨Reg.PA_TXD_BASIC, 1, true,
     [⟨3, 0, .rw, .l, 0, [⟨0, 3, 1⟩]⟩]⟩,
   ⟨Reg.PA_TXD_CTRL, 1, false,
     [⟨0, 0, .rw, .l, 0, []⟩]⟩,
   ⟨Reg.PA_TXD_COEF_GEN, 1, false,
     [⟨15, 0, .rw, .l, 0, []⟩]⟩,
   ⟨Reg.PA_TXD_SHAPE, 1, false,
     [⟨27, 16, .rw, .l, 512, [⟨64, 2047, 1⟩]⟩,
      ⟨5, 0, .rw, .l, 16, [⟨1, 32, 1⟩]⟩]⟩,
   ⟨Reg.PA_TXD_TRK_PWR0, 4, false,
     [⟨31, 24, .rw, .l, 0, []⟩,
      ⟨23, 16, .rw, .l, 0, []⟩,
      ⟨15, 8, .rw, .l, 0, []⟩,
      ⟨7, 0, .rw, .l, 0, []⟩]⟩,
   ⟨Reg.PA_TXD_MASK_SEL, 1, false,
     [⟨8, 8, .rw, .l, 0, []⟩,
      ⟨7, 0, .rw, .l, 0, []⟩]⟩,
   ⟨Reg.PA_TXD_MASK, 1, false,
     [⟨11, 0, .rw, .l, 1024, []⟩]⟩,
   ⟨Reg.PA_TXD_PCF_SEL, 1, false,
     [⟨8, 8, .rw, .l, 0, []⟩,
      ⟨6, 5, .rw, .l, 0, []⟩,
      ⟨4, 0, .rw, .l, 0, []⟩]⟩,
   ⟨Reg.PA_TXD_PCF, 1, false,
     [⟨11, 0, .rw, .l, 1024, []⟩]⟩,
   ⟨Reg.PA_TXD_STATUS, 1, false,
     [⟨1, 1, .w1c, .l, 0, []⟩]⟩,
   ⟨Reg.PA_TXD_FRAME_INFO, 1, false,
     []⟩,
   ⟨Reg.PA_TXD_TRK_SEL, 1, false,
     [⟨3, 0, .rw, .l, 0, []⟩]⟩]

/-- Registers of 06_transmit_dsp.md (R156). -/
def regsTxd1 : List RegDesc :=
  [⟨Reg.PA_TXD_TRK_INFO, 1, false,
     []⟩,
   ⟨Reg.PA_TXD_TRK_FILL, 1, false,
     []⟩,
   ⟨Reg.PA_TXD_COMP_SEL, 1, false,
     [⟨7, 0, .rw, .l, 64, [⟨64, 179, 1⟩]⟩]⟩,
   ⟨Reg.PA_TXD_COMP, 1, false,
     []⟩]

/-- Registers of 07_tracks_and_margin.md (R175). -/
def regsTrk0 : List RegDesc :=
  [⟨Reg.PA_TRK_BASIC, 1, true,
     [⟨3, 0, .rw, .l, 0, [⟨0, 2, 1⟩]⟩]⟩,
   ⟨Reg.PA_TRK_LEV_CTRL, 1, false,
     [⟨31, 16, .rw, .l, 1024, [⟨64, 65535, 1⟩]⟩,
      ⟨15, 8, .rw, .l, 64, []⟩,
      ⟨7, 4, .rw, .l, 6, [⟨1, 15, 1⟩]⟩,
      ⟨1, 1, .rw, .l, 0, []⟩,
      ⟨0, 0, .rw, .l, 0, []⟩]⟩,
   ⟨Reg.PA_TRK_LEV_STATUS, 1, false,
     []⟩,
   ⟨Reg.PA_TRK_LEV_CNT, 1, false,
     []⟩,
   ⟨Reg.PA_TRK_PROF_SEL, 1, false,
     [⟨5, 5, .rw, .l, 0, []⟩,
      ⟨4, 4, .rw, .l, 0, []⟩,
      ⟨3, 0, .rw, .l, 0, []⟩]⟩,
   ⟨Reg.PA_TRK_PROF, 1, false,
     [⟨7, 0, .rw, .l, 0, []⟩]⟩,
   ⟨Reg.PA_TRK_RAIL_SEL, 1, false,
     [⟨15, 0, .rw, .l, 4352, []⟩]⟩,
   ⟨Reg.PA_TRK_RAIL_MIN, 1, false,
     [⟨31, 0, .rw, .l, 0, []⟩]⟩,
   ⟨Reg.PA_TRK_RAIL_MAX, 1, false,
     [⟨31, 0, .rw, .l, 0, []⟩]⟩,
   ⟨Reg.PA_TRK_RAIL_STEP, 1, false,
     [⟨31, 0, .rw, .l, 0, []⟩]⟩,
   ⟨Reg.PA_TRK_RAIL_CTRL, 1, false,
     [⟨31, 31, .wo, .l, 0, []⟩,
      ⟨16, 16, .rw, .l, 0, []⟩,
      ⟨15, 0, .rw, .l, 0, []⟩]⟩,
   ⟨Reg.PA_TRK_RAIL_STATUS, 1, false,
     [⟨5, 5, .w1c, .l, 0, []⟩]⟩]

/-- Registers of 07_tracks_and_margin.md (R175). -/
def regsTrk1 : List RegDesc :=
  [⟨Reg.PA_TRK_RAIL_OUT, 1, false,
     []⟩]

/-- Registers of 08_fec.md (R193). -/
def regsFec0 : List RegDesc :=
  [⟨Reg.PA_FEC_BASIC, 1, true,
     [⟨3, 0, .rw, .l, 0, [⟨0, 2, 1⟩]⟩]⟩,
   ⟨Reg.PA_FEC_CTRL, 1, false,
     [⟨11, 8, .rw, .l, 12, [⟨8, 15, 1⟩]⟩,
      ⟨0, 0, .rw, .l, 0, []⟩]⟩,
   ⟨Reg.PA_FEC_LOOP, 1, false,
     [⟨31, 16, .rw, .l, 16, []⟩,
      ⟨7, 0, .rw, .l, 16, [⟨1, 255, 1⟩]⟩]⟩,
   ⟨Reg.PA_FEC_STATUS, 1, false,
     []⟩,
   ⟨Reg.PA_FEC_GRANT, 1, false,
     []⟩,
   ⟨Reg.PA_FEC_INJ, 1, false,
     [⟨31, 31, .rw, .m, 0, []⟩,
      ⟨19, 0, .rw, .m, 1024, [⟨2, 1048575, 1⟩]⟩]⟩,
   ⟨Reg.PA_FEC_BER_THR, 1, false,
     [⟨19, 0, .rw, .l, 0, []⟩]⟩,
   ⟨Reg.PA_FEC_STAT_LATCH, 1, false,
     []⟩,
   ⟨Reg.PA_FEC_ST_FRAMES, 1, false,
     []⟩,
   ⟨Reg.PA_FEC_ST_ERR_FRAMES, 1, false,
     []⟩,
   ⟨Reg.PA_FEC_ST_WORDS, 1, false,
     []⟩,
   ⟨Reg.PA_FEC_ST_UNCORR, 1, false,
     []⟩]

/-- Registers of 08_fec.md (R193). -/
def regsFec1 : List RegDesc :=
  [⟨Reg.PA_FEC_ST_CORR_HI, 1, false,
     []⟩,
   ⟨Reg.PA_FEC_ST_CORR_LO, 1, false,
     []⟩,
   ⟨Reg.PA_FEC_ST_ITER, 1, false,
     []⟩]

/-- Registers of 09_line_frame.md (R219). -/
def regsLfr0 : List RegDesc :=
  [⟨Reg.PA_LFR_BASIC, 1, true,
     [⟨3, 0, .rw, .l, 0, [⟨0, 2, 1⟩]⟩]⟩,
   ⟨Reg.PA_LFR_CTRL, 1, false,
     [⟨11, 9, .rw, .l, 0, [⟨0, 4, 1⟩]⟩,
      ⟨8, 8, .rw, .l, 0, []⟩,
      ⟨2, 2, .rw, .l, 1, []⟩,
      ⟨1, 1, .rw, .m, 0, []⟩,
      ⟨0, 0, .rw, .m, 0, []⟩]⟩,
   ⟨Reg.PA_LFR_STATUS, 1, false,
     []⟩,
   ⟨Reg.PA_LFR_DEF_STICKY, 1, false,
     [⟨7, 0, .w1c, .l, 0, []⟩]⟩,
   ⟨Reg.PA_LFR_DEG_CTRL, 1, false,
     [⟨27, 24, .rw, .l, 7, [⟨2, 10, 1⟩]⟩,
      ⟨19, 0, .rw, .l, 9766, []⟩]⟩,
   ⟨Reg.PA_LFR_DEG_BER, 1, false,
     [⟨19, 0, .rw, .l, 0, []⟩]⟩,
   ⟨Reg.PA_LFR_TX_FC_HI, 1, false,
     []⟩,
   ⟨Reg.PA_LFR_TX_FC_LO, 1, false,
     []⟩,
   ⟨Reg.PA_LFR_RX_FC_HI, 1, false,
     []⟩,
   ⟨Reg.PA_LFR_RX_FC_LO, 1, false,
     []⟩,
   ⟨Reg.PA_LFR_TRACE_SEL, 1, false,
     [⟨4, 4, .rw, .l, 0, []⟩,
      ⟨3, 0, .rw, .l, 0, []⟩]⟩,
   ⟨Reg.PA_LFR_TRACE_TX, 1, false,
     [⟨31, 0, .rw, .m, 0, []⟩]⟩]

/-- Registers of 09_line_frame.md (R219). -/
def regsLfr1 : List RegDesc :=
  [⟨Reg.PA_LFR_TRACE_RX, 1, false,
     [⟨31, 0, .rw, .l, 0, []⟩]⟩,
   ⟨Reg.PA_LFR_VIOL, 1, false,
     []⟩,
   ⟨Reg.PA_LFR_PM_SEL, 1, false,
     [⟨0, 0, .rw, .l, 0, []⟩]⟩,
   ⟨Reg.PA_LFR_PM_ES, 1, false,
     []⟩,
   ⟨Reg.PA_LFR_PM_SES, 1, false,
     []⟩,
   ⟨Reg.PA_LFR_PM_UAS, 1, false,
     []⟩,
   ⟨Reg.PA_LFR_PM_STATE, 1, false,
     []⟩,
   ⟨Reg.PA_LFR_PM_LAST, 1, false,
     []⟩,
   ⟨Reg.PA_LFR_GCC_CTRL, 1, false,
     [⟨7, 0, .rw, .l, 0, []⟩]⟩,
   ⟨Reg.PA_LFR_GCC_SEL, 1, false,
     [⟨2, 0, .rw, .l, 0, []⟩]⟩,
   ⟨Reg.PA_LFR_GCC_TX, 1, false,
     [⟨15, 0, .rw, .l, 0, [⟨0, 65532, 4⟩]⟩]⟩,
   ⟨Reg.PA_LFR_GCC_RX, 1, false,
     [⟨15, 0, .rw, .l, 0, [⟨0, 65532, 4⟩]⟩]⟩]

/-- Registers of 09_line_frame.md (R219). -/
def regsLfr2 : List RegDesc :=
  [⟨Reg.PA_LFR_GCC_STAT, 1, false,
     []⟩]

/-- Registers of 10_containers.md (R251). -/
def regsCnt0 : List RegDesc :=
  [⟨Reg.CNT_BASIC, 1, true,
     [⟨3, 0, .rw, .l, 0, [⟨0, 2, 1⟩]⟩]⟩,
   ⟨Reg.CNT_CTRL, 1, false,
     [⟨15, 8, .rw, .l, 64, [⟨1, 255, 1⟩]⟩]⟩,
   ⟨Reg.CNT_SLOT_GEN_A, 1, false,
     [⟨15, 0, .rw, .l, 0, []⟩]⟩,
   ⟨Reg.CNT_SLOT_GEN_B, 1, false,
     [⟨15, 0, .rw, .l, 0, []⟩]⟩,
   ⟨Reg.CNT_SLOT_SEL, 1, false,
     [⟨10, 10, .rw, .l, 0, []⟩,
      ⟨9, 9, .rw, .l, 0, []⟩,
      ⟨8, 0, .rw, .l, 0, [⟨0, 399, 1⟩]⟩]⟩,
   ⟨Reg.CNT_SLOT_ENTRY, 1, false,
     [⟨15, 0, .rw, .l, 0, []⟩]⟩,
   ⟨Reg.CNT_C_SEL, 1, false,
     [⟨8, 8, .rw, .l, 0, []⟩,
      ⟨7, 0, .rw, .l, 0, []⟩]⟩,
   ⟨Reg.CNT_C_CTRL, 1, false,
     [⟨7, 7, .rw, .l, 0, []⟩,
      ⟨6, 6, .rw, .l, 0, []⟩,
      ⟨5, 5, .rw, .l, 1, []⟩,
      ⟨2, 0, .rw, .l, 0, [⟨0, 4, 1⟩]⟩]⟩,
   ⟨Reg.CNT_C_SIZE, 1, false,
     []⟩,
   ⟨Reg.CNT_C_STATUS, 1, false,
     []⟩,
   ⟨Reg.CNT_C_CNT0, 1, false,
     []⟩,
   ⟨Reg.CNT_C_CNT1, 1, false,
     []⟩]

/-- Registers of 10_containers.md (R251). -/
def regsCnt1 : List RegDesc :=
  [⟨Reg.CNT_C_TRACE_SEL, 1, false,
     [⟨4, 4, .rw, .l, 0, []⟩,
      ⟨3, 0, .rw, .l, 0, []⟩]⟩,
   ⟨Reg.CNT_C_TRACE_TX, 1, false,
     [⟨31, 0, .rw, .m, 0, []⟩]⟩,
   ⟨Reg.CNT_C_TRACE_RX, 1, false,
     [⟨31, 0, .rw, .l, 0, []⟩]⟩,
   ⟨Reg.CNT_SLIP_SEL, 1, false,
     [⟨3, 0, .rw, .l, 0, []⟩]⟩,
   ⟨Reg.CNT_SLIP, 1, false,
     []⟩,
   ⟨Reg.CNT_SLIP_BAD, 1, false,
     []⟩]

/-- Registers of 11_line_encryption.md (R281). -/
def regsCry0 : List RegDesc :=
  [⟨Reg.CRY_BASIC, 1, true,
     [⟨3, 0, .rw, .l, 0, [⟨0, 3, 1⟩]⟩]⟩,
   ⟨Reg.CRY_PATH_SEL, 1, false,
     [⟨0, 0, .rw, .l, 0, []⟩]⟩,
   ⟨Reg.CRY_POLICY, 1, false,
     [⟨31, 16, .rw, .l, 500, [⟨1, 65535, 1⟩]⟩,
      ⟨15, 12, .rw, .l, 1, [⟨1, 15, 1⟩]⟩,
      ⟨8, 8, .rw, .l, 0, []⟩,
      ⟨5, 0, .rw, .l, 32, [⟨24, 32, 1⟩]⟩]⟩,
   ⟨Reg.CRY_CMD, 1, false,
     [⟨31, 31, .wo, .l, 0, []⟩,
      ⟨30, 30, .wo, .l, 0, []⟩,
      ⟨29, 29, .wo, .l, 0, []⟩,
      ⟨9, 9, .rw, .l, 0, []⟩,
      ⟨7, 0, .rw, .l, 0, []⟩]⟩,
   ⟨Reg.CRY_PEER_PIN0, 4, false,
     [⟨31, 0, .rw, .l, 0, []⟩]⟩,
   ⟨Reg.CRY_PEER_SEEN0, 4, false,
     []⟩,
   ⟨Reg.CRY_VAR_STATUS, 1, false,
     []⟩,
   ⟨Reg.CRY_EPOCH, 1, false,
     []⟩,
   ⟨Reg.CRY_KEY_AGE, 1, false,
     []⟩,
   ⟨Reg.CRY_AGREE_CNT, 1, false,
     []⟩,
   ⟨Reg.CRY_C_SEL, 1, false,
     [⟨8, 8, .rw, .l, 0, []⟩,
      ⟨7, 0, .rw, .l, 0, []⟩]⟩,
   ⟨Reg.CRY_C_CTRL, 1, false,
     [⟨0, 0, .rw, .l, 1, []⟩]⟩]

/-- Registers of 11_line_encryption.md (R281). -/
def regsCry1 : List RegDesc :=
  [⟨Reg.CRY_C_STATUS, 1, false,
     []⟩,
   ⟨Reg.CRY_C_AUTH, 1, false,
     []⟩,
   ⟨Reg.CRY_C_UNCHK, 1, false,
     []⟩]

/-- Registers of 12_trust_and_otp.md (R313). -/
def regsTru0 : List RegDesc :=
  [⟨Reg.TRU_STATUS, 1, false,
     []⟩,
   ⟨Reg.TRU_CMD, 1, false,
     [⟨31, 31, .wo, .l, 0, []⟩,
      ⟨7, 0, .rw, .l, 0, []⟩]⟩,
   ⟨Reg.TRU_RESULT, 1, false,
     []⟩,
   ⟨Reg.TRU_IN_LEN, 1, false,
     [⟨13, 0, .rw, .l, 0, [⟨0, 8192, 1⟩]⟩]⟩,
   ⟨Reg.TRU_ID0, 4, false,
     []⟩,
   ⟨Reg.TRU_BP0, 1, false,
     [⟨25, 24, .rw, .l, 0, []⟩,
      ⟨15, 8, .rw, .l, 0, [⟨0, 133, 1⟩]⟩,
      ⟨1, 0, .rw, .l, 0, []⟩]⟩,
   ⟨Reg.TRU_BP1, 1, false,
     [⟨16, 16, .rw, .l, 1, []⟩,
      ⟨15, 0, .rw, .l, 0, []⟩]⟩,
   ⟨Reg.TRU_OTP_SEL, 1, false,
     [⟨8, 0, .rw, .l, 0, []⟩]⟩,
   ⟨Reg.TRU_OTP_HI, 1, false,
     []⟩,
   ⟨Reg.TRU_OTP_LO, 1, false,
     []⟩,
   ⟨Reg.TRU_GEN, 1, false,
     []⟩,
   ⟨Reg.TRU_PAGE_SEL, 1, false,
     [⟨4, 0, .rw, .l, 0, []⟩]⟩]

/-- Registers of 12_trust_and_otp.md (R312, R313). -/
def regsTru1 : List RegDesc :=
  [⟨Reg.TRU_PAGE_CTRL, 1, false,
     [⟨31, 31, .wo, .l, 0, []⟩,
      ⟨13, 8, .rw, .l, 0, []⟩,
      ⟨0, 0, .rw, .l, 0, []⟩]⟩,
   ⟨Reg.TRU_PAGE_STAT, 1, false,
     []⟩,
   ⟨Reg.TRU_PAGE_BASE_HI, 1, false,
     [⟨31, 0, .rw, .i, 0, []⟩]⟩,
   ⟨Reg.TRU_PAGE_BASE_LO, 1, false,
     [⟨31, 12, .rw, .i, 0, []⟩]⟩,
   ⟨Reg.TRU_PAGE_LIMIT_HI, 1, false,
     [⟨31, 0, .rw, .i, 0, []⟩]⟩,
   ⟨Reg.TRU_PAGE_LIMIT_LO, 1, false,
     [⟨31, 12, .rw, .i, 0, []⟩]⟩,
   ⟨Reg.TRU_INBUF, 2048, false,
     [⟨31, 0, .rw, .l, 0, []⟩]⟩]

/-- Registers of 13_packet_path.md (R346). -/
def regsPkt0 : List RegDesc :=
  [⟨Reg.PKT_BASIC, 1, true,
     [⟨3, 0, .rw, .l, 0, [⟨0, 3, 1⟩]⟩]⟩,
   ⟨Reg.PKT_CTRL, 1, false,
     [⟨15, 8, .rw, .l, 64, [⟨16, 255, 1⟩]⟩,
      ⟨2, 2, .rw, .l, 0, []⟩,
      ⟨1, 1, .rw, .l, 0, []⟩]⟩,
   ⟨Reg.PKT_HASH_SEED, 1, false,
     [⟨31, 0, .rw, .i, 4294967295, []⟩]⟩,
   ⟨Reg.PKT_DEFAULT, 1, false,
     [⟨29, 16, .rw, .l, 0, []⟩,
      ⟨13, 0, .rw, .l, 0, []⟩]⟩,
   ⟨Reg.PKT_TBL_SEL, 1, false,
     [⟨31, 31, .rw, .l, 0, []⟩,
      ⟨26, 24, .rw, .l, 0, [⟨0, 2, 1⟩, ⟨4, 4, 1⟩]⟩,
      ⟨21, 8, .rw, .l, 0, []⟩,
      ⟨4, 0, .rw, .l, 0, []⟩]⟩,
   ⟨Reg.PKT_TBL_DATA, 1, false,
     [⟨31, 0, .rw, .m, 0, []⟩]⟩,
   ⟨Reg.PKT_FLOW_KEY0, 10, false,
     [⟨31, 0, .rw, .l, 0, []⟩]⟩,
   ⟨Reg.PKT_FLOW_RES_HI, 1, false,
     [⟨31, 0, .rw, .l, 0, []⟩]⟩,
   ⟨Reg.PKT_FLOW_RES_LO, 1, false,
     [⟨31, 0, .rw, .l, 0, []⟩]⟩,
   ⟨Reg.PKT_FLOW_CMD, 1, false,
     [⟨31, 31, .wo, .l, 0, []⟩,
      ⟨2, 0, .rw, .l, 0, [⟨1, 5, 1⟩]⟩]⟩,
   ⟨Reg.PKT_FLOW_STATUS, 1, false,
     []⟩,
   ⟨Reg.PKT_FLOW_PKTS_HI, 1, false,
     []⟩]

/-- Registers of 13_packet_path.md (R346). -/
def regsPkt1 : List RegDesc :=
  [⟨Reg.PKT_FLOW_PKTS_LO, 1, false,
     []⟩,
   ⟨Reg.PKT_FLOW_BYTES_HI, 1, false,
     []⟩,
   ⟨Reg.PKT_FLOW_BYTES_LO, 1, false,
     []⟩,
   ⟨Reg.PKT_FLOW_USED, 1, false,
     []⟩,
   ⟨Reg.PKT_PORT_SEL, 1, false,
     [⟨4, 0, .rw, .l, 0, []⟩]⟩,
   ⟨Reg.PKT_PORT_CNT0, 4, false,
     []⟩,
   ⟨Reg.PKT_ST_LATCH, 7, false,
     []⟩]

/-- Registers of 14_scheduling.md (R366). -/
def regsSch0 : List RegDesc :=
  [⟨Reg.SCH_BASIC, 1, true,
     [⟨3, 0, .rw, .l, 0, [⟨0, 2, 1⟩]⟩]⟩,
   ⟨Reg.SCH_CTRL, 1, false,
     [⟨31, 16, .rw, .l, 1000, []⟩,
      ⟨2, 0, .rw, .i, 1, [⟨0, 5, 1⟩]⟩]⟩,
   ⟨Reg.SCH_TBL_SEL, 1, false,
     [⟨31, 31, .rw, .l, 0, []⟩,
      ⟨24, 24, .rw, .l, 0, []⟩,
      ⟨23, 8, .rw, .l, 0, []⟩,
      ⟨1, 0, .rw, .l, 0, []⟩]⟩,
   ⟨Reg.SCH_TBL_DATA, 1, false,
     [⟨31, 0, .rw, .m, 0, []⟩]⟩,
   ⟨Reg.SCH_GATE_SEL, 1, false,
     [⟨16, 16, .rw, .l, 0, []⟩,
      ⟨14, 14, .rw, .l, 0, []⟩,
      ⟨13, 6, .rw, .l, 0, []⟩,
      ⟨5, 0, .rw, .l, 0, []⟩]⟩,
   ⟨Reg.SCH_GATE_DATA, 1, false,
     [⟨31, 0, .rw, .l, 0, []⟩]⟩,
   ⟨Reg.SCH_GATE_GEN_A, 1, false,
     [⟨15, 0, .rw, .l, 0, []⟩]⟩,
   ⟨Reg.SCH_GATE_GEN_B, 1, false,
     [⟨15, 0, .rw, .l, 0, []⟩]⟩,
   ⟨Reg.SCH_POL_SEL, 1, false,
     [⟨15, 0, .rw, .l, 0, []⟩]⟩,
   ⟨Reg.SCH_POL_CONF, 1, false,
     []⟩,
   ⟨Reg.SCH_POL_EXC, 1, false,
     []⟩,
   ⟨Reg.SCH_Q_SEL, 1, false,
     [⟨12, 0, .rw, .l, 0, []⟩]⟩]

/-- Registers of 14_scheduling.md (R366). -/
def regsSch1 : List RegDesc :=
  [⟨Reg.SCH_Q_DEPTH, 1, false,
     []⟩,
   ⟨Reg.SCH_Q_SOJ, 1, false,
     []⟩,
   ⟨Reg.SCH_Q_DROP, 1, false,
     []⟩,
   ⟨Reg.SCH_BUF, 1, false,
     []⟩,
   ⟨Reg.SCH_CAL, 1, false,
     []⟩]

/-- Registers of 15_host_lanes.md (R396). -/
def regsHsl0 : List RegDesc :=
  [⟨Reg.HSF_BASIC, 1, true,
     [⟨3, 0, .rw, .l, 0, [⟨0, 2, 1⟩]⟩]⟩,
   ⟨Reg.HSF_PORT_SEL, 1, false,
     [⟨4, 0, .rw, .l, 0, []⟩]⟩,
   ⟨Reg.HSF_PORT_CTRL, 1, false,
     [⟨31, 31, .wo, .l, 0, []⟩,
      ⟨9, 8, .rw, .i, 1, [⟨0, 1, 1⟩]⟩,
      ⟨6, 4, .rw, .i, 1, [⟨1, 4, 1⟩]⟩,
      ⟨0, 0, .rw, .l, 1, []⟩]⟩,
   ⟨Reg.HSF_PORT_STATUS, 1, false,
     []⟩,
   ⟨Reg.HSF_PORT_CNT0, 1, false,
     []⟩,
   ⟨Reg.HSF_PORT_CNT1, 1, false,
     []⟩,
   ⟨Reg.HSF_PORT_CNT2, 1, false,
     []⟩,
   ⟨Reg.HSF_PORT_CLK, 1, false,
     []⟩,
   ⟨Reg.HSF_LANE_SEL, 1, false,
     [⟨4, 0, .rw, .l, 0, []⟩]⟩,
   ⟨Reg.HSF_LANE_CTRL, 1, false,
     [⟨1, 1, .rw, .i, 0, []⟩,
      ⟨0, 0, .rw, .i, 0, []⟩]⟩,
   ⟨Reg.HSF_LANE_TAPS, 1, false,
     []⟩,
   ⟨Reg.HSF_LANE_STAT, 1, false,
     []⟩]

/-- Registers of 15_host_lanes.md (R396). -/
def regsHsl1 : List RegDesc :=
  [⟨Reg.HSF_RAIL_SEL, 1, false,
     [⟨15, 0, .rw, .l, 1792, []⟩]⟩,
   ⟨Reg.HSF_RAIL_MIN, 1, false,
     [⟨31, 0, .rw, .l, 0, []⟩]⟩,
   ⟨Reg.HSF_RAIL_MAX, 1, false,
     [⟨31, 0, .rw, .l, 0, []⟩]⟩,
   ⟨Reg.HSF_RAIL_STEP, 1, false,
     [⟨31, 0, .rw, .l, 0, []⟩]⟩,
   ⟨Reg.HSF_RAIL_CTRL, 1, false,
     [⟨31, 31, .wo, .l, 0, []⟩,
      ⟨16, 16, .rw, .l, 0, []⟩,
      ⟨15, 0, .rw, .l, 0, []⟩]⟩,
   ⟨Reg.HSF_RAIL_STATUS, 1, false,
     [⟨5, 5, .w1c, .l, 0, []⟩]⟩,
   ⟨Reg.HSF_RAIL_OUT, 1, false,
     []⟩,
   ⟨Reg.HSL_BASIC, 1, true,
     [⟨3, 0, .rw, .l, 0, [⟨0, 1, 1⟩]⟩]⟩,
   ⟨Reg.HSL_LANE_SEL, 1, false,
     [⟨3, 0, .rw, .l, 0, []⟩]⟩,
   ⟨Reg.HSL_LANE_CTRL, 1, false,
     [⟨31, 31, .wo, .l, 0, []⟩,
      ⟨15, 8, .rw, .l, 16, [⟨1, 255, 1⟩]⟩,
      ⟨2, 2, .rw, .i, 0, []⟩,
      ⟨1, 1, .rw, .i, 0, []⟩,
      ⟨0, 0, .rw, .l, 1, []⟩]⟩,
   ⟨Reg.HSL_LANE_STATUS, 1, false,
     []⟩,
   ⟨Reg.HSL_RING_CTRL, 1, false,
     [⟨15, 8, .rw, .i, 1, [⟨1, 254, 1⟩]⟩,
      ⟨2, 2, .rw, .l, 0, []⟩,
      ⟨1, 1, .rw, .l, 0, []⟩,
      ⟨0, 0, .rw, .l, 1, []⟩]⟩]

/-- Registers of 15_host_lanes.md (R396). -/
def regsHsl2 : List RegDesc :=
  [⟨Reg.HSL_RING_STATUS, 1, false,
     []⟩,
   ⟨Reg.HSL_RING_CNT, 1, false,
     []⟩]

/-- Registers of 16_memory.md (R419). -/
def regsMem0 : List RegDesc :=
  [⟨Reg.MEM_BASIC, 1, true,
     [⟨3, 0, .rw, .l, 0, [⟨0, 3, 1⟩]⟩]⟩,
   ⟨Reg.MEM_SCRUB_CTRL, 1, false,
     [⟨31, 31, .rw, .l, 1, []⟩,
      ⟨16, 0, .rw, .l, 60, [⟨1, 86400, 1⟩]⟩]⟩,
   ⟨Reg.MEM_SCRUB_STATUS, 1, false,
     []⟩,
   ⟨Reg.MEM_SCRUB_CAP, 1, false,
     []⟩,
   ⟨Reg.MEM_DRAM_ERR, 1, false,
     []⟩,
   ⟨Reg.MEM_SRAM_ERR, 1, false,
     []⟩,
   ⟨Reg.MEM_MERGE, 1, false,
     []⟩,
   ⟨Reg.MEM_WATCH, 1, false,
     []⟩,
   ⟨Reg.MEM_LEDGER_SEL, 1, false,
     [⟨31, 31, .wo, .l, 0, []⟩,
      ⟨5, 0, .rw, .l, 0, []⟩]⟩,
   ⟨Reg.MEM_LEDGER_ENT, 1, false,
     []⟩,
   ⟨Reg.MEM_LEDGER_STAT, 1, false,
     []⟩,
   ⟨Reg.MEM_REMAP_SEL, 1, false,
     [⟨4, 0, .rw, .l, 0, []⟩]⟩]

/-- Registers of 16_memory.md (R419). -/
def regsMem1 : List RegDesc :=
  [⟨Reg.MEM_REMAP_ENT, 1, false,
     []⟩,
   ⟨Reg.MEM_REMAP_STAT, 1, false,
     []⟩,
   ⟨Reg.MEM_REPAIR_CMD, 1, false,
     [⟨31, 31, .wo, .l, 0, []⟩]⟩,
   ⟨Reg.MEM_REPAIR_STATUS, 1, false,
     []⟩,
   ⟨Reg.MEM_ARB_USE0, 4, false,
     []⟩]

/-- Registers of 17_monitor.md (R445). -/
def regsMon0 : List RegDesc :=
  [⟨Reg.MON_BASIC, 1, true,
     [⟨3, 0, .rw, .l, 0, [⟨0, 2, 1⟩]⟩]⟩,
   ⟨Reg.MON_CTRL, 1, false,
     [⟨2, 2, .wo, .l, 0, []⟩,
      ⟨1, 1, .wo, .l, 0, []⟩,
      ⟨0, 0, .wo, .l, 0, []⟩]⟩,
   ⟨Reg.MON_STATUS, 1, false,
     [⟨7, 7, .w1c, .l, 0, []⟩,
      ⟨5, 5, .w1c, .l, 0, []⟩]⟩,
   ⟨Reg.MON_CAL, 1, false,
     [⟨31, 16, .rw, .l, 0, []⟩,
      ⟨15, 0, .rw, .l, 0, []⟩]⟩,
   ⟨Reg.MON_TMR_SEL, 1, false,
     [⟨1, 0, .rw, .l, 0, []⟩]⟩,
   ⟨Reg.MON_TMR, 1, false,
     [⟨31, 31, .rw, .l, 0, []⟩,
      ⟨19, 0, .rw, .l, 1000, [⟨1, 1048575, 1⟩]⟩]⟩,
   ⟨Reg.MON_SEQ_SEL, 1, false,
     [⟨2, 0, .rw, .l, 0, []⟩]⟩,
   ⟨Reg.MON_SEQ_CTRL, 1, false,
     [⟨31, 31, .wo, .l, 0, []⟩,
      ⟨30, 30, .rw, .l, 0, []⟩,
      ⟨29, 29, .rw, .l, 0, []⟩,
      ⟨28, 28, .rw, .l, 1, []⟩,
      ⟨18, 16, .rw, .l, 0, [⟨0, 6, 1⟩]⟩,
      ⟨15, 0, .rw, .l, 0, []⟩]⟩,
   ⟨Reg.MON_SEQ_MASK_LO, 1, false,
     [⟨31, 0, .rw, .l, 0, []⟩]⟩,
   ⟨Reg.MON_SEQ_MASK_HI, 1, false,
     [⟨7, 0, .rw, .l, 0, []⟩]⟩,
   ⟨Reg.MON_RESULT, 1, false,
     [⟨30, 30, .w1c, .l, 0, []⟩]⟩,
   ⟨Reg.MON_OVR, 1, false,
     []⟩]

/-- Registers of 17_monitor.md (R445). -/
def regsMon1 : List RegDesc :=
  [⟨Reg.MON_CH_SEL, 1, false,
     [⟨2, 0, .rw, .l, 0, []⟩]⟩,
   ⟨Reg.MON_CH_CFG, 1, false,
     [⟨16, 16, .rw, .l, 0, []⟩,
      ⟨15, 13, .rw, .l, 0, []⟩,
      ⟨12, 7, .rw, .l, 0, [⟨0, 39, 1⟩]⟩,
      ⟨6, 0, .rw, .l, 1, []⟩]⟩,
   ⟨Reg.MON_CH_DEC, 1, false,
     [⟨12, 0, .rw, .l, 2, []⟩]⟩,
   ⟨Reg.MON_FIR_SEL, 1, false,
     [⟨6, 6, .rw, .l, 0, []⟩,
      ⟨5, 0, .rw, .l, 0, []⟩]⟩,
   ⟨Reg.MON_FIR_COEF, 1, false,
     [⟨17, 0, .rw, .l, 131072, []⟩]⟩,
   ⟨Reg.MON_CH_CTRL, 1, false,
     [⟨31, 31, .wo, .l, 0, []⟩,
      ⟨0, 0, .rw, .l, 0, []⟩]⟩,
   ⟨Reg.MON_CH_OUT, 1, false,
     []⟩,
   ⟨Reg.MON_CH_INFO, 1, false,
     [⟨4, 4, .w1c, .l, 0, []⟩,
      ⟨3, 3, .w1c, .l, 0, []⟩,
      ⟨0, 0, .w1c, .l, 0, []⟩]⟩,
   ⟨Reg.MON_CH_GD, 1, false,
     []⟩,
   ⟨Reg.MON_CH_HIGH, 1, false,
     [⟨31, 0, .rw, .l, 2147483647, []⟩]⟩,
   ⟨Reg.MON_CH_LOW, 1, false,
     [⟨31, 0, .rw, .l, 2147483648, []⟩]⟩,
   ⟨Reg.MON_CH_HYST, 1, false,
     [⟨23, 0, .rw, .l, 256, []⟩]⟩]

/-- Registers of 17_monitor.md (R445). -/
def regsMon2 : List RegDesc :=
  [⟨Reg.MON_OPT_SEL, 1, false,
     [⟨0, 0, .rw, .l, 0, []⟩]⟩,
   ⟨Reg.MON_DITH0, 1, false,
     [⟨21, 12, .rw, .l, 50, [⟨2, 1000, 1⟩]⟩,
      ⟨9, 0, .rw, .l, 64, []⟩]⟩,
   ⟨Reg.MON_DITH1, 1, false,
     [⟨31, 16, .rw, .l, 20000, []⟩,
      ⟨12, 0, .rw, .l, 64, [⟨1, 4096, 1⟩]⟩]⟩,
   ⟨Reg.MON_LOOP_SEL, 1, false,
     [⟨2, 0, .rw, .l, 0, []⟩]⟩,
   ⟨Reg.MON_LOOP_CTRL, 1, false,
     [⟨15, 15, .rw, .l, 0, []⟩,
      ⟨14, 14, .rw, .l, 0, []⟩,
      ⟨11, 8, .rw, .l, 4, []⟩,
      ⟨5, 0, .rw, .l, 0, []⟩]⟩,
   ⟨Reg.MON_LOOP_SET, 1, false,
     [⟨31, 0, .rw, .l, 0, []⟩]⟩,
   ⟨Reg.MON_DAC_CODE, 1, false,
     [⟨15, 0, .rw, .l, 32768, []⟩]⟩,
   ⟨Reg.MON_FCAL_SEL, 1, false,
     [⟨5, 0, .rw, .l, 0, [⟨0, 35, 1⟩]⟩]⟩,
   ⟨Reg.MON_FCAL_DATA, 1, false,
     [⟨31, 0, .rw, .l, 0, []⟩]⟩]

/-- Registers of 18_control_and_observability.md (R447, R478). -/
def regsCtl0 : List RegDesc :=
  [⟨Reg.CTL_ACC_STATUS, 1, false,
     [⟨27, 27, .w1c, .l, 0, []⟩]⟩,
   ⟨Reg.CTL_STATE_SEL, 1, false,
     [⟨5, 0, .rw, .l, 0, [⟨0, 3, 1⟩, ⟨8, 11, 1⟩, ⟨16, 63, 1⟩]⟩]⟩,
   ⟨Reg.CTL_STATE, 1, false,
     [⟨31, 31, .wo, .l, 0, []⟩]⟩,
   ⟨Reg.CTL_RING_MGMT, 1, false,
     [⟨1, 1, .rwl, .l, 0, []⟩,
      ⟨0, 0, .rwl, .l, 0, []⟩]⟩,
   ⟨Reg.CTL_LOCK_CMD, 1, false,
     [⟨31, 31, .wo, .l, 0, []⟩,
      ⟨26, 24, .rw, .l, 0, [⟨1, 4, 1⟩]⟩,
      ⟨2, 0, .rw, .l, 0, []⟩]⟩,
   ⟨Reg.CTL_LOCK_STATUS, 1, false,
     []⟩,
   ⟨Reg.CTL_LOCK_LEASE, 1, false,
     [⟨9, 0, .rw, .l, 10, [⟨1, 1000, 1⟩]⟩]⟩,
   ⟨Reg.CTL_LOCK_OWNER, 1, false,
     []⟩,
   ⟨Reg.CTL_LOCK_SCOPE0, 8, false,
     [⟨18, 0, .rwl, .l, 0, []⟩]⟩,
   ⟨Reg.MSIX_TABLE, 256, false,
     [⟨31, 0, .rw, .l, 0, []⟩]⟩,
   ⟨Reg.MSIX_PBA, 2, false,
     []⟩,
   ⟨Reg.EVT_SRC_SEL, 1, false,
     [⟨8, 0, .rw, .l, 0, [⟨0, 303, 1⟩]⟩]⟩]

/-- Registers of 18_control_and_observability.md (R478). -/
def regsCtl1 : List RegDesc :=
  [⟨Reg.EVT_SRC_CFG, 1, false,
     [⟨31, 31, .rw, .l, 0, []⟩,
      ⟨30, 30, .rw, .l, 0, []⟩,
      ⟨29, 27, .rw, .l, 3, []⟩,
      ⟨5, 0, .rw, .l, 0, []⟩]⟩,
   ⟨Reg.EVT_CTRL, 1, false,
     [⟨15, 0, .rw, .l, 10, []⟩]⟩,
   ⟨Reg.EVT_PEND0, 10, false,
     [⟨31, 0, .w1c, .l, 0, []⟩]⟩,
   ⟨Reg.EVT_JRN_WR, 1, false,
     []⟩,
   ⟨Reg.EVT_JRN_RD, 1, false,
     [⟨14, 0, .rw, .l, 0, []⟩]⟩,
   ⟨Reg.EVT_SPILL_CTRL, 1, false,
     [⟨31, 31, .rwl, .l, 0, []⟩,
      ⟨26, 24, .rwl, .l, 4, []⟩,
      ⟨23, 0, .rwl, .l, 0, []⟩]⟩,
   ⟨Reg.EVT_SPILL_CMD, 1, false,
     [⟨31, 31, .wo, .l, 0, []⟩,
      ⟨23, 0, .rw, .l, 0, []⟩]⟩,
   ⟨Reg.EVT_SPILL_STAT, 1, false,
     [⟨31, 31, .w1c, .l, 0, []⟩]⟩,
   ⟨Reg.PMC_DUMP_CTRL, 1, false,
     [⟨31, 31, .rw, .l, 0, []⟩,
      ⟨30, 30, .rw, .l, 0, []⟩,
      ⟨15, 0, .rw, .l, 1, [⟨1, 3600, 1⟩]⟩]⟩,
   ⟨Reg.PMC_DUMP_BASE_HI, 1, false,
     [⟨31, 0, .rw, .i, 0, []⟩]⟩,
   ⟨Reg.PMC_DUMP_BASE_LO, 1, false,
     [⟨31, 12, .rw, .i, 0, []⟩]⟩,
   ⟨Reg.PMC_DUMP_BUF, 1, false,
     [⟨31, 24, .rw, .i, 1, [⟨1, 255, 1⟩]⟩,
      ⟨23, 0, .rw, .i, 1, [⟨1, 16777215, 1⟩]⟩]⟩]

/-- Registers of 18_control_and_observability.md (R478). -/
def regsCtl2 : List RegDesc :=
  [⟨Reg.PMC_DUMP_PTR, 1, false,
     [⟨7, 0, .rw, .l, 0, []⟩]⟩,
   ⟨Reg.PMC_DUMP_STAT, 1, false,
     []⟩,
   ⟨Reg.PMC_DUMP_VEC, 1, false,
     [⟨6, 6, .rw, .l, 0, []⟩,
      ⟨5, 0, .rw, .l, 0, []⟩]⟩,
   ⟨Reg.PMC_CNT0, 8192, false,
     []⟩,
   ⟨Reg.PMC_CFG0, 8192, false,
     [⟨31, 31, .rw, .l, 0, []⟩,
      ⟨29, 24, .rw, .l, 0, [⟨0, 13, 1⟩]⟩,
      ⟨15, 0, .rw, .l, 0, []⟩]⟩,
   ⟨Reg.PMC_OVF0, 256, false,
     [⟨31, 0, .w1c, .l, 0, []⟩]⟩,
   ⟨Reg.WST_CTRL, 1, false,
     [⟨31, 24, .rw, .l, 1, [⟨1, 255, 1⟩]⟩,
      ⟨3, 0, .rw, .l, 15, []⟩]⟩,
   ⟨Reg.WST_STATUS, 1, false,
     [⟨7, 4, .w1c, .l, 0, []⟩]⟩]

/-- Registers of 19_power_and_bringup.md (R495). -/
def regsPwr0 : List RegDesc :=
  [⟨Reg.PWR_BASIC, 1, true,
     [⟨3, 0, .rw, .l, 0, [⟨0, 2, 1⟩]⟩]⟩,
   ⟨Reg.PWR_CEILING, 1, false,
     [⟨8, 0, .rw, .l, 300, [⟨50, 300, 1⟩]⟩]⟩,
   ⟨Reg.PWR_CTRL, 1, false,
     [⟨23, 16, .rw, .l, 30, [⟨0, 100, 1⟩]⟩,
      ⟨13, 0, .rw, .l, 100, [⟨1, 10000, 1⟩]⟩]⟩,
   ⟨Reg.PWR_ALLOC, 1, false,
     []⟩,
   ⟨Reg.PWR_STATUS, 1, false,
     []⟩,
   ⟨Reg.PWR_GRANT_SEL, 1, false,
     [⟨3, 0, .rw, .l, 0, [⟨0, 10, 1⟩]⟩]⟩,
   ⟨Reg.PWR_GRANT, 1, false,
     []⟩,
   ⟨Reg.PWR_DENY_CNT, 1, false,
     []⟩,
   ⟨Reg.PWR_TEMP_SEL, 1, false,
     [⟨3, 0, .rw, .l, 0, [⟨0, 11, 1⟩]⟩]⟩,
   ⟨Reg.PWR_TEMP, 1, false,
     []⟩,
   ⟨Reg.PWR_THERM, 1, false,
     [⟨31, 24, .rwl, .l, 140, [⟨125, 145, 1⟩]⟩,
      ⟨23, 16, .rw, .l, 130, []⟩,
      ⟨15, 8, .rw, .l, 120, []⟩]⟩,
   ⟨Reg.PWR_RESET_CAUSE, 1, false,
     []⟩]

/-- Registers of 19_power_and_bringup.md (R495). -/
def regsPwr1 : List RegDesc :=
  [⟨Reg.PWR_SW_RESET, 1, false,
     [⟨7, 0, .wo, .l, 0, [⟨165, 165, 1⟩]⟩]⟩,
   ⟨Reg.PWR_SUPPLY, 1, false,
     [⟨4, 0, .w1c, .l, 0, []⟩]⟩]

/-- All register descriptors, in chunks (Path B's registers have Path A's descriptors). -/
def regChunks : List (List RegDesc) :=
  [regsTop0, regsRte0, regsMst0, regsMst1, regsCnv0, regsCnv1, regsRxd0, regsRxd1, regsRxd2, regsTxd0, regsTxd1, regsTrk0, regsTrk1, regsFec0, regsFec1, regsLfr0, regsLfr1, regsLfr2, regsCnt0, regsCnt1, regsCry0, regsCry1, regsTru0, regsTru1, regsPkt0, regsPkt1, regsSch0, regsSch1, regsHsl0, regsHsl1, regsHsl2, regsMem0, regsMem1, regsMon0, regsMon1, regsMon2, regsCtl0, regsCtl1, regsCtl2, regsPwr0, regsPwr1]

end Sys2Proof.Machine
end

