-- ==== Sys2Proof/Machine/Sparse.lean ====
section
/-!
DEFINITION. Sparse storage: a list of (index, value) pairs in one canonical form, with the indexes strictly rising
and no pair that holds what an unlisted index reads as. Registers, table memories and the memory die are stored so.
-/
namespace Sys2Proof.Machine

/-- Pairs of index and value. -/
abbrev Sparse (α : Type) := List (Nat × α)

/-- The value at `k`; an unlisted index reads as `d k`. -/
def sparseGet {α : Type} (d : Nat → α) : Sparse α → Nat → α
  | [], k => d k
  | (a, v) :: m, k => if a = k then v else sparseGet d m k

/-- Notes `v` at `k`, in place of what was noted there: a list of changes to come, in which being listed matters. -/
def noteAt {α : Type} (k : Nat) (v : α) : Sparse α → Sparse α
  | [] => [(k, v)]
  | (a, w) :: m => if k < a then (k, v) :: (a, w) :: m else if k = a then (k, v) :: m else (a, w) :: noteAt k v m

/-- Stores `v` at `k`, keeping the canonical form: storing what an unlisted index reads as removes the pair. -/
def sparseSet {α : Type} [DecidableEq α] (d : Nat → α) (k : Nat) (v : α) : Sparse α → Sparse α
  | [] => if v = d k then [] else [(k, v)]
  | e :: m => if v = d k then (e :: m).filter fun e => e.1 != k else noteAt k v (e :: m)

/-- Every index of `m` is at least `lo`, the indexes rise strictly, and no pair is redundant. -/
def sparseWfFrom {α : Type} [DecidableEq α] (d : Nat → α) (lo : Nat) : Sparse α → Bool
  | [] => true
  | (a, v) :: m => decide (lo ≤ a) && decide (v ≠ d a) && sparseWfFrom d (a + 1) m

/-- The canonical form. -/
def sparseWf {α : Type} [DecidableEq α] (d : Nat → α) (m : Sparse α) : Bool := sparseWfFrom d 0 m

/-- Stores the values of a list at consecutive indexes from `k`. -/
def sparseSetList {α : Type} [DecidableEq α] (d : Nat → α) (k : Nat) : List α → Sparse α → Sparse α
  | [], m => m
  | v :: vs, m => sparseSetList d (k + 1) vs (sparseSet d k v m)

/-- The values at `n` consecutive indexes from `k`. -/
def sparseGetList {α : Type} (d : Nat → α) (m : Sparse α) (k : Nat) : Nat → List α
  | 0 => []
  | n + 1 => sparseGet d m k :: sparseGetList d m (k + 1) n

/-- What is noted at `k`. -/
def noted {α : Type} (m : Sparse α) (k : Nat) : Option α := (m.find? fun e => e.1 == k).map fun e => e.2

/-- Removes the pairs whose index satisfies `p`. -/
def sparseDrop {α : Type} (p : Nat → Bool) (m : Sparse α) : Sparse α := m.filter fun e => !p e.1

end Sys2Proof.Machine
end

