-- ==== Sys2Proof/Machine/RegFile.lean ====
section
/-!
DEFINITION. Reading the register map: which descriptor an offset has, the reset word of a register, the word that a
write leaves, and the values that R517 lets be written.
-/
namespace Sys2Proof.Machine

/-- Path B's registers lie 0x0040_0000 above Path A's and have Path A's descriptors (R107, R453). -/
def baseOff (off : Nat) : Nat := if 0x00800000 ≤ off ∧ off < 0x00C00000 then off - 0x00400000 else off

/-- The descriptor of the chunk list that covers `off`. -/
def findDesc (off : Nat) : List RegDesc → Option RegDesc
  | [] => none
  | d :: ds => if d.off ≤ off ∧ off < d.off + 4 * d.count then some d else findDesc off ds

/-- The first descriptor among the chunks that covers `off`. -/
def findChunk (off : Nat) : List (List RegDesc) → Option RegDesc
  | [] => none
  | c :: cs => match findDesc off c with
    | some d => some d
    | none => findChunk off cs

/-- The register at a BAR0 offset, if the map has one there. -/
def regDesc (off : Nat) : Option RegDesc := findChunk (baseOff off) regChunks

/-- The mask of the fields whose access type satisfies `p`. -/
def accMask (p : Access → Bool) (d : RegDesc) : Word :=
  d.fields.foldl (fun m f => if p f.acc then m ||| fieldMask f.hi f.lo else m) 0

/-- Fields that hold what is written. -/
def storedMask (d : RegDesc) : Word := accMask (fun a => a == .rw || a == .rwl) d

/-- Fields of class M (R9). -/
def milestoneMask (d : RegDesc) : Word :=
  d.fields.foldl (fun m f => if f.cls == .m then m ||| fieldMask f.hi f.lo else m) 0

/-- Fields of class I (R9). -/
def idleMask (d : RegDesc) : Word :=
  d.fields.foldl (fun m f => if f.cls == .i then m ||| fieldMask f.hi f.lo else m) 0

/-- Fields that the image can lock (R57). -/
def lockMask (d : RegDesc) : Word := accMask (fun a => a == .rwl) d

/-- The word of a register's reset values (the tables' Reset column). -/
def descReset (d : RegDesc) : Word :=
  d.fields.foldl (fun w f => if f.acc == .rw || f.acc == .rwl then setField w f.hi f.lo f.reset else w) 0

/-- Registers with several items keep each item's word under a key of its own. -/
def regKey (off idx : Nat) : Nat := off + idx * 0x4000000

/-- The reset scopes of the lock domains (R460). -/
def scopeReset (n : Nat) : Word :=
  match n with
  | 0 => 0x8 | 1 => 0x10 | 2 => 0x60 | 3 => 0x300 | 4 => 0xC00 | 5 => 0x2000 | 6 => 0x6 | _ => 0x79000

/-- The reset word of a register item. Where the reset value depends on the item, the tables say so: the second tap of
`TAP0` (R107), tap 15 of the pre-compensation filters (R156), tap 0 of a chain's filter and the sources of the optical
loops (R445), the window of Path B (R175), the lock scopes (R460), masked MSI-X vectors (PRESUMED, PCIe). -/
def regReset (key : Nat) : Word :=
  let off := key % 0x4000000
  let idx := key / 0x4000000
  let b := baseOff off
  if b = Reg.PA_CNV_DAC_TAP0 then 0x01000000
  else if b = Reg.PA_TXD_PCF then (if idx % 32 = 15 then 1024 else 0)
  else if b = Reg.PA_TRK_RAIL_SEL then (if off = b then 0x1100 else 0x2100)
  else if b = Reg.MON_FIR_COEF then (if idx % 64 = 0 then 0x20000 else 0)
  else if b = Reg.MON_LOOP_CTRL then
    (if idx % 8 = 6 then BitVec.ofNat 32 (0x400 + idx / 8) else BitVec.ofNat 32 (0x400 + 8 * (idx / 8)))
  else if Reg.CTL_LOCK_SCOPE0 ≤ b ∧ b < Reg.CTL_LOCK_SCOPE0 + 32 then scopeReset ((b - Reg.CTL_LOCK_SCOPE0) / 4)
  else if Reg.MSIX_TABLE ≤ b ∧ b < Reg.MSIX_TABLE + 1024 then (if b % 16 = 12 then 1 else 0)
  else match regDesc off with
    | some d => descReset d
    | none => 0

/-- Whether `v` is a value that the field accepts (R517). -/
def rangeOk (ok : List Range) (v : Nat) : Bool :=
  ok.isEmpty || ok.any fun r => decide (r.lo ≤ v ∧ v ≤ r.hi ∧ (v - r.lo) % r.step = 0)

/-- Whether every field of the register accepts its part of the word. A command field that is 0 commands nothing and
is not judged. -/
def valuesOk (d : RegDesc) (w : Word) : Bool :=
  d.fields.all fun f =>
    let v := fieldOf w f.hi f.lo
    f.acc == .w1c || (f.acc == .wo && f.ok.isEmpty) || rangeOk f.ok v

/-- The word that the stored fields hold after `val` is written over `old`. -/
def mergeWrite (mask old val : Word) : Word := (old &&& ~~~mask) ||| (val &&& mask)

end Sys2Proof.Machine
end

