-- ==== Sys2Proof/Machine/HostCode.lean ====
section
/-!
DEFINITION. The codes of the host lanes (15_host_lanes.md): RS(544,514) of a carriage frame, the symbols of a fast lane,
the training pattern, and 8b/10b on a legacy lane. What IEEE 802.3 adds is PRESUMED (log 116).
-/
namespace Sys2Proof.Machine

/-! ### RS(544,514) (R372) -/

/-- Product in GF(2^10) with the polynomial x^10 + x^3 + 1. -/
def gfMul (a b : Nat) : Nat :=
  [9, 8, 7, 6, 5, 4, 3, 2, 1, 0].foldl (fun r i =>
    let r := if r.testBit 9 then (2 * r) ^^^ 0x409 else 2 * r
    if b.testBit i then r ^^^ a else r) 0

/-- A power of an element. -/
def gfPow (a : Nat) : Nat → Nat
  | 0 => 1
  | n + 1 => gfMul (gfPow a n) a

/-- The inverse of an element other than 0: its power 1,022 = 2 + 4 + ... + 512. -/
def gfInv (a : Nat) : Nat :=
  ((List.range 9).foldl (fun (x : Nat × Nat) _ => let q := gfMul x.1 x.1; (q, gfMul x.2 q)) (a, 1)).2

/-- The generator polynomial of a code with `np` parity symbols, whose roots are the powers 0 to np - 1 of x: its
coefficients below the first, highest first. -/
def rsGenerator (np : Nat) : List Nat :=
  ((List.range np).foldl (fun (x : List Nat × Nat) _ =>
    let g := x.1
    (List.zipWith (· ^^^ ·) (g ++ [0]) (0 :: g.map fun c => gfMul c x.2), gfMul x.2 2)) ([1], 1)).1.drop 1

/-- The `np` parity symbols of 514 message symbols. -/
def rsParity (np : Nat) (msg : List Nat) : List Nat :=
  let g := rsGenerator np
  msg.foldl (fun r x =>
    let f := x ^^^ r.headD 0
    List.zipWith (fun a c => a ^^^ gfMul f c) (r.drop 1 ++ [0]) g) (List.replicate np 0)

/-- A polynomial at a point; the coefficients are the highest first. -/
def gfEval (p : List Nat) (x : Nat) : Nat := p.foldl (fun a c => (if a = 0 then 0 else gfMul a x) ^^^ c) 0

/-- The syndromes of a received word: its values at the roots of the generator polynomial. -/
def syndromes (np : Nat) (w : List Nat) : List Nat := (List.range np).map fun j => gfEval w (gfPow 2 j)

/-- What the Berlekamp-Massey algorithm holds: the locator polynomial, the one before its last change of length, the
length, the shifts since that change, and the discrepancy at it. Coefficients are the lowest first. -/
structure Locator where
  poly  : List Nat
  prev  : List Nat
  len   : Nat
  shift : Nat
  disc  : Nat

/-- One step, on the syndromes up to `n`. -/
def Locator.step (syn : List Nat) (l : Locator) (n : Nat) : Locator :=
  let d := (List.range (l.len + 1)).foldl (fun a i => a ^^^ gfMul (l.poly.getD i 0) (syn.getD (n - i) 0)) 0
  if d = 0 then { l with shift := l.shift + 1 }
  else
    let k := gfMul d (gfInv l.disc)
    let size := max l.poly.length (l.prev.length + l.shift)
    let poly := (List.range size).map fun i =>
      l.poly.getD i 0 ^^^ (if i < l.shift then 0 else gfMul k (l.prev.getD (i - l.shift) 0))
    if 2 * l.len ≤ n then ⟨poly, l.poly, n + 1 - l.len, 1, d⟩ else { l with poly := poly, shift := l.shift + 1 }

/-- The error in symbol `i` of `n` under a locator polynomial and the syndromes: zero where it has no root (Forney). -/
def symbolError (syn poly : List Nat) (n i : Nat) : Nat :=
  let x := gfPow 2 (n - 1 - i)
  let y := gfInv x
  if gfEval poly.reverse y ≠ 0 then 0
  else
    let omega := (List.range syn.length).map fun k =>
      (List.range (k + 1)).foldl (fun a j => a ^^^ gfMul (poly.getD j 0) (syn.getD (k - j) 0)) 0
    let slope := poly.zipIdx.map fun c => if c.2 % 2 = 1 then c.1 else 0
    gfMul x (gfMul (gfEval omega.reverse y) (gfInv (gfEval (slope.drop 1).reverse y)))

/-- A received word with its errors corrected, or none where it lies within the error limit of no code word (R370, R372,
R376). -/
def rsDecode (np : Nat) (w : List Nat) : Option (List Nat) :=
  let syn := syndromes np w
  if syn.all (· == 0) then some w
  else
    let l := (List.range np).foldl (Locator.step syn) ⟨[1], [1], 0, 1, 1⟩
    let fixed := w.zipIdx.map fun x => x.1 ^^^ symbolError syn l.poly w.length x.2
    if 2 * l.len ≤ np ∧ (syndromes np fixed).all (· == 0) then some fixed else none

/-- The 10-bit symbols of bytes, the first bit most significant. -/
def symbolsOf (n : Nat) (b : Bytes) : List Nat :=
  let v := beNat b
  (List.range n).map fun i => v / 2 ^ (8 * b.length - 10 - 10 * i) % 1024

/-- The bytes of 10-bit symbols. -/
def symbolBytes (n : Nat) (l : List Nat) : Bytes := beBytes n (l.foldl (fun v x => v * 1024 + x) 0)

/-! ### Ethernet code words (R236, R370) -/

/-- The bits of 10-bit symbols, the least significant first, as IEEE 802.3 sends them. -/
def symbolBits (l : List Nat) : List Bool := l.flatMap fun x => (List.range 10).map x.testBit

/-- The symbols of bits in that order. -/
def bitSymbols (n : Nat) (b : List Bool) : List Nat :=
  (List.range n).map fun i => (((b.drop (10 * i)).take 10).reverse.foldl (fun v x => 2 * v + x.toNat) 0)

/-- Bits in pieces of `w`, `n` of them. -/
def bitPieces (w n : Nat) (b : List Bool) : List (List Bool) := (List.range n).map fun i => (b.drop (w * i)).take w

/-- The whole bytes of bits, the first bit in bit 7, and the bits left (R236). -/
def packBits (b : List Bool) : Bytes × List Bool :=
  let n := b.length / 8
  ((bitPieces 8 n b).map fun p => BitVec.ofNat 8 (p.foldl (fun v x => 2 * v + x.toNat) 0), b.drop (8 * n))

/-- The client's blocks of a received code word with `np` parity symbols, alignment markers removed, and whether the
word is uncorrectable: its blocks then have their sync headers corrupted (R236, R370). -/
def clientBlocks (np : Nat) (w : ClientWord) : List (List Bool) × Bool :=
  let syms := w.word.map (·.toNat)
  let d := rsDecode np syms
  let blocks := (bitPieces 257 20 (symbolBits ((d.getD syms).take 514))).drop w.markers
  if d.isSome then (blocks, false)
  else (blocks.map fun b => (Config.corruptBlock b ++ List.replicate 257 false).take 257, true)

/-- One client block sent: alignment markers come before the first one of each period. `x` is the bits that await a code
word, and the blocks since the last markers. -/
def sendBlock (rate : Nat) (x : List Bool × Nat) (block : List Bool) : List Bool × Nat :=
  let markers := if x.2 = 0 then Config.alignMarkers rate else []
  (x.1 ++ markers ++ block, (x.2 + 1) % max 1 (Config.markerPeriod rate))

/-- The code words that bits fill, with their parity regenerated. -/
def sendWords (np : Nat) (b : List Bool) : List (List Nat) :=
  (bitPieces 5140 (b.length / 5140) b).map fun p => let m := bitSymbols 514 p; m ++ rsParity np m

/-- The 10,880 bits of a carriage frame from its 1,285 message bytes: two code words, each followed by its parity. -/
def carriageBits (message : Bytes) : Bytes :=
  let syms := symbolsOf 1028 message
  let word (w : List Nat) : List Nat := w ++ rsParity 30 w
  symbolBytes 1360 (word (syms.take 514) ++ word (syms.drop 514))

/-! ### Symbols of a fast lane (R368) -/

/-- The bits of bytes, in transmission order. -/
def wireBits (b : Bytes) : List Bool := b.flatMap fun x => [7, 6, 5, 4, 3, 2, 1, 0].map x.getLsbD

/-- The PAM4 level of a bit pair: 00, 01, 11 and 10 are levels 0 to 3. -/
def pam4Level (first second : Bool) : Nat :=
  match first, second with
  | false, false => 0
  | false, true => 1
  | true, true => 2
  | true, false => 3

def pam4 : List Bool → List Nat
  | a :: b :: l => pam4Level a b :: pam4 l
  | _ => []

/-- The levels of a lane's bits: PAM4, or NRZ with levels 0 and 1; `inv` inverts the data. -/
def laneLevels (isPam4 inv : Bool) (b : Bytes) : List Nat :=
  let l := (wireBits b).map (· != inv)
  if isPam4 then pam4 l else l.map Bool.toNat

/-! ### Training frames (R380) -/

/-- `n` bits of the pattern x^13 + x^12 + x^2 + x + 1 from a state: the state that follows, and the bits as a number. -/
def prbs13 (n st : Nat) : Nat × Nat :=
  (List.range n).foldl (fun x _ =>
    let b := (x.1.testBit 12 != x.1.testBit 11) != (x.1.testBit 1 != x.1.testBit 0)
    ((2 * x.1 + b.toNat) % 8192, 2 * x.2 + b.toNat)) (st, 0)

/-! ### 8b/10b (R377) -/

/-- A code group: data, or special. -/
inductive Group where
  | d (b : Byte)
  | k (b : Byte)
  deriving DecidableEq, Repr

/-- The 5b/6b codes at negative running disparity, bits a to i. -/
def code6 : List Nat :=
  [0b100111, 0b011101, 0b101101, 0b110001, 0b110101, 0b101001, 0b011001, 0b111000,
   0b111001, 0b100101, 0b010101, 0b110100, 0b001101, 0b101100, 0b011100, 0b010111] ++
  [0b011011, 0b100011, 0b010011, 0b110010, 0b001011, 0b101010, 0b011010, 0b111010,
   0b110011, 0b100110, 0b010110, 0b110110, 0b001110, 0b101110, 0b011110, 0b101011]

/-- The 3b/4b codes at negative running disparity, bits f to j. -/
def code4 : List Nat := [0b1011, 0b1001, 0b0101, 0b1100, 0b1101, 0b1010, 0b0110, 0b1110]

/-- Ones among the `n` low bits. -/
def onesOf (n x : Nat) : Nat := ((List.range n).filter x.testBit).length

/-- A code of `n` bits at a running disparity (false negative) and the disparity after it. A code that is not balanced, and
the two that `alt` names, are complemented at positive disparity. -/
def atDisparity (n x : Nat) (alt rd : Bool) : Nat × Bool :=
  let even := decide (2 * onesOf n x = n)
  (if rd && (alt || !even) then 2 ^ n - 1 - x else x, if even then rd else !rd)

/-- The ten bits of a code group, a first, and the running disparity after it. -/
def codeGroup (rd : Bool) : Group → Nat × Bool
  | .k b =>
    if b = 0xBC then (if rd then 0b1100000101 else 0b0011111010, !rd)
    else
      let x := code6.getD (b.toNat % 32) 0 * 16 + 0b1000
      (if rd then 1023 - x else x, rd)
  | .d b =>
    let x := b.toNat % 32
    let y := b.toNat / 32
    let (six, r) := atDisparity 6 (code6.getD x 0) (x == 7) rd
    let a7 := y == 7 && (if r then [11, 13, 14].contains x else [17, 18, 20].contains x)
    let (four, r) := atDisparity 4 (if a7 then 0b0111 else code4.getD y 0) (y == 3) r
    (six * 16 + four, r)

/-- Code groups of a lane, and the running disparity after them. -/
def codeGroups (rd : Bool) (l : List Group) : List Nat × Bool :=
  l.foldl (fun x g => let y := codeGroup x.2 g; (x.1 ++ [y.1], y.2)) ([], rd)

/-- The running disparity after a code of `n` bits: `pos` is the balanced code that makes it positive (clause 36). -/
def disparityAfter (n pos x : Nat) (rd : Bool) : Bool :=
  let o := 2 * onesOf n x
  if n < o ∨ x = pos then true else if o < n ∨ x = 2 ^ n - 1 - pos then false else rd

/-- The special code groups that the device uses (R377). -/
def specials : List Byte := [0xBC, 0xFB, 0xFD, 0xFE]

/-- A received code group, none where it is invalid at the running disparity, and the running disparity after it. -/
def readGroup (rd : Bool) (c : Nat) : Option Group × Bool :=
  let after := disparityAfter 4 0b0011 (c % 16) (disparityAfter 6 0b000111 (c / 16) rd)
  let g : Option Group := match specials.find? fun b => (codeGroup rd (.k b)).1 == c with
    | some b => some (.k b)
    | none =>
      match (List.range 32).find? fun x => (atDisparity 6 (code6.getD x 0) (x == 7) rd).1 == c / 16 with
      | none => none
      | some x =>
        ((List.range 8).map fun y => Group.d (BitVec.ofNat 8 (32 * y + x))).find? fun g => (codeGroup rd g).1 == c
  (g, after)

/-- Received code groups, and the running disparity after them. -/
def readGroups : Bool → List (BitVec 10) → List (Option Group) × Bool
  | rd, [] => ([], rd)
  | rd, c :: l =>
    let x := readGroup rd c.toNat
    let y := readGroups x.2 l
    (x.1 :: y.1, y.2)

/-- The byte of a data code group. -/
def dataByte : Option Group → Option Byte
  | some (.d b) => some b
  | _ => none

/-- /RI/, /RM/ and /V/ (R377). -/
def ringIdle : List Group := [.k 0xBC, .d 0x50]

def ringMark : List Group := [.k 0xBC, .d 0x2A]

def invalidGroup : Group := .k 0xFE

/-- A tributary frame: /FS/ in place of its first byte (R378). -/
def fleamGroups (frame : Bytes) : List Group := .k 0xBC :: (frame.drop 1).map .d

/-- A ring message between /RS/ and /RT/; none stands for an invalid code group (R389). -/
def ringBody (m : List (Option Byte)) : List Group :=
  .k 0xFB :: m.map (fun x => match x with | some b => .d b | none => invalidGroup) ++ [.k 0xFD]

/-- `n` times /RI/. -/
def ringIdles (n : Nat) : List Group := (List.replicate n ringIdle).flatten

/-- A message of the station's own, with the four /RI/ that follow it (R389). -/
def ringGroups (m : List (Option Byte)) : List Group := ringBody m ++ ringIdles 4

end Sys2Proof.Machine
end

