-- ==== Sys2Proof/Machine/State.lean ====
section
/-!
DEFINITION. The state of the AR3216 as plain data, unit by unit, and the machine right after a device reset.
Register words that software writes live in `State.cfg` under their offset; everything that the device itself holds
beside them (queues, states, counters, latches, tables in force) has a field of its own unit.
-/
namespace Sys2Proof.Machine

/-! ### Milestone unit (03_milestones.md) -/

/-- Time states of R64. -/
inductive TimeState where
  | free | acquiring | locked | holdover | lost
  deriving DecidableEq, Repr

/-- The six generations that a path keeps per direction (R67), kinds 0 to 5 in order. -/
structure Gens where
  slot  : BitVec 16
  key   : BitVec 16
  track : BitVec 16
  gate  : BitVec 16
  coef  : BitVec 16
  mode  : BitVec 16
  deriving DecidableEq, Repr

/-- Who placed a milestone queue entry (R75). -/
inductive Owner where
  | host | loader | crypto | tracks
  deriving DecidableEq, Repr

/-- The part of a queue entry that concerns one path: the target frame once fixed (R71), the kinds that remain after
drops (R73), the frozen generations, and whether the target frame has been sent. -/
structure PathPart where
  inScope : Bool
  kinds  : BitVec 7
  target : Option Nat
  frozen : Gens
  done   : Bool
  deriving DecidableEq, Repr

/-- One entry of the milestone queue (R67 to R69). `withdrawn` marks a cancelled fixed entry, which is announced with
state 0x02 until its target frame has passed (R77). -/
structure QEntry where
  handle    : Nat
  sec       : Nat
  ns        : Nat
  device    : Bool
  deviceDone : Bool
  devShadow : Bool                    -- bit 6 covers the device scope (R70)
  kinds     : BitVec 7
  owner     : Owner
  amdNum    : Nat
  partA     : PathPart
  partB     : PathPart
  withdrawn : Bool
  deriving DecidableEq, Repr

/-- An announcement received from the far end (R77, R79), with the number of superframes for which it has been
usable. -/
structure Announcement where
  state  : Nat
  handle : Nat
  target : Nat
  kinds  : Nat
  gens   : Gens
  amd    : Nat
  firstFc : Nat
  deriving DecidableEq, Repr

/-- Generations and tag processing of one path (R67, R78 to R81). -/
structure PathMst where
  tx        : Gens
  rx        : Gens
  staged    : List (Nat × BitVec 16)  -- kind and generation of each staged next copy
  rxStaged  : List (Nat × BitVec 16)  -- kind and generation of each next copy that the receive direction has yet to take
  lastTag   : Option Gens             -- generations of the last readable tag block
  lastGate  : BitVec 16
  lastCoef  : BitVec 16
  farAmd    : BitVec 16
  farImage  : BitVec 32
  unknownRun : List Nat               -- per kind: consecutive readable blocks with an unknown value
  matchRun  : List Nat                -- per kind: consecutive readable blocks with the receive generation
  mismatch  : BitVec 6
  announced : List Announcement
  recPos    : Nat                     -- next handle to announce in rotation
  deriving DecidableEq, Repr

/-- The milestone unit (R61 to R85). Rates and periods are in units of 2^-32 ns. -/
structure MstState where
  sec       : Nat
  ns        : Nat
  frac      : Nat
  latchLo   : Word
  latchNs   : Word
  time      : TimeState
  qualified : Nat
  markerSeen : Bool
  markAt    : Nat                     -- local time of the last second marker (R511)
  lastMsgSec : Option Nat             -- seconds value of the last valid message
  msgTime   : Option (Nat × Nat)      -- time that the message since the last marker names
  msgGood   : Bool                    -- its seconds value was one more than the previous message's
  badSecs   : Nat                     -- consecutive seconds, ended by a marker, without a valid message
  traceable : Bool
  msgFlags  : Nat                     -- flags of the last valid message
  leapSeen  : Bool
  slew      : Int                     -- offset that the counter has still to slew, 2^-32 ns
  rate      : Int                     -- what the disciplined rate adds to a frame period, 2^-32 ns (R64)
  msgErr    : Nat
  stepped   : Bool
  queue     : List QEntry
  handle    : Nat
  result    : Nat
  perSum    : Nat                     -- milestone time of the frames of this second, 2^-32 ns
  perCnt    : Nat                     -- and their number
  period    : Nat × Nat               -- the same of the preceding second: P is their quotient (R71)
  pathA     : PathMst
  pathB     : PathMst
  deriving DecidableEq, Repr

/-! ### Events, journal, counters, control (18_control_and_observability.md) -/

/-- An occurrence that takes a sequence number when the command that caused it completes (R82, R464, R466). `limit`
marks an event that is raised at most once per milestone second for its item. -/
structure Occ where
  kind  : Nat
  src   : Nat
  sub   : Nat
  inst  : Nat
  valA  : Nat
  valB  : Nat
  unc   : Bool
  limit : Nat                         -- 0 none, 1 once per second for the source, 2 for the item, 3 for the path of event 286
  deriving DecidableEq, Repr

/-- What identifies a limited or suppressed item (R464). -/
structure EvKey where
  src  : Nat
  sub  : Nat
  inst : Nat
  deriving DecidableEq, Repr

/-- Events and the journal (R464 to R469). -/
structure EvtState where
  pend     : Nat                      -- pending bit of source n at bit n
  raised   : List EvKey               -- limited items raised in this milestone second
  supp     : List (EvKey × Nat)
  seq      : BitVec 32                -- sequence number most recently assigned
  wr       : Nat
  lost     : Option (Nat × Nat)       -- first lost sequence number and count
  holdoff  : List Nat                 -- vectors in holdoff
  held     : List Nat                 -- vectors with raises accumulated in holdoff
  pba      : BitVec 64
  spill    : List Nat                 -- ring indexes of the records to be spilled
  spillNext : Nat
  spillFlush : Bool                   -- a second boundary has passed since records were copied
  sectors  : Sparse (Option (Bytes × Bytes)) -- spill sectors in flash: the key that enciphers them, and their plain bytes
  spillRead : Option Nat              -- sector being read back
  spillDone : Bool
  deriving DecidableEq, Repr

/-- A sequence lock domain (R460 to R463). Sessions are numbered as in R467: 0, 1, 256 + station. -/
structure LockState where
  owner  : Option Nat
  broken : Bool
  staged : List (Nat × Word)
  deriving DecidableEq, Repr

/-- Per-session registers (R456, R478). -/
structure SessState where
  result     : Nat
  refused    : Bool
  addr       : Nat
  lockResult : Nat
  lockDom    : Nat                    -- the domain last commanded
  lockIndex  : Nat
  lease      : Nat
  deriving DecidableEq, Repr

/-- Control ports and locks. `mismatch` lists the units whose mismatch has been reported (R458); `mntRead` is the
maintenance memory read in the background: its address, and once complete its data and the local time of that (R450). -/
structure CtlState where
  sessions : Sparse SessState
  locks    : Sparse LockState
  mismatch : List Nat
  mntRead  : Option (Nat × Option (Word × Nat))
  pcieUp   : Bool                     -- the endpoint is out of reset and answers
  restarts : List Nat                 -- units whose RESTART acts at the next frame boundary (R459)
  deriving DecidableEq, Repr

/-- A dump being written (R474): its number, bytes and whether it was cut. -/
structure DumpJob where
  bytes : Bytes
  cut   : Bool
  deriving DecidableEq, Repr

/-- Device counters, dumps and the wayside test (R471 to R477). -/
structure PmcState where
  cnt      : Sparse Word
  ovf      : Sparse Word
  latched  : Sparse Word
  dev      : Nat
  dumps    : Nat
  missed   : Nat
  trunc    : Nat
  dumpNum  : Nat
  job      : Option DumpJob
  wstFail  : Nat
  wstStarved : Nat
  wstFailed : Nat
  wstDone  : Nat
  wstRunning : Nat
  wstBlock : Nat
  wstEngine : Nat
  deriving DecidableEq, Repr

/-! ### Memory (16_memory.md) -/

/-- An entry of the merge buffer: the code word and the new bytes, by offset within the word (R404). -/
structure MergeEntry where
  word  : Nat
  patch : List (Nat × Byte)
  full  : Bool
  scrub : Option Nat                  -- a write-back of the scrubber: its pass (R407)
  deriving DecidableEq, Repr

/-- A watch list entry (R408). -/
structure WatchEntry where
  word     : Nat
  count    : Nat
  lastPass : Nat
  deriving DecidableEq, Repr

/-- A fault ledger entry (R409). -/
structure LedgerEntry where
  word  : Nat
  state : Nat
  deriving DecidableEq, Repr

/-- A row remap (R410). `copied`: the copy of the row is complete and the switch is outstanding; `applied`: accesses
go to the spare row. -/
structure RemapEntry where
  bank       : Nat
  row        : Nat
  spare      : Nat
  persistent : Bool
  copied     : Bool
  due        : Bool                   -- a second boundary has passed since the copy completed
  applied    : Bool
  deriving DecidableEq, Repr

/-- The scrubber (R407, R417). -/
structure ScrubState where
  running  : Bool
  pass     : Nat
  pos      : Nat                      -- next word index of the pass
  elapsed  : Nat                      -- milestone seconds since the pass started
  period   : Nat                      -- period of the pass
  late     : Bool
  quota    : Nat
  passes   : Nat
  lateCnt  : Nat
  deriving DecidableEq, Repr

/-- The memory die and its controller (R398 to R420). -/
structure MemState where
  bytes    : List Host.Cell
  written  : List (Nat × Nat)         -- written code words: first index and count of each run
  poison   : Sparse Bool
  upset    : Sparse Nat               -- bits in error per code word
  merge    : List MergeEntry
  stalled  : List (Nat × Bytes)       -- partial writes that wait for a merge entry
  watch    : List WatchEntry
  ledger   : List LedgerEntry
  remap    : List RemapEntry
  factory  : List (Nat × Nat × Nat)   -- bank, row, spare of the factory map
  scrub    : ScrubState
  corr     : Nat
  uncorr   : Nat
  sramCorr : Nat
  sramUncorr : Nat
  lostLines : Nat
  merges   : Nat
  onCorr   : Nat
  onUncorr : Nat
  watchOvf : Nat
  arbUse   : List Nat
  cap      : Nat
  repairResult : Nat
  repairWait : Bool
  repairBusy : Bool
  sramUpset : Sparse Nat              -- bits in error in SRAM words of 8 bytes, by SRAM number and word
  sram     : List (Nat × Nat × Bytes) -- packet buffer SRAM that was filled: first word, count, pattern, newest first
  sramMap  : List (Nat × Nat)         -- its written map: first word and count of each run (R402)
  deriving DecidableEq, Repr

/-! ### Power (19_power_and_bringup.md) -/

/-- A queued right-of-way request (R487). -/
structure RowReq where
  idx   : Nat
  cost  : Nat
  since : Nat
  deriving DecidableEq, Repr

/-- The governor, thermal states, resets and references (R29, R483 to R496). -/
structure PwrState where
  inReset  : Bool
  lineRef  : Bool
  hostRef  : Bool
  sysRef   : Bool
  grants   : List (Nat × Nat)         -- index and cost held
  queue    : List RowReq
  denied   : Nat
  timeouts : Nat
  overCeil : Bool
  warn     : Bool
  hot      : Bool
  excess   : BitVec 2                 -- decoders asked to return their excess grant (R491), bit per path
  tripRun  : Nat
  pinHold  : Bool                     -- reset is held from outside: RESET_N, a supply or a reference
  tripHold : Bool
  swHold   : Bool
  temps    : List Int
  temp1s   : List Int                 -- highest reading of the second in progress
  tempMax  : List Int                 -- highest reading of the last milestone second
  thermBad : Bool
  thermOff : List Int
  cause    : Nat
  count    : Nat
  rail     : Nat
  warned   : Nat
  booted   : Bool                     -- event 292 raised since the last reset
  deriving DecidableEq, Repr

/-! ### The active route image and the loader (01_architecture.md, 02_route_image.md) -/

/-- The payload mode of a path (R39): `m`, symbol rate index `k`, FEC (0 to 2) and track code (0 to 4). -/
structure PathMode where
  m      : Nat
  k      : Nat
  fec    : Nat
  tracks : Nat
  deriving DecidableEq, Repr

/-- A host port record (R39). -/
structure HostPort where
  num    : Nat
  first  : Nat
  width  : Nat
  rate   : Nat
  coding : Nat
  modul  : Nat
  deriving DecidableEq, Repr

/-- A container record (R39). -/
structure ContainerRec where
  path  : Path
  num   : Nat
  own   : Nat
  other : Nat
  deriving DecidableEq, Repr

/-- A connection endpoint (R39): type 0 host port, 1 legacy lane, 2 packet layer, 3 container. -/
structure Endpoint where
  typ  : Nat
  path : Nat
  num  : Nat
  deriving DecidableEq, Repr

/-- A connection (R17, R39). -/
structure Connection where
  kind : Nat
  ends : List Endpoint
  deriving DecidableEq, Repr

/-- A tenant grant (R39, R473). -/
structure TenantGrant where
  page   : Nat
  grants : Nat
  path   : Nat
  first  : Nat
  count  : Nat
  deriving DecidableEq, Repr

/-- The configuration that a route image sets up (R39, R57). -/
structure ImageCfg where
  inst   : BitVec 8                   -- layout of TOP_UNIT_INST
  modeA  : Option PathMode
  modeB  : Option PathMode
  ports  : List HostPort
  lanes  : List (Nat × Nat)           -- legacy lane and rate multiple
  conts  : List ContainerRec
  conns  : List Connection
  expert : BitVec 26
  rwl    : List Nat                   -- offsets whose RWL fields are locked
  grants : List TenantGrant
  deriving DecidableEq, Repr

/-- What a flash slot holds (R45 to R48, R302): nothing (its first sector is erased), an image whose sectors were
enciphered under a sector key, or a first sector whose writing was interrupted. -/
inductive Slot where
  | blank
  | image (key : Bytes) (b : Bytes)
  | torn
  deriving DecidableEq, Repr

/-- The operation that the loader is running (R58). -/
inductive LoaderOp where
  | load (src : Nat)                  -- source 0 auto, 1 slot A, 2 slot B, 3 host staging
  | fillWait (src base : Nat) (image : Bytes) -- step 8 waits for the fill grant (R41); the base of the new configuration
  | applying                          -- the records of a full image are being applied
  | store (tgtB : Bool)
  | amend
  | floorWait                         -- COMMIT_FLOOR waits for its grant (R44)
  | floorCommit (v : Nat)
  deriving DecidableEq, Repr

/-- A pending amendment (R53, R54): its number, the configuration that results, the register writes and table loads
to apply, and the rails. -/
structure Amendment where
  num    : Nat
  cfg    : ImageCfg
  writes : List (Nat × Word)
  tables : List (Nat × Nat × Bytes)   -- class M tables: table identifier, first index and entries
  rails  : List Bytes
  handle : Nat
  rewire : Bool
  kindsA : BitVec 7                   -- kinds whose next copies it has staged, by path
  kindsB : BitVec 7
  deriving DecidableEq, Repr

/-- The route loader and the active image (R35 to R60). -/
structure RteState where
  active   : Bool
  cfg      : ImageCfg
  src      : Nat
  version  : Nat
  gen      : Word
  amdNum   : Nat
  digest   : Bytes
  advance  : Bool
  fabric   : BitVec 16
  op       : Option LoaderOp
  failCode : Nat
  failDetail : Nat
  failed   : Bool
  amd      : Option Amendment
  nextBoot : Nat
  validA   : Bool
  validB   : Bool
  slotA    : Slot
  slotB    : Slot
  flashSize : Nat                     -- bytes of the external flash (R45)
  program  : Sparse Word              -- the 16,384-word program store (R318)
  deriving DecidableEq, Repr

/-! ### Converters of a path (04_line_converters.md) -/

/-- A side of the converter unit (R98, R99, R457): `lineOff` marks a side that is off after a loss of the line
reference and still holds its grant. -/
inductive SideState where
  | off | waiting | starting | running | lineOff
  deriving DecidableEq, Repr

/-- Three corrections of a slice in field units: offset, gain and skew (R92). -/
structure Corr where
  offset : Int
  gain   : Int
  skew   : Int
  deriving DecidableEq, Repr

/-- One of the 65 slices of an ADC (R92): where it stands, its corrections, and what its calibration asks for beyond
them, which is carried into its next turn (R95). -/
structure Slice where
  state  : Nat                        -- 0 in service; 1 relief; 2 retired; 3 not ready
  pos    : Nat
  corr   : Corr
  excess : Corr
  deriving DecidableEq, Repr

/-- An ADC's slices and its rotation (R93 to R96). -/
structure AdcState where
  slices   : List Slice
  target   : Nat                      -- position the relief slice calibrates for
  due      : Bool                     -- the interval has ended and the swap is awaited
  retired  : Bool
  noRelief : Bool
  clip     : Nat
  rms      : Nat
  deriving DecidableEq, Repr

/-- A laser transaction in progress (R105). -/
inductive LaserTxn where
  | srq | host (write : Bool) (addr : Nat) (data : Nat) | poll
  deriving DecidableEq, Repr

/-- The laser control port (R104 to R108). -/
structure LaserState where
  enabled : Bool                      -- the port acts (PORT_EN, or a transaction still in progress)
  txn     : Option LaserTxn
  srqWait : Bool
  hostCmd : Option (Bool × Nat × Nat)
  pollWait : Bool
  result  : Nat
  addr    : Nat
  data    : Nat
  statusF : Nat
  rst     : Bool                      -- LA_RST_N is low
  badReply : Bool                     -- the last reply failed its checksum
  code    : Nat
  ftLimit : Bool
  deriving DecidableEq, Repr

/-- The converter unit of a path. -/
structure CnvState where
  tx       : SideState
  rx       : SideState
  txDenied : Bool
  rxDenied : Bool
  outMuted : Bool                     -- the DAC outputs are at zero (R100)
  dacSat   : List Nat
  adc      : List AdcState
  laser    : LaserState
  deriving DecidableEq, Repr

/-! ### Receive DSP of a path (05_receive_dsp.md) -/

/-- The statistics registers latched each milestone second (R133). -/
structure RxStats where
  secLo : Nat
  valid : Bool
  cd    : Int
  fofs  : Int
  clk   : Int
  dgdMean : Nat
  dgdPeak : Nat
  agc   : Int
  pdl   : Nat
  sop   : Nat
  slips : Nat
  missed : Nat
  snr   : List Nat
  deriving DecidableEq, Repr

/-- A complex number of the signal processing. -/
structure Cx where
  re : Rat
  im : Rat
  deriving DecidableEq, Repr

/-- A dual-polarisation sample: X and Y. -/
abbrev Sig := Cx × Cx

/-- A 2 by 2 complex matrix, which acts on the X and Y components; rows `a b` and `c d`. -/
structure Mat2 where
  a : Cx
  b : Cx
  c : Cx
  d : Cx
  deriving DecidableEq, Repr

/-- The frequency-domain equaliser, bin by bin: the running averages and the taps (R117, R118). -/
structure Fde where
  pxy : List Mat2
  pyy : List Mat2
  w   : List Mat2
  deriving DecidableEq, Repr

/-- The end of a frame at the front-end correction: the last 128 samples of each DSP signal after the gain, and the
skews, in samples, and the word of `FE_IQ` that hold for them (R112). -/
structure FrontEdge where
  x    : List (List Rat)
  skew : List Rat
  iq   : Word
  deriving DecidableEq, Repr

/-- What the taps and the trackers of the frames of a second tell (R133, R135): the sum of the frames' DGD, their
number, the largest DGD, 0.1 ps, and the largest rotation rate, krad/s. -/
structure TapStats where
  dgd    : Nat
  frames : Nat
  peak   : Nat
  sop    : Nat
  deriving DecidableEq, Repr

/-- The samples on their way through the receive chain, and what its stages hold (R110 to R121). -/
structure RxChain where
  edge   : FrontEdge
  past   : List Sig                   -- the last corrected samples, in which the searcher looks for a signal (R126 to R128)
  mix    : Rat                        -- phase of the frequency shift at the next sample, turns (R113)
  front  : List Sig                   -- the window of the dispersion compensator (R113)
  comp   : List Sig                   -- compensated samples not yet resampled
  at'    : Rat                        -- place of the far end's next sample among them (R116)
  grid   : List Sig                   -- samples on the far end's grid, not yet equalised
  tail   : List Sig                   -- the last 320 of them before `grid`
  fde    : Fde
  eqd    : List (List (List Sig))     -- equalised frames that await the decoder: tracks of symbols (R117)
  jones  : List Mat2                  -- the matrix J of each track (R121)
  stat   : TapStats
  deriving DecidableEq, Repr

/-- What the SNR of a path is measured from (R124, R125), per track and polarisation, index 2 x track + polarisation. -/
structure SnrState where
  sums   : List (Rat × Rat)           -- sums of the superframe in progress, over pilots: |s|^2 and |v - s|^2
  frames : Nat                        -- its frames so far
  noise  : List Rat                   -- noise variance of the preceding superframe
  now    : List Nat                   -- SNR of the preceding superframe, 1/64 dB
  sec    : List Nat                   -- sum of the SNR of the superframes of this second
  secN   : Nat                        -- and their number
  cycle  : List Nat                   -- the same of the levelling cycle in progress
  cycleN : Nat
  deriving DecidableEq, Repr

/-- The receive DSP. `acq` is the acquisition state of R126 (0 off, 1 to 5, 6 locked). -/
structure RxdState where
  acq      : Nat
  frames   : Nat                      -- local frames spent in the state
  length   : Nat                      -- local frames the state lasts (S3: R127)
  cands    : List Int                 -- dispersion candidates of the S3 in progress
  candPos  : Nat                      -- the candidate that is evaluated next
  best     : Option (Int × Nat × Nat) -- the best candidate of the S3 in progress: dispersion, C in 1/8 dB, position
  position : Nat                      -- frame position of the training block, samples (R126)
  firstCand : Option Int              -- candidate to evaluate first (R128)
  cd       : Int                      -- chosen dispersion
  confirms : Nat
  cAcq     : Nat                      -- C of the acquired signal, and C in the last frame, 1/8 dB
  cNow     : Nat
  acqCount : Nat
  restarts : Nat
  sigAbsent : Bool
  searchAt : Option Nat               -- profile search: candidate index
  searchFrames : Nat
  searchHit : Bool                    -- a frame under the candidate had a correctable word and a readable tag
  lowRun   : Nat                      -- consecutive frames with C below LOCK_THR
  deadRun  : Nat                      -- consecutive frames without a correctable word
  restart  : Bool                     -- RESTART written, acts at the next frame boundary
  gain     : Int                      -- AGC gain G, 1/64 dB
  gainHist : List Int                 -- G of the last 16 frames
  freq     : Int                      -- frequency estimate, Hz
  df       : Int                      -- local oscillator correction, Hz
  fm       : Int                      -- measured offset, Hz
  fmSum    : Int                      -- residual offsets of the 1,024 frames in progress, Hz
  fmCount  : Nat                      -- and their number (R123)
  clk      : Int                      -- far-end clock offset, 0.01 ppm (R116)
  chain    : RxChain
  snr      : SnrState
  lockedAll : Bool                    -- locked for the whole second so far
  missed   : Nat
  slips    : Nat
  stats    : RxStats
  deriving DecidableEq, Repr

/-! ### Transmit DSP, tracks and FEC of a path (06, 07, 08) -/

/-- One transmitted frame: what the transmit DSP makes its samples from (R137 to R151): the mode and the profiles in
force, the coefficient set of the frame, the pin map, the error injection, and the frame's bytes. -/
structure TxFrame where
  path     : Path
  mode     : PathMode
  prof     : List Nat
  coef     : Sparse Word
  map      : Word
  inj      : Word
  overhead : Bytes
  slots    : List (Nat × Bytes)
  deriving DecidableEq, Repr

/-- The transmit DSP (R137 to R157). `coefAct` is the coefficient set in force, held as the register words of its
fields; the next copy is what the registers hold. -/
structure TxdState where
  running : Bool
  coefAct : Sparse Word
  coefFrozen : Bool
  prof    : List Nat                  -- profiles in force, tracks 0 to 15
  profNext : List Nat
  profRefused : Bool
  sent    : List (Option TxFrame)     -- what the DACs got in the last three frames, the latest first (R91)
  deriving DecidableEq, Repr

/-- A levelling change that is on its way through the milestone queue (R165, R169). -/
structure PendingChange where
  handle : Nat
  gen    : BitVec 16
  deriving DecidableEq, Repr

/-- Tracks and margin levelling of a path (R160 to R176).  -/
structure TrkState where
  rxProf   : List Nat
  rxProfNext : List Nat
  rxNextGen : BitVec 16
  cycle    : Nat                      -- frames of the cycle so far
  discard  : Bool
  reqNum   : Nat
  lastNum  : Nat
  reqBase  : BitVec 16
  reqSet   : List Nat
  reqAge   : Nat                      -- frames since the request was first sent
  reqDone  : Bool                     -- the request has been answered
  rxResp   : Nat
  txResp   : Nat
  answered : Nat                      -- number of the far request answered
  accepted : Nat
  refused  : Nat
  change   : Option PendingChange
  farProf  : List Nat                 -- far transmitter's profiles from the last usable tag block
  farFlags : Option Nat               -- byte 1216 of that block
  deriving DecidableEq, Repr

/-- The guard rails of one loop (R167 to R173): in force, pending, status and output. `loSince` and
`hiSince` are the local times since which every update was clamped to the lower or the upper rail. -/
structure RailState where
  min    : Int
  max    : Int
  step   : Nat
  freeze : Bool
  dwell  : Nat
  pMin   : Int
  pMax   : Int
  pStep  : Nat
  pFreeze : Bool
  pDwell : Nat
  clamped : Bool
  pinLo  : Bool
  pinHi  : Bool
  throttled : Bool
  refused : Bool
  loSince : Option Nat
  hiSince : Option Nat
  out    : Int
  deriving DecidableEq, Repr

/-- What the decoder counts in a second (R188). -/
structure FecCount where
  frames : Nat
  errFrames : Nat
  words  : Nat
  uncorr : Nat
  corr   : Nat
  iterSum : Nat
  maxUsed : Nat
  deriving DecidableEq, Repr

/-- The statistics latched each milestone second (R188). -/
structure FecStats where
  secLo  : Nat
  valid  : Bool
  cnt    : FecCount
  iMax   : Nat
  deriving DecidableEq, Repr

/-- The FEC unit (R177 to R194). `gd` is the grant in 0.1 mW. -/
structure FecState where
  iMax    : Nat
  gd      : Nat
  want    : Option (Nat × Nat)        -- level for which a request waits, and its cost in 0.1 mW
  iNext   : Option Nat                -- level that takes effect at the next frame boundary
  hitFree : Nat
  preDrop : Option Nat
  ivFrames : Nat
  ivHits  : Nat
  ivIter  : Nat
  ivWords : Nat
  llr     : Bool
  llrAll  : Bool
  cnt     : FecCount
  stats   : FecStats
  berAlarm : Bool
  uncorrSeen : Nat
  iOld    : Option Nat                -- I_max before the changes of this second (event 23)
  deriving DecidableEq, Repr

/-! ### Line framer of a path (09_line_frame.md) -/

/-- Performance seconds of one end (R211, R212). `pend` lists the seconds that are not final, oldest first, as
seconds [31:0], errored and severely errored. -/
structure PmEnd where
  pend    : List (Nat × Bool × Bool)
  unavail : Bool
  es      : Nat
  ses     : Nat
  uas     : Nat
  last    : Nat
  deriving DecidableEq, Repr

/-- A general channel (R214, R215): the message being sent (bytes left, first chunk still to send, ring offset after
its entry) and the message being received. -/
structure Chan where
  txRd    : Nat
  rxWr    : Nat
  discard : Nat
  overflow : Nat
  txErr   : Bool
  txMsg   : Option (Bytes × Bool × Nat)
  rxMsg   : Option Bytes
  deriving DecidableEq, Repr

/-- The values that the backward indications carry (R199, R210). -/
structure Backward where
  errored : Nat
  valid   : Bool
  uncorr  : Nat
  corr    : Nat
  deriving DecidableEq, Repr

/-- What the framer gathers over a milestone second (R208, R211). -/
structure LfrSecond where
  uncorr   : Nat
  errored  : Nat
  periods  : Nat
  raw      : BitVec 8                 -- defects raw at any time in the second
  monAll   : Bool                     -- monitored for the whole second
  bdi      : Bool                     -- BDI reported at any time in the second
  farSf    : Nat                      -- superframes whose backward values were taken
  farErr   : Nat
  farBad   : Bool                     -- one of them without backward valid
  farUncorr : Bool
  deriving DecidableEq, Repr

/-- The line framer. Defects are numbered as in `STATUS`: LOS 0, LOL 1, LOF 2, LOSF 3, PAIS 4, BDI 5, TIM 6, DEG 7.
`runs` counts, for the four timers, the periods in which the condition differed from the raw state. -/
structure LfrState where
  inFrame  : Bool
  cand     : Bool
  badWords : Nat
  inSf     : Bool
  expected : Nat
  lastCtr  : Option Nat               -- readable counter of the previous delivered frame
  badCtrs  : Nat
  prevExp  : Option Nat               -- expected counter of the previous alignment, advanced since
  raw      : BitVec 8
  rep      : BitVec 8
  sticky   : BitVec 8
  runs     : List Nat
  paisRun  : Nat
  bdiRun   : Nat
  bdiCause : Nat
  monitored : Bool
  degRun   : Nat
  accepted : Option Bytes
  asm      : Option Bytes             -- trace bytes of the superframe in progress, while assembled
  lastAsm  : Option Bytes
  asmCount : Nat
  sfCur    : Backward                 -- counts of the received superframe in progress
  sfFrames : Nat
  sfLast   : Backward                 -- of the most recent completed received superframe
  back     : Backward                 -- sent during the current transmit superframe
  farAt    : Option Nat               -- received superframe whose backward values were taken
  far      : Backward                 -- last backward values taken
  second   : LfrSecond
  near     : PmEnd
  farEnd   : PmEnd
  gcc      : List Chan
  viol     : Nat
  secViol  : Nat
  lastViol : Nat
  quarantine : Bool
  quarAt   : Nat                      -- local time at which the quarantine began
  txLatch  : Word
  rxLatch  : Word
  deriving DecidableEq, Repr

/-! ### Containers (10_containers.md) and the enciphering of their bytes (11_line_encryption.md) -/

/-- A segment of enciphered frames (R257): the key and salt it runs under, the counter of its first frame, its index in
the superframe, its epoch, the justification words and the enciphered bytes so far; `ok` (receive) is false once a
condition of R261 has failed. -/
structure Seg where
  key   : Bytes
  fc    : Nat
  idx   : Nat
  epoch : Nat
  jws   : Bytes
  data  : Bytes
  live  : Bool                        -- the next frame may continue it
  ok    : Bool
  deriving DecidableEq, Repr

/-- A container (R225 to R249, R257 to R262). Defects are numbered CAIS 0, CKEY 1, CAUTH 2, CTIM 3 (R207). -/
structure ContState where
  buf      : Bytes                    -- client bytes that wait for the mapper
  qual     : Bool                     -- the client qualified at the last frame
  txAis    : Bool
  blocked  : Bool
  rxState  : Nat
  rxS      : Nat
  rxType   : Nat
  rxParam  : Nat
  ais      : Bool                     -- container AIS was delivered downstream in the last received frame
  raw      : BitVec 4
  rep      : BitVec 4
  aisRun   : Nat                      -- consecutive readable words that enter CAIS
  clrRun   : Nat                      -- consecutive readable words that clear it
  keyRun   : Nat                      -- the same of CKEY
  keyClr   : Nat
  authBad  : Nat                      -- consecutive superframes with a failed checked segment
  authGood : Nat
  typeRun  : Nat                      -- consecutive trace words that speak against `typeBad`
  typeBad  : Bool
  accepted : Option Bytes
  asm      : Option Bytes
  lastAsm  : Option Bytes
  asmCount : Nat
  aisFrames : Nat
  errored  : Bool                     -- the data of the last received frame are marked errored (R227)
  jwUnread : Nat
  unitErr  : Nat
  delin    : Nat                      -- 0 hunt, 1 presync, 2 sync
  delinLost : Bool
  stream   : List (Bytes × Bool)      -- words not yet delineated, each with whether it is in an uncorrectable code word
  txSegs   : List Seg                 -- segments of the transmit superframe in progress, oldest first
  txTags   : List Bytes               -- tags of the previous transmit superframe
  rxSegs   : List Seg
  rxPrev   : List Seg                 -- segments of the previous received superframe, awaiting their tags
  authOk   : Nat
  authFail : Nat
  unchecked : Nat
  deriving DecidableEq, Repr

/-- The slip buffers of a Fleam lane (R242, R243). Tributary frames are held whole, oldest first. -/
structure Fleam where
  inWait   : List Bytes
  inPrimed : Bool
  inCur    : Option Bytes             -- frame being mapped, last read
  outWait  : List Bytes
  outPrimed : Bool
  outLast  : Option Bytes
  outPart  : Bytes                    -- received part of the tributary frame in progress
  inDrop   : Nat
  inRepeat : Nat
  outDrop  : Nat
  outRepeat : Nat
  bad      : Nat
  deriving DecidableEq, Repr

/-- A key slot set of a path (R253): the epoch, and for each container its transmit and receive half, key and salt in
36 bytes. -/
structure KeySet where
  txEpoch : BitVec 16                 -- the slot's epoch as each half has it: 0 once the half is retired (R254, R260)
  rxEpoch : BitVec 16
  tx    : List (Option Bytes)
  rx    : List (Option Bytes)
  deriving DecidableEq, Repr

/-- What a received frame gives for all its containers: whether the framer is in frame, and code word 0 correctable as
well, whether it is in superframe, the expected counter, the overhead, and the keys that the receive direction uses. -/
structure RxCtx where
  inFrame : Bool
  word0 : Bool
  inSf  : Bool
  fc    : Nat
  ov    : Bytes
  keys  : KeySet
  deriving DecidableEq, Repr

/-- A received frame that waits for the other path's frame of the same counter (R22): when it came, and for each bonded
container the bytes of its slots on the path, with whether their code words were uncorrectable. -/
structure BondFrame where
  upNs  : Nat
  ctx   : RxCtx
  parts : List (Nat × List (Bytes × Bool))
  late  : List Nat                    -- the containers for which a slot table swap of the path was overdue (R234)
  deriving DecidableEq, Repr

/-- The slot tables of a path: the copy that each direction uses, and the next copy (R222, R80). Entries have the
layout of R222. `bond` holds the received frames that wait to be deskewed (R22), oldest first. -/
structure PathCnt where
  tx     : List Nat
  rx     : List Nat
  next   : List Nat
  bond   : List BondFrame
  deriving DecidableEq, Repr

/-- All containers, by path × 256 + number, and all Fleam lanes. -/
structure CntState where
  conts : Sparse ContState
  lanes : Sparse Fleam
  skew  : Bool                        -- the bonded-skew condition holds (R22)
  deriving DecidableEq, Repr


/-- Line encryption and the Varrum channel of a path (R253 to R282). `s0` and `s1` are the two key slots; `txOne` and
`rxOne` tell that the direction uses `s1`. -/
structure CryState where
  s0       : KeySet
  s1       : KeySet
  txOne    : Bool
  rxOne    : Bool
  txAge    : Nat
  rxAge    : Nat
  txLast   : Option Nat               -- counter of the last frame under the transmit key, of the last under the receive key
  rxLast   : Option Nat
  fill     : Bytes                    -- fill key and fill salt, 36 bytes (R259)
  state    : Nat                      -- the Varrum state (R276)
  want     : Bool                     -- a rekey or a new peer asks for an attempt
  rowWait  : Bool
  responder : Bool
  peerOk   : Bool
  pin      : Bool                     -- the attempt requires the pinned identifier: `PIN` at its start (R281)
  hello    : Bytes                    -- own HELLO of the attempt
  peerHello : Option Bytes
  rxNext   : Nat                      -- sequence number expected from the peer
  certOwn  : Bytes
  certPeer : Bytes
  kexInit  : Bytes
  kexResp  : Bytes
  ecdhKey  : Bytes                    -- ephemeral secrets, zeroised when the attempt ends (R274)
  kemSeed  : Bytes
  prk      : Bytes
  th       : Bytes
  epoch    : Nat                      -- the new epoch e of the attempt
  lastSent : List Bytes               -- the last messages, which a resend repeats (R276)
  sent     : List Bytes               -- all of the attempt, which a NAK may name (R278)
  reply    : Option (List Bytes × Nat) -- messages being prepared, and the state that sending them enters
  resends  : Nat
  nakRx    : Nat
  nakTx    : Nat
  doneCnt  : Nat
  failCnt  : Nat
  peerSeen : Bytes
  backoff  : Nat                      -- length of the backoff in force, ms
  rekeyRun : Bool                     -- the agreement wanted or in progress is the one that the due frame asks for (R265)
  byAge    : Bool                     -- only the age of the key asks for it (R265, R266)
  txQ      : List (Bytes × Bool)      -- messages to send: the bytes left, and whether the first chunk is still to come
  rxMsg    : Option Bytes
  deriving DecidableEq, Repr

/-! ### Trust core (12_trust_and_otp.md) -/

/-- An OTP commit that runs or waits for its grant (R283): who asked (0 trust core, 1 loader, 2 memory controller), the
command, the first OTP word of the region, what it aims at (R315), the words with the bits to set, and whether the
lifecycle transition of `PROVISION` follows. -/
structure OtpCommit where
  asker   : Nat
  op      : Nat
  region  : Nat
  aim     : Nat
  words   : List (Nat × BitVec 64)
  waiting : Bool
  next    : Bool
  deriving DecidableEq, Repr

/-- A tenant page's job between start and completion (R304 to R310): its descriptor's operation, index, tag and interrupt
bit, the status it will end with, the DMA writes it makes, its whole output (address and length), the returned IV, the
snapshot of its key, and whether that key has been erased since. -/
structure Job where
  op     : Nat
  idx    : Nat
  tag    : Word
  irq    : Bool
  status : Nat
  data   : Bytes
  dst    : Nat
  extent : Nat
  opens  : Bool
  iv     : Bytes
  key    : Bytes
  erased : Bool
  deriving DecidableEq, Repr

/-- A tenant page (R303 to R314): its key slots (type and key), rings and pointers. -/
structure Page where
  keys   : List (Option (Nat × Bytes))
  sq     : Sparse Word
  sqHead : Nat
  sqTail : Nat
  cq     : Sparse Word
  cqHead : Nat
  cqTail : Nat
  irqEn  : Bool
  run    : Option Job
  jobs   : Nat
  faults : Nat
  view   : Sparse Word                -- selects and key of the counter view (R473), by page offset
  flowRes : Nat
  flowWait : Bool
  flowPkts : Nat
  flowBytes : Nat
  deriving DecidableEq, Repr

/-- The AES-256 CTR_DRBG of NIST SP 800-90A (R300): its key and its counter block. -/
structure Drbg where
  key : Bytes
  v   : Bytes
  deriving DecidableEq, Repr

/-- The trust core (R283 to R315). -/
structure TruState where
  otp      : Sparse (BitVec 64)
  ready    : Bool
  identBad : Bool
  fault    : Bool                     -- the start-up test did not pass in time (R301)
  testing  : Bool                     -- the start-up test of the random generator runs
  rngFails : Nat                      -- health failures of this milestone second
  rngFail  : Bool
  drbg     : Drbg
  br       : Option Bytes             -- boot random, once supplied
  pj       : Bytes
  jobCtr   : Nat
  busy     : Option OtpCommit
  result   : Nat
  resOp    : Nat
  detail   : Nat
  chain    : Option Bytes
  pages    : Sparse Page
  deriving DecidableEq, Repr

/-! ### Scheduler (14_scheduling.md). Times are scheduler time, 2^-16 ns. -/

/-- A policer's bucket and counts (R350 to R352). -/
structure PolState where
  tat      : Nat
  tokens   : Nat
  lastTick : Nat
  conf     : Nat
  exc      : Nat
  deriving DecidableEq, Repr

/-- A packet in a queue: its bytes from destination address to FCS, its enqueue time, and its cells (R355). -/
structure QPkt where
  data  : Bytes
  enq   : Nat
  cells : List Nat
  deriving DecidableEq, Repr

/-- A queue (R354 to R364). -/
structure QState where
  pkts     : List QPkt
  elig     : Nat                      -- next eligible time E
  sTag     : Nat
  fTag     : Nat
  depth    : Nat
  depthMax : Nat
  depthPrev : Nat
  soj      : Nat
  sojMax   : Nat
  sojPrev  : Nat
  admDrop    : Nat
  disabled : Nat
  flush    : Nat
  deriving DecidableEq, Repr

/-- A calendar entry (R358): the queue, its exact E and its bin. -/
structure CalEntry where
  queue : Nat
  elig  : Nat
  bin   : Nat
  deriving DecidableEq, Repr

/-- The scheduler: policers, queues, cells in use, the virtual time of each container's bands, the calendar with the bin
to process next, and when the gate lists in force of each path began. -/
structure SchState where
  time   : Nat
  pols   : Sparse PolState
  queues : Sparse QState
  used   : Nat
  virt   : Sparse Nat
  cal    : List CalEntry
  calPos : Nat
  carry  : Nat
  gateA  : Nat
  gateB  : Nat
  deriving DecidableEq, Repr

/-! ### Packet layer (13_packet_path.md) -/

/-- A packet that waits for a pass, or whose pass runs: its number, ingress port, pass number, arrival time, and frame
from destination address up to the FCS, which is left out. -/
structure PktRef where
  id    : Nat
  port  : Nat
  num   : Nat
  time  : Nat
  frame : Bytes
  deriving DecidableEq, Repr

/-- An engine's pass (R317). `keys` holds the seven key fields; `limit0` is E at pass start. -/
structure Pass where
  pkt     : PktRef
  pc      : Nat
  cycles  : Nat
  cursor  : Word
  headers : Nat
  regs    : List Word
  eq      : Bool
  lt      : Bool
  keys    : List Bytes
  flags   : Byte
  limit0  : Nat
  limit   : Nat
  conflict : Bool
  deriving DecidableEq, Repr

/-- Where a forwarded packet goes (R340). -/
structure Forward where
  path    : Path
  cont    : Nat
  cls     : Nat
  data    : Bytes
  deriving DecidableEq, Repr

/-- A packet of a port's release order (R316): without outcome while its passes run. -/
structure OrderEntry where
  id  : Nat
  out : Option Forward
  deriving DecidableEq, Repr

/-- Counters of an ingress port (R346). -/
structure PktPort where
  depth    : Nat
  length   : Nat
  detour   : Nat
  cycle    : Nat
  actErr   : Nat
  parseOvf : Nat
  progDrop : Nat
  parsed   : Nat
  deriving DecidableEq, Repr

/-- A flow cache line (R330): the home of its context (table, bucket, way), key, result and counters. -/
structure Line where
  t      : Nat
  b      : Nat
  w      : Nat
  key    : Bytes
  result : Bytes
  pkts   : Nat
  bytes  : Nat
  dirty  : Bool
  deriving DecidableEq, Repr

/-- What the packet layer counts in a milestone second (R346). -/
structure PktSecond where
  hits   : Nat
  misses : Nat
  absent : Nat
  learned : Nat
  learnFail : Nat
  learnOvf : Nat
  cycles : Nat
  passes : Nat
  deriving DecidableEq, Repr

/-- The packet layer. `cache` maps a set to its lines, most recently used first; `cmd` is the host's running flow
command; `tenantQ` the tenant pages whose flow reads wait. -/
structure PktState where
  engines : Sparse (Option Pass)
  waiting : List (PktRef × Nat)
  order   : Sparse (List OrderEntry)
  nextId  : Nat
  ports   : Sparse PktPort
  sig     : Sparse Word
  cache   : Sparse (List Line)
  learn   : List (Bytes × Bytes)
  cmd     : Option Nat
  tenantQ : List Nat
  result  : Nat
  moves   : Nat
  table   : Nat
  way     : Nat
  bucket  : Nat
  pkts    : Nat
  bytes   : Nat
  second  : PktSecond
  latched : PktSecond
  latchSec : Nat
  deriving DecidableEq, Repr

/-! ### Host lanes and the shelf ring (15_host_lanes.md) -/

/-- A fast port (R385, R396). `egress` holds the bytes that wait in the egress buffer (R369, R375); `ownSeen` is
the seen bit this end sends (R386); `boundQ` is the host-bound buffer (R342). -/
structure PortState where
  state    : Nat
  cause    : Nat
  capMismatch : Bool
  rxAis    : Bool
  ppm      : Int
  restarts : Nat
  hdrErr   : Nat
  rxErrored : Bool                    -- the stream bytes of the last frame set are marked errored (R376)
  stuffNeg : Nat
  stuffPos : Nat
  macDrop  : Nat
  rsUncorr : Nat
  egress   : Bytes
  arrive   : Bytes                    -- bytes that a carriage port's container delivers in the frame period in progress
  egressRun : Bool                    -- the transmitter draws from the egress buffer
  egressAis : Bool
  quiet    : Nat                      -- frame boundaries since the container last delivered
  rxBits   : List Bool                -- block bits received that do not fill a byte yet (R236)
  txPart   : List Bool                -- client bits sent that do not fill a 257-bit block yet, and blocks that do not fill
  txBits   : List Bool                -- a code word (R236, R370)
  txBlocks : Nat                      -- client blocks since the last alignment markers
  txCount  : Nat                      -- frame count of the next carriage frame set
  ownSeen  : Bool
  aligned  : Bool                     -- the Ethernet PCS is aligned
  skewed   : Bool                     -- the lanes' frame counts differ by more than 4 frames (R376)
  bySkew   : Bool                     -- state 3 was entered for that reason
  boundQ   : List (Nat × Bytes)       -- each packet with its class
  boundBytes : Nat
  deriving DecidableEq, Repr

/-- What the receiver of one carriage lane has of one frame (R372, R376). -/
structure CarriageRx where
  wordErrors : Nat      -- bits of the alignment word in error
  crcRaw     : Bool     -- the header CRC checks on the bits as received
  header     : Bytes    -- bytes 2 to 4, corrected
  readable   : Bool     -- code word 0 is correctable
  stream     : Bytes    -- payload area, corrected, still scrambled (R373)
  deriving DecidableEq, Repr

/-- A fast lane (R376, R380 to R388). -/
structure FastLane where
  cm2      : Int
  cm1      : Int
  cp1      : Int
  viol     : Nat
  lastViol : Nat
  secViol  : Nat
  quarantine : Bool
  ready    : Bool
  readyRun : Nat                      -- consecutive frames with ready sent and received
  signal   : Bool
  locked   : Bool
  goodRun  : Nat
  badRun   : Nat
  rxCount  : Nat
  rxWait   : List CarriageRx          -- received frames that wait for the other lanes' (R376)
  toggle   : Bool                     -- toggle last acknowledged
  lastReq  : Option Nat               -- last request content seen
  limit    : Bool                     -- result last answered
  ownReq   : Nat                      -- request field that the lane sends (R380, R382)
  prbs     : Nat                      -- state of the training pattern (R380)
  capRun   : Nat                      -- consecutive matching capability records
  farSeen  : Bool
  deriving DecidableEq, Repr

/-- A legacy lane (R377 to R379, R387). -/
structure LegacyLane where
  state    : Nat
  cv       : Nat
  secCv    : Nat
  quarantine : Bool
  viol     : Nat
  lastViol : Nat
  rd       : Bool                     -- running disparity of the transmitter (R377): false negative
  rxRd     : Bool                     -- running disparity of the receiver
  badLen   : Nat                      -- consecutive Fleam frames of another length (R379)
  cvAgo    : List Nat                 -- invalid code groups of the last 1,024: how many groups ago (R379)
  deriving DecidableEq, Repr

structure HsfState where
  ports : Sparse PortState
  lanes : Sparse FastLane
  deriving DecidableEq, Repr

/-- Legacy lanes and the ring (R389 to R396). -/
structure HslState where
  lanes    : Sparse LegacyLane
  bypassOpen : Bool
  vddRing  : Bool                     -- VDD_RING is above the threshold of its detector (R507)
  closeCause : Nat
  msgRx    : Nat
  msgBad   : Nat
  insertions : Nat
  timeDue  : Bool                     -- a time message is due 500 ms after the last /RM/ sent
  deriving DecidableEq, Repr

def freshPort : PortState :=
  { state := 0, cause := 0, capMismatch := false, rxAis := false, ppm := 0, restarts := 0, hdrErr := 0, rxErrored := false,
    stuffNeg := 0, stuffPos := 0, macDrop := 0, rsUncorr := 0, egress := [], arrive := [], quiet := 0, rxBits := [],
    txPart := [], txBits := [], txBlocks := 0, egressRun := false, egressAis := true, txCount := 0, ownSeen := false,
    aligned := false, skewed := false, bySkew := false, boundQ := [], boundBytes := 0 }

def freshFastLane : FastLane :=
  { cm2 := 0, cm1 := 0, cp1 := 0, viol := 0, lastViol := 0, secViol := 0, quarantine := false, ready := false,
    readyRun := 0, signal := false, locked := false, goodRun := 0, badRun := 0, rxCount := 0, rxWait := [], toggle := false,
    lastReq := none, limit := false, ownReq := 0, prbs := 0, capRun := 0, farSeen := false }

def freshLegacyLane : LegacyLane :=
  { state := 0, cv := 0, secCv := 0, quarantine := false, viol := 0, lastViol := 0, rd := false,
    rxRd := false, badLen := 0, cvAgo := [] }

def resetHsl : HslState :=
  { lanes := [], bypassOpen := false, vddRing := true, closeCause := 0, msgRx := 0, msgBad := 0, insertions := 0,
    timeDue := false }

/-! ### Monitor (17_monitor.md) -/

/-- A queued or running conversion (R424, R425): of a sequence, or a dither sample of a path. `due` is the local time at
which it becomes due; `ready` tells that it has. -/
structure Conv where
  dither : Bool
  num    : Nat                        -- sequence; for a dither sample the path
  chan   : Nat
  due    : Nat
  ready  : Bool
  urgent : Bool
  resEn  : Bool
  redone : Bool                       -- restarted after an abort
  turn   : Nat                        -- of a dither sample: its turn, and the half-period of it (R438)
  half   : Nat
  field  : Int × Int                  -- gain and offset of the field record in force when it started (R443)
  deriving DecidableEq, Repr

/-- The settings of a filter chain that are in force (R429, R430). -/
structure ChainCfg where
  phase : Bool
  seq   : Nat
  chan  : Nat
  taps  : Nat
  r     : Nat
  coefs : List Int
  deriving DecidableEq, Repr

/-- A filter chain (R429 to R433). -/
structure Chain where
  cfg   : ChainCfg
  integ : List Int                    -- the four integrators of the CIC
  comb  : List Int                    -- and its four delays
  phase : Nat                         -- inputs since the last CIC output
  hist  : List Int                    -- CIC outputs, newest first
  out   : Int
  count : Nat
  left  : Nat                         -- outputs still to be marked unsettled
  unsettled : Bool
  above : Bool
  below : Bool
  stkHi : Bool
  stkLo : Bool
  refused : Bool
  deriving DecidableEq, Repr

/-- A dither turn (R438), with the settings that it started with. -/
structure Turn where
  loop  : Nat
  half  : Nat                         -- half-periods begun, from 1
  amp   : Nat
  cyc   : Nat
  delay : Nat
  halfUs : Nat                        -- length of a half-period
  began : Nat                         -- local time of the last half-period boundary
  taken : Nat                         -- samples taken
  err   : Int                         -- samples in + halves less samples in - halves
  deriving DecidableEq, Repr

structure DitherState where
  turn : Option Turn
  last : Nat                          -- loop of the last turn
  pwrAt : Option Nat                  -- local time of the last update of loop 6
  turns : Nat                         -- turns begun: the number of the turn that runs
  deriving DecidableEq, Repr

structure MonState where
  queue    : List Conv
  running  : Option Conv
  aborted  : Option Conv
  calWait  : Bool
  calRun   : Bool
  calDenied : Bool
  calBad   : Bool
  trims    : List (Int × Int)         -- gain and offset trims of the 16 bias outputs (R434)
  fcal     : Option Bytes
  fcalBad  : Bool
  resValid : Bool
  resOver  : Bool
  resSeq   : Nat
  resChan  : Nat
  resCode  : Nat
  timerAt  : List Nat                 -- local time of the last tick of each timer (R423)
  trigOvr  : Nat
  aborts   : Nat
  resOvr   : Nat
  chains   : Sparse Chain
  dithA    : DitherState
  dithB    : DitherState
  deriving DecidableEq, Repr

/-- The settings of a chain after reset: one tap of -1.0, decimation by 2 (R445). -/
def freshChain : Chain :=
  { cfg := ⟨false, 0, 0, 1, 2, (-131072) :: List.replicate 63 0⟩, integ := [0, 0, 0, 0], comb := [0, 0, 0, 0], phase := 0,
    hist := [], out := 0, count := 0, left := 0, unsettled := false, above := false, below := false, stkHi := false,
    stkLo := false, refused := false }

def resetDither : DitherState := ⟨none, 5, none, 0⟩

def resetMon : MonState :=
  { queue := [], running := none, aborted := none, calWait := false, calRun := false, calDenied := false, calBad := false,
    trims := List.replicate 16 (0, 0), fcal := none, fcalBad := false, resValid := false, resOver := false, resSeq := 0,
    resChan := 0, resCode := 0, timerAt := [0, 0, 0, 0], trigOvr := 0, aborts := 0, resOvr := 0, chains := [], dithA := resetDither, dithB := resetDither }

/-! ### The whole machine -/

/-- What a command sends out of the device. These are the model's own record of the outputs of the last command. -/
inductive Out where
  | readData (ses : Session) (data : Word)            -- a register read's word
  | result (ses : Session) (code : Nat)               -- a status byte or response result (R455)
  | memData (data : Bytes) (poisoned : Bool)          -- a BAR4 completion (R403)
  | msix (vector : Nat)                               -- an MSI-X message
  | laser (p : Path) (baud : Nat) (frame : BitVec 32) -- a laser command frame and its bit rate (R104)
  | line (p : Path) (overhead : Bytes)                -- the overhead of a transmitted line frame
  | lineSlots (p : Path) (slots : List (Nat × Bytes)) -- container bytes of a transmitted line frame
  | dac (p : Path) (muted : Bool) (f : Option TxFrame) -- the frame whose samples the DACs get; none: zero samples (R154)
  | varrum (p : Path) (msg : Bytes)                   -- a Varrum message handed to the overhead
  | packet (dest : Nat) (data : Bytes)                -- an Ethernet frame sent by host port `dest`
  | unit (p : Path) (cont : Nat) (data : Bytes)       -- a packet unit sent by a container
  | lane (lane : Nat) (groups : List Group) (codes : List Nat) -- code groups sent on a legacy lane, and their ten bits
  | fast (lane : Nat) (frame : Bytes) (levels : List Nat) -- a frame sent on a fast lane, and its symbols
  | client (port : Nat) (word : List Nat)             -- a code word sent by a transparent Ethernet port: its symbols
  | localFault (port : Nat)                           -- a host port sends the local fault sequence for a frame period
  | dma (addr : Nat) (data : Bytes)                   -- a DMA write to host memory
  | dmaRead (addr : Nat) (len : Nat)                  -- a DMA read of host memory
  | monitor (dac : Nat) (code : Nat) (volts : Rat)    -- a bias DAC output (R434)
  | pass (engine : Nat)                               -- an engine took a pass
  deriving DecidableEq, Repr

/-- The units of one path. -/
structure PathState where
  cnv : CnvState
  rxd : RxdState
  txd : TxdState
  trk : TrkState
  fec : FecState
  rxMode : Option PathMode            -- path mode of the receive generation (R79)
  rxModeNext : Option PathMode        -- mode that a pending amendment stages for the receive direction (R143)
  lfr : LfrState
  cnt : PathCnt
  cry : CryState
  deriving DecidableEq, Repr

/-- The machine: every register, table, queue, counter and mode that the spec gives the AR3216. -/
structure State where
  pending : List Instr                -- commands that wait, first in, first out
  out     : List Out                  -- outputs of the last command (the model's own)
  batch   : List Occ                  -- occurrences of the command in progress (empty between commands)
  freeCtr : Nat                       -- counter that free values are drawn with (the model's own)
  upNs    : Nat                       -- local nanoseconds since the last device reset
  phase   : Nat                       -- milestone time since the last frame boundary, 2^-32 ns
  txFc    : Nat                       -- the transmit frame counter (R201)
  fcLoaded : Bool                     -- it has been set since the last device reset
  cfg     : Sparse Word               -- register words, by offset and selected item
  shadow  : Sparse Word               -- class M words written and not yet applied (R70)
  custom  : List Nat                  -- basic mode words whose profile reads as custom (R10)
  mst     : MstState
  evt     : EvtState
  ctl     : CtlState
  pmc     : PmcState
  mem     : MemState
  pwr     : PwrState
  rte     : RteState
  rails   : Sparse RailState          -- guard rails by loop identifier (R167)
  pa      : PathState
  pb      : PathState
  cnt     : CntState
  tables  : Sparse Word               -- words of the class M and double-buffered tables in force, by table and word
  tblShadow : Sparse Word             -- their shadows (R70, R343, R353)
  hbDrop  : Nat
  tru     : TruState
  sch     : SchState
  pkt     : PktState
  hsf     : HsfState
  hsl     : HslState
  mon     : MonState
  deriving DecidableEq, Repr

/-! ### The machine right after a device reset (R483)

Values that the spec does not state for reset are the log's (notes/assumptions): queues, runs and the model's own
fields are empty or zero. -/

def resetGens : Gens := ⟨0, 0, 0, 0, 0, 0⟩

def resetPathMst : PathMst :=
  { tx := resetGens, rx := resetGens, staged := [], rxStaged := [], lastTag := none, lastGate := 0, lastCoef := 0,
    farAmd := 0, farImage := 0, unknownRun := List.replicate 6 0, matchRun := List.replicate 6 0, mismatch := 0,
    announced := [], recPos := 0 }

def resetMst : MstState :=
  { sec := 0, ns := 0, frac := 0, latchLo := 0, latchNs := 0, time := .free, qualified := 0, markerSeen := false, markAt := 0,
    lastMsgSec := none, msgTime := none, msgGood := false, badSecs := 0, traceable := false, msgFlags := 0, leapSeen := false,
    slew := 0, rate := 0, msgErr := 0, stepped := false, queue := [], handle := 0, result := 0, perSum := 0, perCnt := 0,
    period := (1024 * 4294967296, 1),
    pathA := resetPathMst, pathB := resetPathMst }

def resetEvt : EvtState :=
  { pend := 0, raised := [], supp := [], seq := 0, wr := 0, lost := none, holdoff := [], held := [], pba := 0,
    spill := [], spillNext := 0, spillFlush := false, sectors := [], spillRead := none, spillDone := false }

def freeLock : LockState := ⟨none, false, []⟩

/-- A session's registers after its reset: the lease is 10 ms (R478). -/
def freshSession : SessState := ⟨0, false, 0, 0, 0, 0, 10⟩

def resetCtl : CtlState :=
  { sessions := [], locks := [], mismatch := [], mntRead := none, pcieUp := false, restarts := [] }

def resetPmc : PmcState :=
  { cnt := [], ovf := [], latched := [], dev := 0, dumps := 0, missed := 0, trunc := 0, dumpNum := 0, job := none,
    wstFail := 0, wstStarved := 0, wstFailed := 0, wstDone := 0, wstRunning := 0, wstBlock := 0, wstEngine := 0 }

def resetScrub : ScrubState :=
  { running := false, pass := 0, pos := 0, elapsed := 0, period := 60, late := false, quota := 0, passes := 0,
    lateCnt := 0 }

def resetMem : MemState :=
  { bytes := [], written := [], poison := [], upset := [], merge := [], stalled := [], watch := [], ledger := [],
    remap := [], factory := [], scrub := resetScrub, corr := 0, uncorr := 0, sramCorr := 0, sramUncorr := 0,
    lostLines := 0, merges := 0, onCorr := 0, onUncorr := 0, watchOvf := 0, arbUse := List.replicate 8 0, cap := 0,
    repairResult := 0, repairWait := false, repairBusy := false, sramUpset := [], sram := [], sramMap := [] }

def resetPwr : PwrState :=
  { inReset := true, lineRef := true, hostRef := true, sysRef := true, grants := [], queue := [], denied := 0,
    timeouts := 0, overCeil := false, warn := false, hot := false, excess := 0, tripRun := 0, pinHold := true, tripHold := false,
    swHold := false, temps := List.replicate 12 0, temp1s := List.replicate 12 (-32768),
    tempMax := List.replicate 12 0, thermBad := false, thermOff := List.replicate 12 0, cause := 1, count := 0,
    rail := 0, warned := 0, booted := false }

/-! ### The image, the converters and the path DSP -/

def noImage : ImageCfg :=
  { inst := 0, modeA := none, modeB := none, ports := [], lanes := [], conts := [], conns := [], expert := 0,
    rwl := [], grants := [] }

def resetRte : RteState :=
  { active := false, cfg := noImage, src := 0, version := 0, gen := 0, amdNum := 0, digest := [], advance := false,
    fabric := 0, op := none, failCode := 0, failDetail := 0, failed := false, amd := none, nextBoot := 0,
    validA := false, validB := false, slotA := .blank, slotB := .blank, flashSize := 0x04000000, program := [] }

def resetAdc : AdcState :=
  { slices := List.replicate 65 ⟨3, 0, ⟨0, 0, 0⟩, ⟨0, 0, 0⟩⟩, target := 0, due := false, retired := false, noRelief := false,
    clip := 0, rms := 0 }

def resetLaser : LaserState :=
  { enabled := false, txn := none, srqWait := false, hostCmd := none, pollWait := false, result := 0, addr := 0,
    data := 0, statusF := 0, rst := false, badReply := false, code := 0x8000, ftLimit := false }

def resetCnv : CnvState :=
  { tx := .off, rx := .off, txDenied := false, rxDenied := false, outMuted := true, dacSat := List.replicate 4 0,
    adc := List.replicate 4 resetAdc, laser := resetLaser }

def resetRxStats : RxStats := ⟨0, false, 0, 0, 0, 0, 0, 0, 0, 0, 0, 0, List.replicate 32 0⟩

/-- The receive chain with nothing in it. -/
def resetChain : RxChain :=
  { edge := ⟨[], [], 0⟩, past := [], mix := 0, front := [], comp := [], at' := 0, grid := [], tail := [],
    fde := ⟨[], [], []⟩, eqd := [], jones := [], stat := ⟨0, 0, 0, 0⟩ }

def resetSnr : SnrState :=
  { sums := [], frames := 0, noise := [], now := [], sec := [], secN := 0, cycle := [], cycleN := 0 }

def resetRxd : RxdState :=
  { acq := 0, frames := 0, length := 0, cands := [], candPos := 0, best := none, firstCand := none, cd := 0,
    confirms := 0, position := 0, cAcq := 0, cNow := 0, acqCount := 0, restarts := 0, sigAbsent := false, searchAt := none,
    searchFrames := 0, searchHit := false, lowRun := 0, deadRun := 0, restart := false, gain := 0, gainHist := [],
    freq := 0, df := 0, fm := 0, fmSum := 0, fmCount := 0, clk := 0, chain := resetChain, snr := resetSnr, lockedAll := false, missed := 0, slips := 0, stats := resetRxStats }

def resetTxd : TxdState :=
  { running := false, coefAct := [], coefFrozen := false, prof := List.replicate 16 0,
    profNext := List.replicate 16 0, profRefused := false, sent := [] }

def resetTrk : TrkState :=
  { rxProf := List.replicate 16 0, rxProfNext := List.replicate 16 0, rxNextGen := 0, cycle := 0, discard := false,
    reqNum := 0, lastNum := 0, reqBase := 0,
    reqSet := List.replicate 16 0, reqAge := 0, reqDone := false, rxResp := 0, txResp := 0, answered := 0, accepted := 0, refused := 0,
    change := none, farProf := List.replicate 16 0,
    farFlags := none }

def resetFecCount : FecCount := ⟨0, 0, 0, 0, 0, 0, 0⟩

def resetFec : FecState :=
  { iMax := 12, gd := 0, want := none, iNext := none, hitFree := 0, preDrop := none, ivFrames := 0, ivHits := 0,
    ivIter := 0, ivWords := 0, llr := false, llrAll := false, cnt := resetFecCount,
    stats := ⟨0, false, resetFecCount, 0⟩, berAlarm := false, uncorrSeen := 0, iOld := none }

def resetPm : PmEnd := ⟨[], false, 0, 0, 0, 0⟩

def resetChan : Chan := ⟨0, 0, 0, 0, false, none, none⟩

def noBackward : Backward := ⟨0, false, 0, 0⟩

def freshSecond : LfrSecond := ⟨0, 0, 0, 0, false, false, 0, 0, false, false⟩

def resetLfr : LfrState :=
  { inFrame := false, cand := false, badWords := 0, inSf := false, expected := 0, lastCtr := none, badCtrs := 0,
    prevExp := none, raw := 0, rep := 0, sticky := 0, runs := [0, 0, 0, 0], paisRun := 0, bdiRun := 0, bdiCause := 0,
    monitored := false, degRun := 0, accepted := none, asm := none, lastAsm := none, asmCount := 0,
    sfCur := noBackward, sfFrames := 0, sfLast := noBackward, back := noBackward, farAt := none,
    far := noBackward, second := freshSecond, near := resetPm, farEnd := resetPm, gcc := List.replicate 8 resetChan,
    viol := 0, secViol := 0, lastViol := 0, quarantine := false, quarAt := 0, txLatch := 0, rxLatch := 0 }


def freshCont : ContState :=
  { buf := [], qual := false, txAis := false, blocked := false, rxState := 0, rxS := 0, rxType := 0, rxParam := 0,
    ais := false, raw := 0, rep := 0, aisRun := 0, clrRun := 0, keyRun := 0, keyClr := 0, authBad := 0, authGood := 0,
    typeRun := 0, typeBad := false, accepted := none, asm := none, lastAsm := none, asmCount := 0, aisFrames := 0, errored := false,
    jwUnread := 0, unitErr := 0, delin := 0, delinLost := false, stream := [], txSegs := [], txTags := [],
    rxSegs := [], rxPrev := [], authOk := 0, authFail := 0, unchecked := 0 }

def freshFleam : Fleam :=
  { inWait := [], inPrimed := false, inCur := none, outWait := [], outPrimed := false, outLast := none, outPart := [],
    inDrop := 0, inRepeat := 0, outDrop := 0, outRepeat := 0, bad := 0 }

def emptyKeys : KeySet := ⟨0, 0, List.replicate 256 none, List.replicate 256 none⟩


def resetCry : CryState :=
  { s0 := emptyKeys, s1 := emptyKeys, txOne := false, rxOne := false, txAge := 0, rxAge := 0, txLast := none, rxLast := none, fill := [],
    state := 0, want := false, rowWait := false, responder := false, peerOk := false, pin := false, hello := [], peerHello := none,
    rxNext := 0, certOwn := [], certPeer := [], kexInit := [], kexResp := [], ecdhKey := [], kemSeed := [], prk := [],
    th := [], epoch := 0, lastSent := [], sent := [], reply := none, resends := 0, nakRx := 0, nakTx := 0, doneCnt := 0,
    failCnt := 0, peerSeen := List.replicate 16 0, backoff := 0, rekeyRun := false, byAge := false, txQ := [], rxMsg := none }


def freshPage : Page :=
  { keys := List.replicate 8 none, sq := [], sqHead := 0, sqTail := 0, cq := [], cqHead := 0, cqTail := 0,
    irqEn := false, run := none, jobs := 0, faults := 0, view := [], flowRes := 0, flowWait := false, flowPkts := 0, flowBytes := 0 }

/-- OTP of an unowned part without calibration records (log 30): identifier, lot and seed zero, part code 1 in word 2,
the check word over words 0 to 14, and the four lifecycle copies `UNOWNED`. -/
def resetOtp : Sparse (BitVec 64) :=
  [(2, 0x1000), (15, 0x23B13012), (346, 1), (347, 1), (348, 1), (349, 1)]

def resetTru : TruState :=
  { otp := resetOtp, ready := false, identBad := false, fault := false, testing := true, rngFails := 0,
    rngFail := false, drbg := ⟨[], []⟩, br := none, pj := [0, 0, 0, 0], jobCtr := 0, busy := none, result := 0, resOp := 0, detail := 0,
    chain := none, pages := [] }

def freshPol : PolState := ⟨0, 0, 0, 0, 0⟩

def freshQueue : QState := ⟨[], 0, 0, 0, 0, 0, 0, 0, 0, 0, 0, 0, 0⟩

def resetSch : SchState :=
  { time := 0, pols := [], queues := [], used := 0, virt := [], cal := [], calPos := 0, carry := 0, gateA := 0, gateB := 0 }

def freshPktPort : PktPort := ⟨0, 0, 0, 0, 0, 0, 0, 0⟩

def freshPktSecond : PktSecond := ⟨0, 0, 0, 0, 0, 0, 0, 0⟩

def resetPkt : PktState :=
  { engines := [], waiting := [], order := [], nextId := 0, ports := [], sig := [], cache := [], learn := [], cmd := none,
    tenantQ := [], result := 0, moves := 0, table := 0, way := 0, bucket := 0, pkts := 0, bytes := 0,
    second := freshPktSecond, latched := freshPktSecond, latchSec := 0 }

def resetPath : PathState :=
  { cnv := resetCnv, rxd := resetRxd, txd := resetTxd, trk := resetTrk, fec := resetFec
    , rxMode := none, rxModeNext := none
    , lfr := resetLfr
    , cnt := ⟨[], [], [], []⟩
    , cry := resetCry
  }

/-- The machine right after a power-on device reset, before `RESET_N` is released (R482, R483). -/
def State.reset : State :=
  { pending := [], out := [], batch := [], freeCtr := 0, upNs := 0, phase := 0, txFc := 0, fcLoaded := false, cfg := [],
    shadow := [], custom := [], mst := resetMst, evt := resetEvt, ctl := resetCtl, pmc := resetPmc, mem := resetMem,
    pwr := resetPwr, rte := resetRte, rails := [], pa := resetPath, pb := resetPath
    , cnt := ⟨[], [], false⟩
    , tables := [], tblShadow := [], hbDrop := 0
    , tru := resetTru
    , sch := resetSch
    , pkt := resetPkt
    , hsf := ⟨[], []⟩, hsl := resetHsl
    , mon := resetMon
  }

/-- A fault would stop the machine. Nothing raises one: the spec gives every command an effect in every state, so the
type has no constructor (safe: no claim can rest on a stop). -/
inductive Fault where
  deriving DecidableEq, Repr

/-- A command that the model refuses to run. -/
inductive Refusal where
  /-- No meaning written yet for this mnemonic; raised by `exec` only. Safe: nothing can be proved of a run that
  reaches it. -/
  | notModelled (mnemonic : String)
  deriving DecidableEq, Repr

end Sys2Proof.Machine
end

