-- ==== Sys2Proof/Machine/Ops.lean ====
section
/-!
DEFINITION. The shared operations: reaching a path and a register, the memory die, the events and the journal, and the
frame that every command runs in.
-/
namespace Sys2Proof.Machine

/-! ### Paths and registers -/

/-- Bit 0 for Path A, 1 for Path B. -/
def pathNum : Path → Nat
  | .a => 0
  | .b => 1

/-- The path that bit 0 names. -/
def pathOf (n : Nat) : Path := if n % 2 = 1 then .b else .a

def otherPath : Path → Path
  | .a => .b
  | .b => .a

def State.path (s : State) : Path → PathState
  | .a => s.pa
  | .b => s.pb

def State.updPath (s : State) (p : Path) (f : PathState → PathState) : State :=
  match p with
  | .a => { s with pa := f s.pa }
  | .b => { s with pb := f s.pb }

def MstState.path (m : MstState) : Path → PathMst
  | .a => m.pathA
  | .b => m.pathB

def State.mstPath (s : State) (p : Path) : PathMst := s.mst.path p

def State.updMstPath (s : State) (p : Path) (f : PathMst → PathMst) : State :=
  match p with
  | .a => { s with mst := { s.mst with pathA := f s.mst.pathA } }
  | .b => { s with mst := { s.mst with pathB := f s.mst.pathB } }

def State.updCnv (s : State) (p : Path) (f : CnvState → CnvState) : State :=
  s.updPath p fun x => { x with cnv := f x.cnv }

def State.updRxd (s : State) (p : Path) (f : RxdState → RxdState) : State :=
  s.updPath p fun x => { x with rxd := f x.rxd }

def State.updTxd (s : State) (p : Path) (f : TxdState → TxdState) : State :=
  s.updPath p fun x => { x with txd := f x.txd }

def State.updTrk (s : State) (p : Path) (f : TrkState → TrkState) : State :=
  s.updPath p fun x => { x with trk := f x.trk }

def State.updFec (s : State) (p : Path) (f : FecState → FecState) : State :=
  s.updPath p fun x => { x with fec := f x.fec }

/-- The key of a container: path × 256 + number. -/
def contKey (p : Path) (c : Nat) : Nat := pathNum p * 256 + c

def State.cont (s : State) (p : Path) (c : Nat) : ContState := sparseGet (fun _ => freshCont) s.cnt.conts (contKey p c)

def State.updCont (s : State) (p : Path) (c : Nat) (g : ContState → ContState) : State :=
  { s with cnt := { s.cnt with
    conts := sparseSet (fun _ => freshCont) (contKey p c) (g (s.cont p c)) s.cnt.conts } }

/-- The containers that a path owns. -/
def State.contsOf (s : State) (p : Path) : List Nat := (s.rte.cfg.conts.filter fun r => r.path == p).map fun r => r.num

/-- Packet delineation goes to hunt (R239). -/
def State.delinHunt (s : State) (p : Path) (c : Nat) : State :=
  s.updCont p c fun x => { x with delin := 0, stream := [], delinLost := x.delinLost || x.delin == 2 }

/-- A fast port, a fast lane and a legacy lane by number. -/
def State.port (s : State) (f : Nat) : PortState := sparseGet (fun _ => freshPort) s.hsf.ports f

def State.fastLane (s : State) (f : Nat) : FastLane := sparseGet (fun _ => freshFastLane) s.hsf.lanes f

def State.lane (s : State) (l : Nat) : LegacyLane := sparseGet (fun _ => freshLegacyLane) s.hsl.lanes l

def State.updPort (s : State) (f : Nat) (g : PortState → PortState) : State :=
  { s with hsf := { s.hsf with ports := sparseSet (fun _ => freshPort) f (g (s.port f)) s.hsf.ports } }

def State.updFastLane (s : State) (f : Nat) (g : FastLane → FastLane) : State :=
  { s with hsf := { s.hsf with lanes := sparseSet (fun _ => freshFastLane) f (g (s.fastLane f)) s.hsf.lanes } }

def State.updLane (s : State) (l : Nat) (g : LegacyLane → LegacyLane) : State :=
  { s with hsl := { s.hsl with lanes := sparseSet (fun _ => freshLegacyLane) l (g (s.lane l)) s.hsl.lanes } }

/-- The offset of a path register, given Path A's. -/
def pathReg (p : Path) (off : Nat) : Nat := off + pathNum p * 0x400000

/-- The stored word of a register item. -/
def State.regI (s : State) (off idx : Nat) : Word := sparseGet regReset s.cfg (regKey off idx)

/-- The stored word of a register with one item. -/
def State.reg (s : State) (off : Nat) : Word := s.regI off 0

/-- A field of a register. -/
def State.fld (s : State) (off hi lo : Nat) : Nat := fieldOf (s.reg off) hi lo

/-- A field of a register item. -/
def State.fldI (s : State) (off idx hi lo : Nat) : Nat := fieldOf (s.regI off idx) hi lo

/-- A field of a path register. -/
def State.pfld (s : State) (p : Path) (off hi lo : Nat) : Nat := s.fld (pathReg p off) hi lo

/-- A one-bit field of a path register. -/
def State.pflag (s : State) (p : Path) (off i : Nat) : Bool := flagOf (s.reg (pathReg p off)) i

/-- Stores a register item's word. -/
def State.setRegI (s : State) (off idx : Nat) (w : Word) : State :=
  { s with cfg := sparseSet regReset (regKey off idx) w s.cfg }

def State.setReg (s : State) (off : Nat) (w : Word) : State := s.setRegI off 0 w

/-- Stores one field of a register item. -/
def State.setFldI (s : State) (off idx hi lo v : Nat) : State :=
  s.setRegI off idx (setField (s.regI off idx) hi lo v)

def State.setFld (s : State) (off hi lo v : Nat) : State := s.setFldI off 0 hi lo v

/-- Whether the active image instantiates what bit `i` of `TOP_UNIT_INST` names (R24, R25): 0 Path A, 1 Path B,
2 packet layer, 3 scheduler, 4 and 5 encryption of A and B, 6 bonded, 7 shelf ring. -/
def State.inst (s : State) (i : Nat) : Bool := s.rte.active && s.rte.cfg.inst.getLsbD i

/-- Whether the path's chains are instantiated. -/
def State.pathUp (s : State) (p : Path) : Bool := s.inst (pathNum p)

/-- Whether the path is encrypted (R19). -/
def State.encrypted (s : State) (p : Path) : Bool := s.inst (4 + pathNum p)

def State.mode (s : State) : Path → Option PathMode
  | .a => s.rte.cfg.modeA
  | .b => s.rte.cfg.modeB

/-! ### Outputs -/

def State.emit (s : State) (o : Out) : State := { s with out := s.out ++ [o] }

/-! ### Events (R464, R466, R82)

An occurrence is collected while its command runs and takes its sequence number when the command completes. -/

/-- Whether a source's unit is present, so that the source can assert (R4, R24). -/
def State.srcLive (s : State) (src : Nat) : Bool :=
  if src < 48 then s.inst 0
  else if src < 96 then s.inst 1
  else if src < 216 then s.rte.active
  else if src < 232 then true
  else if src < 244 then s.inst 2
  else if src < 256 then s.inst 3
  else decide (src < 304)

/-- Collects an occurrence. -/
def State.occ (s : State) (o : Occ) : State := if s.srcLive o.src then { s with batch := s.batch ++ [o] } else s

/-- Raises an event with subtype, instance and values A and B. -/
def State.raise (s : State) (src sub inst a b : Nat) : State := s.occ ⟨0, src, sub, inst, a, b, false, 0⟩

/-- Raises an event that is limited to once per milestone second. -/
def State.raiseOnce (s : State) (src sub inst a b : Nat) : State := s.occ ⟨0, src, sub, inst, a, b, false, 1⟩

/-- Raises an event that is limited to once per item per milestone second. -/
def State.raiseItem (s : State) (src sub inst a b : Nat) : State := s.occ ⟨0, src, sub, inst, a, b, false, 2⟩

/-- A kind 3 detail record (R466). -/
def State.detail (s : State) (src sub inst a b : Nat) : State := s.occ ⟨3, src, sub, inst, a, b, false, 0⟩

/-- A kind 1 record: a generation change of kind `k` on a path, transmit (296) or receive (297) (R467). -/
def State.genRec (s : State) (src : Nat) (p : Path) (k : Nat) (late : Bool) (old new : BitVec 16) : State :=
  s.occ ⟨1, src, k + (if late then 128 else 0), pathNum p, old.toNat, new.toNat, false, 0⟩

/-- The source of a path event, given Path A's. -/
def pathSrc (p : Path) (src : Nat) : Nat := src + 48 * pathNum p

/-- Value A of a record that is marked cleared or regained (R466). -/
def cleared (a : Nat) : Nat := 0x80000000 + a % 0x80000000

/-! ### Device counters (R471, R472) -/

/-- Adds to counter `n`, carrying into the next counter of its chain; `fuel` bounds the chain at four counters. -/
def pmcAdd (cfg : Nat → Word) : Nat → Nat → Nat → PmcState → PmcState
  | 0, _, _, m => m
  | fuel + 1, n, amount, m =>
    let v := (sparseGet (fun _ => (0 : Word)) m.cnt n).toNat + amount
    let m := { m with cnt := sparseSet (fun _ => 0) n (BitVec.ofNat 32 v) m.cnt }
    let carry := v / 2 ^ 32
    if carry = 0 then m
    else if flagOf (cfg n) 31 then pmcAdd cfg fuel (n + 1) carry m
    else
      let w := sparseGet (fun _ => (0 : Word)) m.ovf (n / 32) ||| BitVec.ofNat 32 (2 ^ (n % 32))
      { m with ovf := sparseSet (fun _ => 0) (n / 32) w m.ovf }

/-- Configuration of counter `n`. -/
def State.pmcCfg (s : State) (n : Nat) : Word := s.reg (Reg.PMC_CFG0 + 4 * n)

/-- Counts `amount` at every counter whose count point is `cls`, `idx`. -/
def State.count (s : State) (cls idx amount : Nat) : State :=
  let named := s.cfg.filter fun e =>
    decide (Reg.PMC_CFG0 ≤ e.1 ∧ e.1 < Reg.PMC_CFG0 + 4 * 8192) && fieldOf e.2 29 24 == cls && fieldOf e.2 15 0 == idx
  { s with pmc := named.foldl (fun m e => pmcAdd s.pmcCfg 4 ((e.1 - Reg.PMC_CFG0) / 4) amount m) s.pmc }

/-! ### The memory die (R398 to R405) -/

/-- What reading a code word gives (R400). -/
inductive ReadOutcome where
  | clean | correctable | uncorrectable
  deriving DecidableEq, Repr

/-- What a byte that nothing has written reads as. -/
def emptyByte : Nat → Byte := fun _ => 0

/-- The stored byte at a memory die address. -/
def MemState.byte (m : MemState) (a : Nat) : Byte := sparseGet emptyByte m.bytes a

/-- The canonical form of the memory die's bytes: addresses rise, and no entry holds what an unlisted address reads
as. -/
def Memory.wf (m : MemState) : Bool := sparseWf emptyByte m.bytes

/-- Whether the written map has the word's bit set (R402). -/
def MemState.isWritten (m : MemState) (w : Nat) : Bool := m.written.any fun r => decide (r.1 ≤ w ∧ w < r.1 + r.2)

/-- Sets the written-map bits of `n` words. -/
def MemState.markWritten (m : MemState) (w n : Nat) : MemState :=
  if m.written.any fun r => decide (r.1 ≤ w ∧ w + n ≤ r.1 + r.2) then m else { m with written := (w, n) :: m.written }

def MemState.poisoned (m : MemState) (w : Nat) : Bool := sparseGet (fun _ => false) m.poison w

def MemState.upsets (m : MemState) (w : Nat) : Nat := sparseGet (fun _ => 0) m.upset w

/-- The entry of the merge buffer that holds a word. -/
def MemState.mergeOf (m : MemState) (w : Nat) : Option MergeEntry := m.merge.find? fun e => e.word == w

/-- The outcome of reading a word's cells. With four or more bits in error it is not defined (R400): a free value. -/
def MemState.outcome (m : MemState) (ctr w : Nat) : ReadOutcome :=
  if !m.isWritten w then .uncorrectable
  else if m.upsets w ≥ 4 then
    (match Config.freeNat ctr w % 3 with | 0 => .clean | 1 => .correctable | _ => .uncorrectable)
  else if m.poisoned w ∨ m.upsets w = 3 then .uncorrectable
  else if m.upsets w = 0 then .clean
  else .correctable

/-- The byte that a read of the cells returns: the stored byte, or a free value where three or more bits of the word
are in error. -/
def MemState.cell (m : MemState) (ctr a : Nat) : Byte :=
  if m.upsets (a / 32) ≥ 3 then Config.freeByte ctr a else m.byte a

/-- The byte that a read returns, with a merge entry's data forwarded (R404). -/
def MemState.readByte (m : MemState) (ctr a : Nat) : Byte :=
  match m.mergeOf (a / 32) with
  | some e => match e.patch.find? (fun x => x.1 == a % 32) with
    | some x => x.2
    | none => m.cell ctr a
  | none => m.cell ctr a

/-- Bytes from address `a`. -/
def MemState.readBytes (m : MemState) (ctr a : Nat) : Nat → Bytes
  | 0 => []
  | n + 1 => m.readByte ctr a :: m.readBytes ctr (a + 1) n

/-- Whether any word that the `n` bytes from `a` touch reads uncorrectable; gives the first such word. -/
def MemState.firstBad (m : MemState) (ctr a n : Nat) : Option Nat :=
  (List.range ((a + n + 31) / 32 - a / 32)).map (· + a / 32) |>.find? fun w => m.outcome ctr w == .uncorrectable

/-- Stores bytes in the cells. -/
def MemState.store (m : MemState) (a : Nat) (b : Bytes) : MemState :=
  { m with bytes := sparseSetList emptyByte a b m.bytes }

/-- A write of a whole code word: fresh check bits, poison cleared, written bit set (R402, R404). A merge entry that
holds the word has its data replaced. -/
def MemState.writeWord (m : MemState) (w : Nat) (b : Bytes) : MemState :=
  let m := (m.store (32 * w) (padTo 32 b)).markWritten w 1
  { m with
    poison := sparseSet (fun _ => false) w false m.poison
    upset := sparseSet (fun _ => 0) w 0 m.upset
    merge := m.merge.map fun e =>
      if e.word = w then { e with patch := [], full := true } else e }

/-- New bytes for a word that an entry of the merge buffer holds (R404). -/
def MemState.mergeInto (m : MemState) (w : Nat) (patch : List (Nat × Byte)) : MemState :=
  { m with merge := m.merge.map fun e => if e.word = w then { e with patch := patch ++ e.patch } else e }

/-- Whole code words from word index `w`. -/
def MemState.writeWords (m : MemState) (w : Nat) : List Bytes → MemState
  | [] => m
  | b :: bs => (m.writeWord w b).writeWords (w + 1) bs

/-- The bookkeeping of a read of `n` bytes by a requester (R403): counts, and event 216 for an uncorrectable word. -/
def State.noteRead (s : State) (requester a n : Nat) : State :=
  (List.range ((a + n + 31) / 32 - a / 32)).foldl (fun s i =>
    let w := a / 32 + i
    match s.mem.outcome s.freeCtr w with
    | .clean => s
    | .correctable => { s with mem := { s.mem with corr := wrapTo 16 (s.mem.corr + 1) } }
    | .uncorrectable =>
      ({ s with mem := { s.mem with uncorr := wrapTo 16 (s.mem.uncorr + 1) } }).raiseOnce 216 0 0 requester w) s

/-- The end of a merge (R405): the new bytes, newest first, go over the word as it reads; an uncorrectable word gets
its poison bit. -/
def State.mergeWord (s : State) (w : Nat) (patch : List (Nat × Byte)) : State :=
  let s := s.noteRead 9 (32 * w) 1
  let m := s.mem
  let o := m.outcome s.freeCtr w
  let m := if m.upsets w < 3 then m
    else m.store (32 * w) ((List.range 32).map fun i => m.cell s.freeCtr (32 * w + i))
  let m := patch.foldr (fun x m => { m with bytes := sparseSet emptyByte (32 * w + x.1 % 32) x.2 m.bytes }) m
  let m := { m.markWritten w 1 with upset := sparseSet (fun _ => 0) w 0 m.upset, merges := wrapTo 16 (m.merges + 1) }
  match o with
  | .clean => { s with mem := m }
  | .correctable => { s with mem := { m with onCorr := satTo 8 (m.onCorr + 1) } }
  | .uncorrectable =>
    ({ s with mem := { m with poison := sparseSet (fun _ => false) w true m.poison
                              onUncorr := satTo 8 (m.onUncorr + 1) } }).raiseOnce 221 0 0 0 0

/-- Adds bit upsets that the cells have suffered. -/
def State.suffer (s : State) (u : Upsets) : State :=
  { s with mem := { s.mem with upset := u.foldl (fun m x => sparseSet (fun _ => 0) x.1 x.2 m) s.mem.upset } }

/-- Word 0 of an address region: the journal ring (R470). -/
def journalBase : Nat := 0x06C00000

/-! ### The journal (R466 to R469) -/

/-- Records in the ring that the host has not read (R468). -/
def State.jrnUsed (s : State) : Nat := (s.evt.wr + 32768 - s.fld Reg.EVT_JRN_RD 14 0) % 32768

/-- Free positions of the ring: it holds at most 32,767 records. -/
def State.jrnFree (s : State) : Nat := 32767 - s.jrnUsed

/-- A record's 32 bytes (R466). -/
def recordBytes (seq sec ns sev : Nat) (o : Occ) (supp : Nat) : Bytes :=
  beBytes 4 seq ++ beBytes 6 sec ++ beBytes 4 ns
    ++ beBytes 2 (o.src * 128 + sev * 16 + b2n o.unc * 8 + o.kind)
    ++ beBytes 1 o.sub ++ [0] ++ beBytes 2 o.inst ++ beBytes 4 o.valA ++ beBytes 4 o.valB
    ++ beBytes 2 (satTo 16 supp) ++ [0, 0]

/-- Writes a record at `EVT_JRN_WR`, and notes it for spilling when its severity asks for it (R469). -/
def State.putRecord (s : State) (b : Bytes) (sev : Nat) : State :=
  let at_ := s.evt.wr % 32768
  let s := { s with
    mem := s.mem.writeWord (journalBase / 32 + at_) b
    evt := { s.evt with wr := (s.evt.wr + 1) % 32768 } }
  let c := s.reg Reg.EVT_SPILL_CTRL
  if flagOf c 31 ∧ fieldOf c 26 24 ≤ sev then { s with evt := { s.evt with spill := s.evt.spill ++ [at_] } } else s

/-- Severity and vector of a source (R464). -/
def State.srcCfg (s : State) (src : Nat) : Word := s.regI Reg.EVT_SRC_CFG src

/-- Takes the next sequence number and writes the record of an occurrence, or loses it (R82, R468). -/
def State.record (s : State) (o : Occ) (supp : Nat) : State :=
  let seq := s.evt.seq + 1
  let s := { s with evt := { s.evt with seq := seq } }
  let sev := fieldOf (s.srcCfg o.src) 29 27
  if s.jrnFree ≥ 2 then s.putRecord (recordBytes seq.toNat s.mst.sec s.mst.ns sev o supp) sev
  else
    let lost := match s.evt.lost with | none => (seq.toNat, 1) | some (f, n) => (f, n + 1)
    { s with evt := { s.evt with lost := some lost } }

/-- The item that a limited or suppressed occurrence belongs to (R464); event 286 is limited per path (R438). -/
def evKey (o : Occ) : EvKey :=
  ⟨o.src, if o.src = 302 ∨ o.src = 303 then o.sub else 0,
    if o.limit = 1 then 0 else if o.limit = 3 then o.inst / 8 else o.inst⟩

/-- Sends a vector's message, after which its holdoff runs, or marks it pending while it is masked (R465). -/
def State.sendVector (s : State) (v : Nat) : State :=
  if flagOf (s.reg (Reg.MSIX_TABLE + 16 * v + 12)) 0 then
    { s with evt := { s.evt with pba := s.evt.pba ||| BitVec.ofNat 64 (2 ^ v) } }
  else if !s.ctl.pcieUp then s
  else
    let s := if s.fld Reg.EVT_CTRL 15 0 = 0 then s
      else { s with evt := { s.evt with holdoff := s.evt.holdoff ++ [v] } }
    s.emit (.msix v)

/-- Signals a vector under its holdoff (R465). -/
def State.signal (s : State) (v : Nat) : State :=
  if v ∈ s.evt.holdoff then
    (if v ∈ s.evt.held then s else { s with evt := { s.evt with held := s.evt.held ++ [v] } })
  else s.sendVector v

/-- The three acts of a raise, or the suppression of an occurrence beyond the limit of its second (R464). -/
def State.raiseOcc (s : State) (o : Occ) : State :=
  let key := evKey o
  let s := s.count 0x0D o.src 1
  if o.limit ≠ 0 ∧ key ∈ s.evt.raised then
    let n := match s.evt.supp.find? (fun e => e.1 == key) with | some e => e.2 + 1 | none => 1
    { s with evt := { s.evt with supp := (key, n) :: s.evt.supp.filter fun e => !(e.1 == key) } }
  else
    let supp := match s.evt.supp.find? (fun e => e.1 == key) with | some e => e.2 | none => 0
    let s := { s with evt := { s.evt with
      pend := s.evt.pend ||| 2 ^ o.src
      raised := if o.limit = 0 then s.evt.raised else key :: s.evt.raised
      supp := s.evt.supp.filter fun e => !(e.1 == key) } }
    let s := s.record o supp
    let c := s.srcCfg o.src
    if flagOf c 31 then s.signal (fieldOf c 5 0) else s

/-- Disposes of one occurrence: an event is raised, any other kind is only recorded. -/
def State.dispose (s : State) (o : Occ) : State := if o.kind = 0 then s.raiseOcc o else s.record o 0

/-- The order within one command's group (R82, R467): ascending source; the generation changes of a source before its
event, in ascending kind bit. -/
def occLe (a b : Occ) : Bool :=
  if a.src ≠ b.src then decide (a.src < b.src)
  else if a.kind = 1 ∧ b.kind = 1 then decide (a.sub % 128 ≤ b.sub % 128)
  else !(b.kind == 1) || a.kind == 1

/-- Inserts into an ordered group after the occurrences that do not follow it. -/
def insertOcc (o : Occ) : List Occ → List Occ
  | [] => [o]
  | x :: xs => if occLe x o then x :: insertOcc o xs else o :: x :: xs

def sortOccs (l : List Occ) : List Occ := l.foldl (fun acc o => insertOcc o acc) []

/-- The loss marker and the event of the loss (R468), once two records are free. -/
def State.lossMarker (s : State) : State :=
  match s.evt.lost with
  | none => s
  | some (f, n) =>
    if s.jrnFree ≥ 2 then
      let s := { s with evt := { s.evt with lost := none } }
      (s.record ⟨4, 303, 1, 0, f, n, false, 0⟩ 0).raiseOcc ⟨0, 303, 1, 0, f, n, false, 1⟩
    else s

/-- Ends a command: its occurrences take their sequence numbers and reach the journal, after a loss marker that has
become possible. -/
def State.flush (s : State) : State :=
  if s.batch = [] then s
  else
    let b := sortOccs s.batch
    b.foldl (fun s o => s.dispose o) ({ s with batch := [] }).lossMarker

/-! ### The frame of a command -/

/-- A command begins: the outputs of the previous one are gone and a fresh free value is at hand. -/
def State.begin (s : State) : State := { s with out := [], batch := [], freeCtr := s.freeCtr + 1 }

/-- `INT_N` is driven low while a source with `INT_EN` = 1 is pending (R465). -/
def State.intN (s : State) : Bool :=
  !(List.range 304).any fun i => s.evt.pend.testBit i && flagOf (s.srcCfg i) 30

end Sys2Proof.Machine
end

