-- ==== Sys2Proof/Machine/Modes.lean ====
section
/-!
DEFINITION. Line modes: the frame grid, the coded bits, profiles and their feasibility, the composition of a profile,
and how matcher blocks are dealt to tracks (06_transmit_dsp.md, 07_tracks_and_margin.md, 08_fec.md).
-/
namespace Sys2Proof.Machine

/-- Tracks of a mode (R39): layout codes 0 to 4 are 1, 2, 4, 8 and 16 tracks. -/
def PathMode.trackCount (m : PathMode) : Nat := 2 ^ m.tracks

/-- Code length n_c (R177). -/
def PathMode.codeLen (m : PathMode) : Nat := match m.fec with | 0 => 29440 | 1 => 30720 | _ => 32000

/-- Code words per frame, 1 + 4m (R180). -/
def PathMode.words (m : PathMode) : Nat := 1 + 4 * m.m

/-- Tributary slots, 20m (R158). -/
def PathMode.slots (m : PathMode) : Nat := 20 * m.m

/-- Coded bits per frame (R141). -/
def PathMode.bits (m : PathMode) : Nat := m.words * m.codeLen

/-- Track symbols per track and frame (R137). -/
def PathMode.symbols (m : PathMode) : Nat := (1000 * m.k - 512) / m.trackCount

/-- Data symbol positions per track and frame (R138). -/
def PathMode.dataSymbols (m : PathMode) : Nat := m.symbols - ceilDiv m.symbols 64

/-- Matcher blocks that a track can hold, Q_t (R141). -/
def PathMode.blocks (m : PathMode) : Nat := m.dataSymbols / 16

/-- The sum of the profiles inside the layout. -/
def PathMode.profSum (m : PathMode) (prof : List Nat) : Nat := (prof.take m.trackCount).sum

/-- Feasibility of a profile set (R141). Every track of a layout has the same number of blocks. -/
def PathMode.feasible (m : PathMode) (prof : List Nat) : Bool := decide (m.bits ≤ m.blocks * m.profSum prof)

/-- The uniform profile (R142, R158). -/
def PathMode.uniformJ (m : PathMode) : Nat := max 64 (ceilDiv m.bits (m.blocks * m.trackCount))

/-- Feasibility of the mode: a uniform profile exists and the layout divides the grid (R142, R137). -/
def PathMode.valid (m : PathMode) : Bool :=
  decide (m.uniformJ ≤ 179) && !(m.tracks == 4 && m.k % 2 == 1)

/-- A profile set as 16 entries, zero beyond the layout. -/
def PathMode.spread (m : PathMode) (j : Nat) : List Nat :=
  (List.range 16).map fun t => if t < m.trackCount then j else 0

/-- The uniform profile set. -/
def PathMode.uniform (m : PathMode) : List Nat := m.spread m.uniformJ

/-- Whole turns in which every track takes a block, and the bits that remain for the last turn (R146). -/
def PathMode.turns (m : PathMode) (prof : List Nat) : Nat × Nat :=
  let sum := m.profSum prof
  if sum = 0 then (0, 0) else (m.bits / sum, m.bits % sum)

/-- Tracks that take a block in the last turn. -/
def lastTurn : List Nat → Nat → Nat
  | _, 0 => 0
  | [], _ => 0
  | j :: js, rest => 1 + lastTurn js (rest - j)

/-- Matcher blocks in force on track `t` (R146). -/
def PathMode.blocksOn (m : PathMode) (prof : List Nat) (t : Nat) : Nat :=
  let (full, rest) := m.turns prof
  if t < m.trackCount then full + (if t < lastTurn (prof.take m.trackCount) rest then 1 else 0) else 0

/-- Pad bits per frame (R146). -/
def PathMode.pad (m : PathMode) (prof : List Nat) : Nat :=
  let (_, rest) := m.turns prof
  ((prof.take m.trackCount).take (lastTurn (prof.take m.trackCount) rest)).sum - rest

/-- Fill symbols per frame on track `t` (R146). -/
def PathMode.fillOn (m : PathMode) (prof : List Nat) (t : Nat) : Nat :=
  if t < m.trackCount then m.dataSymbols - 16 * m.blocksOn prof t else 0

/-- n! -/
def fact : Nat → Nat
  | 0 => 1
  | n + 1 => (n + 1) * fact n

/-- Counts of amplitudes 1, 3, 5 and 7. -/
abbrev Composition := Nat × Nat × Nat × Nat

/-- The energy of a composition, E_j (R144, R147). -/
def energy (c : Composition) : Nat := c.1 + 9 * c.2.1 + 25 * c.2.2.1 + 49 * c.2.2.2

/-- Whether a composition gives at least 2^k sequences (R144). -/
def enough (k : Nat) (c : Composition) : Bool :=
  decide (2 ^ k * (fact c.1 * fact c.2.1 * fact c.2.2.1 * fact c.2.2.2) ≤ fact 64)

/-- All compositions of 64 amplitudes with falling counts, over `n` amplitudes (2 or 4), the larger c1, then c3, then
c5 first (R144). -/
def compositions (n : Nat) : List Composition :=
  (List.range 65).reverse.flatMap fun c1 =>
    (List.range (min c1 (64 - c1) + 1)).reverse.flatMap fun c3 =>
      (List.range (min c3 (64 - c1 - c3) + 1)).reverse.filterMap fun c5 =>
        let c7 := 64 - c1 - c3 - c5
        if c7 ≤ c5 ∧ (n = 4 ∨ (c5 = 0 ∧ c7 = 0)) then some (c1, c3, c5, c7) else none

/-- The first composition of least energy. -/
def leastEnergy : List Composition → Option Composition
  | [] => none
  | c :: cs => match leastEnergy cs with
    | some d => if energy d < energy c then some d else some c
    | none => some c

/-- The composition of profile `j` (R144). -/
def composition (j : Nat) : Composition :=
  if j ≤ 64 then (64, 0, 0, 0)
  else ((leastEnergy ((compositions (if j ≤ 112 then 2 else 4)).filter (enough (j - 64))))).getD (64, 0, 0, 0)

/-- The known-sequence generator of track `t`: the next state and the output bit (R138). -/
def knownBit (s : BitVec 15) : BitVec 15 × Bool :=
  let b := s.getLsbD 14 != s.getLsbD 13
  ((s <<< 1) ||| (if b then 1 else 0), b)

/-- The generator's state at track symbol 0 (R138). -/
def knownSeed (t : Nat) : BitVec 15 := BitVec.ofNat 15 (0x1ACE + 0x0111 * t)

def ImageCfg.has (g : ImageCfg) (i : Nat) : Bool := g.inst.getLsbD i

def ImageCfg.mode (g : ImageCfg) : Path → Option PathMode
  | .a => g.modeA
  | .b => g.modeB

/-- Slots of a path, N = 20m; a path without a mode or not instantiated has none. -/
def ImageCfg.slots (g : ImageCfg) (p : Path) : Nat :=
  if g.has (pathNum p) then (match g.mode p with | some m => m.slots | none => 0) else 0

end Sys2Proof.Machine
end

