-- ==== Sys2Proof/Machine/Governor.lean ====
section
/-!
DEFINITION. The right-of-way governor (R485 to R489): the base, the allocation and the effective ceiling, requests,
grants held, and the queue.
-/
namespace Sys2Proof.Machine

/-- Legacy lanes of the base: those of the records and, with the ring, L14 and L15, each counted once (R485). -/
def ImageCfg.legacyLanes (c : ImageCfg) : List Nat :=
  let recs := c.lanes.map fun r => r.1
  let ring := if c.inst.getLsbD 7 then [14, 15].filter (fun l => !recs.contains l) else []
  recs ++ ring

/-- Power of one fast lane by rate code, mW (R485). -/
def fastLaneMw (rate : Nat) : Nat := match rate with | 0 => 60 | 1 => 90 | 2 => 150 | _ => 250

/-- The base of an active configuration, mW (R485). -/
def ImageCfg.base (c : ImageCfg) : Nat :=
  let item (i v : Nat) := if c.inst.getLsbD i then v else 0
  3500 + item 0 350 + item 1 350 + 200 + item 4 500 + item 5 500 + item 2 2200 + item 3 400
    + (c.ports.map fun p => p.width * fastLaneMw p.rate).sum + 30 * c.legacyLanes.length

/-- The base allocation (R485). -/
def State.base (s : State) : Nat :=
  if s.rte.active then s.rte.cfg.base
  else match s.rte.op with
    | some (.fillWait _ base _) => base
    | _ => 3500

/-- The effective ceiling, mW: `CEILING` less `HOT_CUT` while hot (R491). -/
def State.effCeiling (s : State) : Nat :=
  100 * s.fld Reg.PWR_CEILING 8 0 - (if s.pwr.hot then 100 * s.fld Reg.PWR_CTRL 23 16 else 0)

/-- Grants held, mW. -/
def PwrState.held (p : PwrState) : Nat := (p.grants.map fun g => g.2).sum

/-- The allocation: the base plus every grant held. -/
def State.alloc (s : State) : Nat := s.base + s.pwr.held

/-- Sets or clears `OVER` (R488). -/
def State.overCheck (s : State) : State :=
  let exceeded := decide (s.effCeiling < s.alloc)
  if exceeded == s.pwr.overCeil then s
  else ({ s with pwr := { s.pwr with overCeil := exceeded } }).raise 288 0 0 (if exceeded then 0 else cleared 0) 0

/-- What a holder has been granted, mW. -/
def State.grantOf (s : State) (idx : Nat) : Nat :=
  match s.pwr.grants.find? (fun g => g.1 == idx) with | some g => g.2 | none => 0

/-- Sets what a holder has been granted; 0 returns the grant. -/
def State.setGrant (s : State) (idx cost : Nat) : State :=
  let rest := s.pwr.grants.filter fun g => g.1 != idx
  ({ s with pwr := { s.pwr with grants := if cost = 0 then rest else (idx, cost) :: rest } }).overCheck

/-- Whether a holder has a queued request. -/
def State.rowWaiting (s : State) (idx : Nat) : Bool := s.pwr.queue.any fun r => r.idx == idx

/-- A queued request leaves the queue without outcome (R487). -/
def State.rowWithdraw (s : State) (idx : Nat) : State :=
  { s with pwr := { s.pwr with queue := s.pwr.queue.filter fun r => r.idx != idx } }

/-- The answer to a request (R487). -/
inductive RowAnswer where
  | granted | queued | denied
  deriving DecidableEq, Repr

/-- What R487 answers a request of cost `c`, given whether the queue is empty, its length, the allocation, the base and
the effective ceiling. -/
def rowJudge (c queued alloc base ceiling : Nat) : RowAnswer :=
  if queued = 0 ∧ alloc + c ≤ ceiling then .granted
  else if base + c ≤ ceiling ∧ queued < 32 then .queued
  else .denied

def State.rowAnswer (s : State) (c : Nat) : RowAnswer :=
  rowJudge c s.pwr.queue.length s.alloc s.base s.effCeiling

/-- A denial is counted and reported (R487). -/
def State.noteDenied (s : State) (idx : Nat) : State :=
  ({ s with pwr := { s.pwr with denied := wrapTo 16 (s.pwr.denied + 1) } }).raise 289 0 0 idx 0

/-- A timeout is counted and reported (R487). -/
def State.noteTimeout (s : State) (idx : Nat) : State :=
  ({ s with pwr := { s.pwr with timeouts := wrapTo 16 (s.pwr.timeouts + 1) } }).raise 289 1 0 idx 0

/-- Adds to a holder's grant. -/
def State.addGrant (s : State) (idx c : Nat) : State := s.setGrant idx (s.grantOf idx + c)

def State.enqueue (s : State) (idx c : Nat) : State :=
  { s with pwr := { s.pwr with queue := s.pwr.queue ++ [⟨idx, c, s.upNs⟩] } }

/-- Cost of a carrier enable, rounded up to whole mW (R486). -/
def PathMode.carrierCost (m : PathMode) : Nat := 200 + ceilDiv (2200 * m.k) 256

/-- Cost of a receiver enable, rounded up to whole mW (R486): 460 + 3500 k/256 + 21.6 W. -/
def PathMode.receiverCost (m : PathMode) : Nat := 460 + ceilDiv (3500 * 10 * m.k + 216 * 256 * m.words) 2560

/-- Cost of one iteration, 0.1 mW (R186). -/
def PathMode.iterCost (m : PathMode) : Nat := 18 * m.words

/-- Accounts the decoder's grant G_d, 0.1 mW, under index 4 or 5 (R486), rounded up to whole mW. -/
def State.setGd (s : State) (p : Path) (gd : Nat) : State :=
  (s.updFec p fun f => { f with gd := gd }).setGrant (4 + pathNum p) (ceilDiv gd 10)

end Sys2Proof.Machine
end

