-- ==== Sys2Proof/Machine/Rails.lean ====
section
/-!
DEFINITION. Guard rails of the hardware loops (R167 to R173): the loops and their ranges, commits, updates inside the
rails, and the pinned and throttled states.
-/
namespace Sys2Proof.Machine

/-- Identifier of a path loop (R167). -/
def loopId (p : Path) (kind inst : Nat) : Nat := (1 + pathNum p) * 0x1000 + kind * 0x100 + inst

/-- Identifier of a lane adaptation loop: fast lanes 0 to 31, legacy lanes 32 to 47 (R384). -/
def laneLoopId (lane : Nat) : Nat := 0x0700 + lane

/-- The path of a path loop. -/
def loopPath (id : Nat) : Path := if id / 0x1000 = 2 then .b else .a

/-- What R167, R384 and R435 give a loop: range, default rails, default step. -/
structure LoopKind where
  lo   : Int
  hi   : Int
  dLo  : Int
  dHi  : Int
  step : Nat
  deriving DecidableEq, Repr

/-- The loop with an identifier, if there is one. -/
def loopKind (id : Nat) : Option LoopKind :=
  let scope := id / 0x1000
  let kind := id / 0x100 % 16
  let inst := id % 0x100
  let whole (lo hi : Int) (step : Nat) : Option LoopKind := some ⟨lo, hi, lo, hi, step⟩
  if scope = 1 ∨ scope = 2 then
    match kind with
    | 1 => if inst < 16 then whole 64 179 8 else none
    | 2 => if inst = 0 then some ⟨-2000000000, 2000000000, -500000000, 500000000, 10000000⟩ else none
    | 3 => if inst < 4 then whole (-128) 127 4 else none
    | 4 => if inst = 0 then whole 4 24 24 else none
    | 5 => if inst < 6 then whole 0 65535 64 else none
    | 6 => if inst < 2 then whole 0 65535 256 else none
    | _ => none
  else if scope = 0 ∧ kind = 7 then
    if inst < 32 then whole 0 80 4 else if inst < 48 then whole 0 48 4 else none
  else none

/-- The rails of a loop after reset: the defaults of R167, R384 and R435, and a bias code of 0x8000 (R445). -/
def defaultRail (id : Nat) : RailState :=
  let k := (loopKind id).getD ⟨0, 0, 0, 0, 0⟩
  let out : Int := if id / 0x100 % 16 = 5 ∨ id / 0x100 % 16 = 6 then 0x8000 else 0
  { min := k.dLo, max := k.dHi, step := k.step, freeze := false, dwell := 0,
    pMin := k.dLo, pMax := k.dHi, pStep := k.step, pFreeze := false, pDwell := 0,
    clamped := false, pinLo := false, pinHi := false, throttled := false, refused := false,
    loSince := none, hiSince := none, out := out }

def State.rail (s : State) (id : Nat) : RailState := sparseGet defaultRail s.rails id

def State.updRail (s : State) (id : Nat) (f : RailState → RailState) : State :=
  { s with rails := sparseSet defaultRail id (f (s.rail id)) s.rails }

/-- The output of a loop that its rail state holds: bias, optical power and lane adaptation (R435, R384). -/
def State.setOut (s : State) (id : Nat) (v : Int) : State := s.updRail id fun r => { r with out := v }

/-- Milliseconds over which a loop must be clamped to become pinned (R167). -/
def RailState.dwellMs (r : RailState) : Nat := if r.dwell = 0 then 1000 else r.dwell

/-- The source that a loop's pinned event uses (R176, R396): `n` is 20 for pinned, 21 for throttled. -/
def railSource (id n : Nat) : Nat :=
  if id / 0x1000 = 0 then
    (if id % 0x100 < 32 then 97 + 2 * (id % 0x100) else 161 + 2 * (id % 0x100 - 32))
  else pathSrc (loopPath id) n

/-- The quantity that the pinned and throttled events of path loops carry: the identifier (R176). -/
def railValue (id : Nat) : Nat := if id / 0x1000 = 0 then 0 else id

/-- Follows the pinned state (R172): `lo` and `hi` tell to which rail this update was clamped. -/
def State.railPin (s : State) (id : Nat) (lo hi clamped : Bool) : State :=
  let r := s.rail id
  let never := r.freeze || r.min == r.max
  let since (b : Bool) (o : Option Nat) : Option Nat := if b && !never then some (o.getD s.upNs) else none
  let loS := since lo r.loSince
  let hiS := since hi r.hiSince
  let held (o : Option Nat) : Bool := match o with
    | some t => decide (t + r.dwellMs * 1000000 ≤ s.upNs)
    | none => false
  let pinLo := held loS
  let pinHi := held hiS
  let s := s.updRail id fun r =>
    { r with clamped := clamped, loSince := loS, hiSince := hiS, pinLo := pinLo, pinHi := pinHi }
  let was := r.pinLo || r.pinHi
  let now := pinLo || pinHi
  if was == now then s
  else s.raise (railSource id 20) 0 id (if now then railValue id else cleared (railValue id)) 0

/-- Sets or clears `THROTTLED` (R173). -/
def State.railThrottle (s : State) (id : Nat) (b : Bool) : State :=
  let was := (s.rail id).throttled
  let s := s.updRail id fun r => { r with throttled := b }
  if b && !was then s.raise (railSource id 21) 0 id (railValue id) 0 else s

/-- The step rail, then the bounds (R167). -/
def RailState.clamps (r : RailState) (cur want : Int) : Int :=
  clampInt (clampInt want (cur - r.step) (cur + r.step)) r.min r.max

/-- One update of a loop whose output is `cur` and that computed `want`; an output that the rails exclude moves to the
nearest rail (R167, R169). -/
def RailState.bound (r : RailState) (cur want : Int) : Int :=
  if cur < r.min then r.min
  else if r.max < cur then r.max
  else r.clamps cur want

/-- The rail that an update was clamped to: lower, upper. -/
def RailState.hits (r : RailState) (cur want : Int) : Bool × Bool :=
  let x := clampInt want (cur - r.step) (cur + r.step)
  (decide (x < r.min), decide (r.max < x))

/-- The loop's status after an update that made `new` of what it computed. -/
def State.railStatus (s : State) (id : Nat) (cur want new : Int) : State :=
  let h := (s.rail id).hits cur want
  s.railPin id h.1 h.2 (decide (new ≠ want))

/-- One update inside the rails: the new output, and the state with the loop's status followed. -/
def State.railUpdate (s : State) (id : Nat) (cur want : Int) : State × Int :=
  let new := (s.rail id).bound cur want
  (s.railStatus id cur want new, new)

/-- The maxima of the margin levelling rails of a path, with the one of track `t` replaced. -/
def State.levelMax (s : State) (p : Path) (t : Nat) (mx : Int) : List Int :=
  (List.range 16).map fun i => if i = t then mx else (s.rail (loopId p 1 i)).max

/-- Whether B fits under maxima of the margin levelling rails (R168, R170). -/
def PathMode.fitsMax (m : PathMode) (mx : List Int) : Bool :=
  decide ((m.bits : Int) ≤ m.blocks * (mx.take m.trackCount).sum)

/-- Whether a commit keeps the first three rules of R168. -/
def railForm (id : Nat) (mn mx : Int) (step : Nat) : Bool :=
  match loopKind id with
  | none => false
  | some k => decide (mn ≤ mx ∧ k.lo ≤ mn ∧ mx ≤ k.hi ∧ 0 < step)

/-- The identifier of a margin levelling loop. -/
def isLevelId (id : Nat) : Bool := id / 0x100 % 16 == 1 && id / 0x1000 != 0

/-- Whether a commit keeps the fourth rule of R168, which concerns margin levelling. -/
def State.railFits (s : State) (id : Nat) (mx : Int) : Bool :=
  !isLevelId id || (match s.mode (loopPath id) with
    | some m => m.fitsMax (s.levelMax (loopPath id) (id % 0x100) mx)
    | none => true)

/-- Whether R168 accepts a commit. -/
def State.railOk (s : State) (id : Nat) (mn mx : Int) (step : Nat) : Bool :=
  railForm id mn mx step && s.railFits id mx

/-- Takes rails into force: they apply from the loop's next update (R168). A waiting iteration request is withdrawn
(R186). A loop that is frozen or has equal rails is not pinned (R172). -/
def State.railTake (s : State) (id : Nat) (mn mx : Int) (step : Nat) (freeze : Bool) (dwell : Nat) : State :=
  let s := s.updRail id fun r =>
    { r with min := mn, max := mx, step := step, freeze := freeze, dwell := dwell }
  let s := if freeze || mn == mx then s.railPin id false false (s.rail id).clamped else s
  if id / 0x100 % 16 = 4 then
    let p := loopPath id
    (s.rowWithdraw (4 + pathNum p)).updFec p fun f => { f with want := none }
  else s

/-- Writes a loop's pending set (R168). -/
def State.railPend (s : State) (id : Nat) (mn mx : Int) (step : Nat) (freeze : Bool) (dwell : Nat) : State :=
  s.updRail id fun r => { r with pMin := mn, pMax := mx, pStep := step, pFreeze := freeze, pDwell := dwell }

/-- `APPLY` of a loop's pending set (R168). -/
def State.railApply (s : State) (id : Nat) : State :=
  let r := s.rail id
  if s.railOk id r.pMin r.pMax r.pStep then s.railTake id r.pMin r.pMax r.pStep r.pFreeze r.pDwell
  else s.updRail id fun r => { r with refused := true }

/-- Whether a host write of a loop's output would be accepted (R171). -/
def State.railFixOk (s : State) (id : Nat) (v : Int) : Bool := s.railOk id v v (s.rail id).step

/-- A host write of a loop's output commits rails of minimum = maximum, with the step and dwell in force (R171). -/
def State.railFix (s : State) (id : Nat) (v : Int) : State :=
  let r := s.rail id
  s.railTake id v v r.step r.freeze r.dwell

end Sys2Proof.Machine
end

