-- ==== Sys2Proof/Machine/Flags.lean ====
section
/-!
DEFINITION. Status flags that follow from the state: the ordered and actual states of the units (R457), the mismatch
flag (R458), and the frame of a command, which reports the mismatches and ends the dither turns that its effect has ended.
-/
namespace Sys2Proof.Machine

/-- Unit states as R457 encodes them. -/
abbrev UnitState := Nat

def absentSt : UnitState := 0
def offSt : UnitState := 1
def startingSt : UnitState := 2
def runningSt : UnitState := 3

/-- `DAC_READY` (R99). -/
def CnvState.dacReady (c : CnvState) : Bool := c.tx == .running

/-- `ADC_READY` (R99). -/
def CnvState.adcReady (c : CnvState) : Bool := c.rx == .running

def sideActual : SideState → UnitState
  | .off => offSt
  | .lineOff => offSt
  | .waiting => startingSt
  | .starting => startingSt
  | .running => runningSt

/-- The actual state of unit `i` of R457. A port or lane that no record of the image names is absent (log 12). While no
image is active every unit is off, as `CTL_STATE` reads at reset (R478, log 151). -/
def State.actual (s : State) (i : Nat) : UnitState :=
  let p : Path := if i < 8 then .a else .b
  if !s.rte.active then offSt
  else if i < 16 then
    if !s.pathUp p then absentSt
    else match i % 8 with
      | 0 => sideActual (s.path p).cnv.tx
      | 1 => sideActual (s.path p).cnv.rx
      | 2 => if (s.path p).rxd.acq = 0 then offSt else runningSt
      | 3 => if (s.path p).txd.running then runningSt else offSt
      | _ => absentSt
  else if i < 48 then if !(s.rte.cfg.ports.any fun r => r.num == i - 16) then absentSt else
    let st := (s.port (i - 16)).state
    if st = 0 then offSt else if st = 5 then runningSt else startingSt
  else if !(s.rte.cfg.lanes.any (fun r => r.1 == i - 48) || (s.inst 7 && decide (62 ≤ i))) then absentSt
  else
    let st := (s.lane (i - 48)).state
    if st = 0 then offSt else if st = 4 then runningSt else startingSt

/-- The ordered state of unit `i` of R457: running while its ordering field is 1. -/
def State.ordered (s : State) (i : Nat) : UnitState :=
  let p : Path := if i < 8 then .a else .b
  let on :=
    if i < 16 then match i % 8 with
      | 0 => s.pflag p Reg.PA_CNV_CTRL 0
      | 1 => s.pflag p Reg.PA_CNV_CTRL 1
      | 2 => s.pflag p Reg.PA_RXD_CTRL 0
      | 3 => s.pflag p Reg.PA_TXD_CTRL 0
      | _ => false
    else if i < 48 then flagOf (s.regI Reg.HSF_PORT_CTRL (i - 16)) 0
    else flagOf (s.regI Reg.HSL_LANE_CTRL (i - 48)) 0
  if on then runningSt else offSt

/-- Whether unit `i` is in mismatch (R458). -/
def State.mismatched (s : State) (i : Nat) : Bool :=
  let a := s.actual i
  let o := s.ordered i
  a != absentSt && ((o == runningSt && a == offSt) || (o == offSt && a != offSt))

/-- Reports, as cleared, the mismatches that have ended (R458). -/
def State.mismatchSweep (s : State) : State :=
  s.ctl.mismatch.foldl (fun s i =>
    if s.mismatched i then s
    else ({ s with ctl := { s.ctl with mismatch := s.ctl.mismatch.filter (fun j => j != i) } }).raise 302 2 i
      (cleared (s.ordered i)) (s.actual i)) s

/-! ### Dither turns (R438) -/

def State.dither (s : State) : Path → DitherState
  | .a => s.mon.dithA
  | .b => s.mon.dithB

def State.updDither (s : State) (p : Path) (f : DitherState → DitherState) : State :=
  match p with
  | .a => { s with mon := { s.mon with dithA := f s.mon.dithA } }
  | .b => { s with mon := { s.mon with dithB := f s.mon.dithB } }

/-- Identifier of an optical loop of a path (R435). -/
def optLoop (p : Path) (i : Nat) : Nat := if i < 6 then loopId p 5 i else loopId p 6 (i - 6)

/-- Control word of an optical loop. -/
def State.optCtrl (s : State) (p : Path) (i : Nat) : Word := s.regI Reg.MON_LOOP_CTRL (pathNum p * 8 + i)

/-- The voltage that a code sets on a bias output under its factory trims, clamped to 0 V to 1.6 V (R434). -/
def State.biasVolts (s : State) (dac code : Nat) : Rat :=
  let trim := s.mon.trims.getD dac (0, 0)
  let v : Rat := ((code : Rat) * (1 + (trim.1 : Rat) / 1024) + (trim.2 : Rat)) * 16 / 655360
  if v < 0 then 0 else if 16 / 10 < v then 16 / 10 else v

/-- A bias output takes a code (R434). -/
def State.biasOut (s : State) (dac code : Nat) : State := s.emit (.monitor dac code (s.biasVolts dac code))

/-- A turn ends without an update; the output returns to its base level. -/
def State.abandonTurn (s : State) (p : Path) (t : Turn) : State :=
  let s := (s.updDither p fun d => { d with turn := none, last := t.loop }).biasOut
    (pathNum p * 8 + t.loop) (s.rail (optLoop p t.loop)).out.toNat
  let keep (c : Conv) : Bool := !(c.dither && c.num == pathNum p)
  let s := { s with mon := { s.mon with queue := s.mon.queue.filter keep } }
  s.occ ⟨0, 286, 0, pathNum p * 8 + t.loop, pathNum p, t.loop, false, 3⟩

/-- Abandons the turns whose loop has been frozen or disabled, or whose DACs are no longer ready. -/
def State.turnSweep (s : State) (p : Path) : State :=
  match (s.dither p).turn with
  | none => s
  | some t =>
    if (s.rail (optLoop p t.loop)).freeze || !flagOf (s.optCtrl p t.loop) 15 || !(s.path p).cnv.dacReady
    then s.abandonTurn p t else s

/-- What closes every command: the turns its effect ended (R438), the mismatches its effect ended (R458), and the
occurrences into the journal. -/
def State.finish (s : State) : State :=
  ((s.turnSweep .a).turnSweep .b).mismatchSweep.flush

/-- A command that acts whether or not the device is in reset. -/
def completeAlways (f : State → State) (s : State) : Host.Outcome State Fault Refusal :=
  .next (f s.begin).finish

/-- A command runs as a whole: it begins, has its effect, reports what its effect ended, and its occurrences reach the
journal. A device in reset does nothing (R483). -/
def complete (f : State → State) (s : State) : Host.Outcome State Fault Refusal :=
  if s.pwr.inReset then .next s.begin else completeAlways f s

end Sys2Proof.Machine
end

