-- ==== Sys2Proof/Machine/Locks.lean ====
section
/-!
DEFINITION. Sessions and sequence locks (R460 to R463): who holds a domain, breaking a lock, and the per-session
registers.
-/
namespace Sys2Proof.Machine

/-- The number of a session (R467): 0 PCIe, 1 maintenance, 256 + station for a ring session. -/
def sessionNum : Session → Nat
  | .pcie => 0
  | .maint => 1
  | .ring st => 256 + st.toNat

def State.session (s : State) (n : Nat) : SessState := sparseGet (fun _ => freshSession) s.ctl.sessions n

def State.updSession (s : State) (n : Nat) (f : SessState → SessState) : State :=
  { s with ctl := { s.ctl with sessions := sparseSet (fun _ => freshSession) n (f (s.session n)) s.ctl.sessions } }

def freshLock : LockState := ⟨none, false, []⟩

def State.lock (s : State) (d : Nat) : LockState := sparseGet (fun _ => freshLock) s.ctl.locks d

def State.updLock (s : State) (d : Nat) (f : LockState → LockState) : State :=
  { s with ctl := { s.ctl with locks := sparseSet (fun _ => freshLock) d (f (s.lock d)) s.ctl.locks } }

/-- A lock breaks: its staged writes are discarded, the domain becomes free, and the next acquirer hears of it
(R463). -/
def State.breakLock (s : State) (d : Nat) : State :=
  match (s.lock d).owner with
  | none => s
  | some n => (s.updLock d fun _ => ⟨none, true, []⟩).raise 302 1 d d n

/-- Breaks the locks of every session that satisfies `p`. -/
def State.breakLocks (s : State) (p : Nat → Bool) : State :=
  (List.range 8).foldl (fun s d => match (s.lock d).owner with
    | some n => if p n then s.breakLock d else s
    | none => s) s

/-- The domain that covers a block (R460). -/
def State.domainOf (s : State) (block : Nat) : Option Nat :=
  (List.range 8).find? fun d => flagOf (s.reg (Reg.CTL_LOCK_SCOPE0 + 4 * d)) block

/-- The position of the block that an offset lies in (R453). -/
def blockOf (off : Nat) : Nat :=
  if off < 0x00100000 then 0 else if off < 0x00200000 then 1 else if off < 0x00400000 then 2
  else if off < 0x00800000 then 3 else if off < 0x00C00000 then 4 else if off < 0x00D00000 then 5
  else if off < 0x00E00000 then 6 else if off < 0x01000000 then 7 else if off < 0x01800000 then 8
  else if off < 0x01C00000 then 9 else if off < 0x01E00000 then 10 else if off < 0x02000000 then 11
  else if off < 0x02200000 then 12 else if off < 0x02400000 then 13 else if off < 0x02500000 then 14
  else if off < 0x02600000 then 15 else if off < 0x02800000 then 16 else if off < 0x02900000 then 17 else 18

/-- Offsets from here on are unmapped (R453). -/
def unmappedFrom : Nat := 0x02A00000

/-- The sessions that satisfy `p` are reset (R451, R456). -/
def State.resetSessions (s : State) (p : Nat → Bool) : State :=
  let s := s.breakLocks p
  { s with ctl := { s.ctl with sessions := sparseDrop p s.ctl.sessions } }

/-- A session is reset: its locks break and its registers return to their reset values (R448, R450, R456). -/
def State.resetSession (s : State) (n : Nat) : State :=
  (s.breakLocks (fun m => m == n)).updSession n fun _ => freshSession

end Sys2Proof.Machine
end

