-- ==== Sys2Proof/Machine/Crypto.lean ====
section
/-!
DEFINITION. Operand forms of the cryptographic functions: outputs of fixed length, the HKDF of RFC 5869 for outputs of
up to two hash blocks, and the counter-mode cipher that GCM uses.
-/
namespace Sys2Proof.Machine

def sha384 (b : Bytes) : Bytes := padTo 48 (Config.sha384 b)

def hmac384 (key msg : Bytes) : Bytes := padTo 48 (Config.hmac384 key msg)

/-- HKDF-Extract on SHA-384. -/
def hkdfExtract (salt ikm : Bytes) : Bytes := hmac384 salt ikm

/-- HKDF-Expand for at most 96 bytes: its first two blocks (RFC 5869). -/
def hkdfExpand (prk info : Bytes) (n : Nat) : Bytes :=
  let t1 := hmac384 prk (info ++ [1])
  if n ≤ 48 then t1.take n else (t1 ++ hmac384 prk (t1 ++ info ++ [2])).take n

/-- ASCII text of an info string. -/
def ascii (s : String) : Bytes := s.toList.map fun c => BitVec.ofNat 8 c.toNat

/-- Bytes enciphered or deciphered in counter mode, from stream position `off`. -/
def ctrXor (key iv : Bytes) (off : Nat) (b : Bytes) : Bytes :=
  List.zipWith (fun x i => x ^^^ Config.aesCtr key iv (off + i)) b (List.range b.length)

def gcmTag (key iv aad cipher : Bytes) : Bytes := padTo 16 (Config.gcmTag key iv aad cipher)

/-- `n` bytes that a random generator supplies: free values. -/
def randomBytes (ctr first n : Nat) : Bytes := (List.range n).map fun i => Config.freeByte ctr (first + i)

/-- CBC of whole blocks; `fuel` bounds their number. -/
def cbcEncrypt (key : Bytes) : Nat → Bytes → Bytes → Bytes
  | 0, _, _ => []
  | _ + 1, _, [] => []
  | fuel + 1, prev, b =>
    let c := padTo 16 (Config.aesBlock key (List.zipWith (· ^^^ ·) (b.take 16) prev))
    c ++ cbcEncrypt key fuel c (b.drop 16)

def cbcDecrypt (key : Bytes) : Nat → Bytes → Bytes → Bytes
  | 0, _, _ => []
  | _ + 1, _, [] => []
  | fuel + 1, prev, b =>
    List.zipWith (· ^^^ ·) (padTo 16 (Config.aesUnblock key (b.take 16))) prev ++ cbcDecrypt key fuel (b.take 16) (b.drop 16)

/-- PKCS#7 padding to whole blocks of 16 bytes. -/
def pkcsPad (b : Bytes) : Bytes := let n := 16 - b.length % 16; b ++ List.replicate n (BitVec.ofNat 8 n)

/-- The bytes without their PKCS#7 padding, where it is valid. -/
def pkcsUnpad (b : Bytes) : Option Bytes :=
  let n := (b.getLastD 0).toNat
  if 1 ≤ n ∧ n ≤ 16 ∧ n ≤ b.length ∧ b.drop (b.length - n) = List.replicate n (BitVec.ofNat 8 n)
  then some (b.take (b.length - n)) else none

end Sys2Proof.Machine
end

