-- ==== Sys2Proof/Machine/Code.lean ====
section
/-!
DEFINITION. Soft-decision coding (08_fec.md): the LDPC codes, the order of coded bits, and the decoder.
-/
namespace Sys2Proof.Machine

/-! ### The codes (R177 to R181) -/

/-- Base rows of a FEC code: 6, 8 or 10 (R177). -/
def baseRows (fec : Nat) : Nat := match fec with | 0 => 6 | 1 => 8 | _ => 10

/-- Rows of an information column's four base entries (R178). -/
def infoRows (c : Nat) : List Nat := [c % 6, (c + 1) % 6, (c + 3) % 6, 6 + c % 4]

/-- The shift at base position (i, c) of the code with `r` base rows, or none where it is empty (R178). -/
def ldpcShift (r i c : Nat) : Option Nat :=
  if r ≤ i then none
  else if c < 40 then (if i ∈ infoRows c then some ((37 * c + 101 * i + 13 * i * c) % 640) else none)
  else
    let p := c - 40
    if i < 6 then (if p < 6 ∧ (i = p ∨ (i = p + 1 ∧ p ≤ 4)) then some 0 else none)
    else if p = i - 6 then some 320
    else if p = i then some 0
    else none

/-- The sum of the terms of check row (i, a) over base columns below `n` (R178). -/
def checkSum (r : Nat) (x : Nat → Bool) (i a : Nat) : Nat → Bool
  | 0 => false
  | c + 1 => xor (checkSum r x i a c) (match ldpcShift r i c with
    | some s => x (640 * c + (a + s) % 640)
    | none => false)

/-- Whether a word of n_c bits is a code word of the code with `r` base rows: H x = 0. -/
def isCodeword (r : Nat) (x : Nat → Bool) : Bool :=
  (List.range r).all fun i => (List.range 640).all fun a => !checkSum r x i a (40 + r)

/-- Parity bit `b` of core parity block 40 + p: row 0's information sum, then row by row (R179). -/
def coreParity (r : Nat) (x : Nat → Bool) (b : Nat) : Nat → Bool
  | 0 => checkSum r x 0 b 40
  | p + 1 => xor (coreParity r x b p) (checkSum r x (p + 1) b 40)

/-- Bit `j` of the code word with information bits `x` (R179). -/
def encodeBit (r : Nat) (x : Nat → Bool) (j : Nat) : Bool :=
  let c := j / 640
  let b := j % 640
  if c < 40 then x j
  else if c < 46 then coreParity r x b (c - 40)
  else xor (checkSum r x (c - 40) b 40) (coreParity r x ((b + 320) % 640) (c - 46))

/-- The code word and the bit that coded bit `q` of a frame of `w` code words carries (R181). -/
def codedBit (w q : Nat) : Nat × Nat := (q % w, q / w)

/-- The frame byte and the bit of it that information bit `i` of code word `w` is (R180). -/
def infoBit (w i : Nat) : Nat × Nat := (3200 * w + i / 8, 7 - i % 8)

/-! ### The decoder (R182, R183) -/

/-- The bits of check row (i, a) of the code with `r` base rows. -/
def checkVars (r i a : Nat) : List Nat :=
  (List.range (40 + r)).filterMap fun c => (ldpcShift r i c).map fun s => 640 * c + (a + s) % 640

/-- The messages of a check to its bits, from the bits' messages `q`: the least magnitude of the others, scaled by
`norm` / 16 and rounded with ties to even, under the product of their signs (R182). -/
def checkNode (norm : Nat) (q : List Int) : List Int :=
  (List.range q.length).map fun n =>
    let others := q.eraseIdx n
    let least := others.foldl (fun m x => min m x.natAbs) ((others.headD 0).natAbs)
    let odd := (others.filter fun x => decide (x < 0)).length % 2 == 1
    let v := roundHalfEven ((norm * least : Nat) : Int) 16
    if odd then -v else v

/-- What decoding holds: the posterior of every bit, and the messages of every check row to its bits. -/
structure MinSum where
  post : List Int
  msgs : List (List Int)

/-- One check row of a layer: its bits give up what it told them last and take what it tells them now. -/
def MinSum.row (r norm : Nat) (m : MinSum) (j : Nat) : MinSum :=
  let vars := checkVars r (j / 640) (j % 640)
  let old := m.msgs.getD j []
  let q := vars.zipIdx.map fun v => m.post.getD v.1 0 - old.getD v.2 0
  let new := checkNode norm q
  { post := ((vars.zip q).zip new).foldl (fun post x => post.set x.1.1 (x.1.2 + x.2)) m.post
    msgs := m.msgs.set j new }

/-- One iteration: the layers are the base rows in order (R182). -/
def MinSum.iterate (r norm : Nat) (m : MinSum) : MinSum := (List.range (640 * r)).foldl (MinSum.row r norm) m

/-- The hard decisions: 0 for a posterior that is not negative (R182). -/
def MinSum.hard (m : MinSum) : List Bool := m.post.map fun x => decide (x < 0)

/-- A decoded word: its bits, the iterations used, and whether every check is satisfied (R183). -/
structure Decoded where
  bits  : List Bool
  iters : Nat
  ok    : Bool

/-- Decoding goes on until the checks are satisfied, for `left` iterations at most (R182). -/
def MinSum.run (r norm : Nat) : Nat → Nat → MinSum → Decoded
  | 0, done, m => ⟨m.hard, done, false⟩
  | left + 1, done, m =>
    let m := m.iterate r norm
    let x := m.hard
    if isCodeword r fun i => x.getD i false then ⟨x, done + 1, true⟩ else MinSum.run r norm left (done + 1) m

/-- Decoding of one word with limit `iMax` (R182). -/
def decodeWord (r norm iMax : Nat) (llr : List Int) : Decoded :=
  MinSum.run r norm iMax 0 ⟨llr, List.replicate (640 * r) []⟩

/-- The LLRs of code word `w` of a frame of `words`, from the frame's in the order of coded bits (R181). -/
def wordLlrs (words nc : Nat) (llr : List Int) (w : Nat) : List Int :=
  (List.range nc).map fun b => llr.getD (b * words + w) 0

/-- Bytes of bits, the first bit most significant (R180). -/
def bitBytes (bits : List Bool) (n : Nat) : Bytes :=
  (List.range n).map fun i =>
    BitVec.ofNat 8 ((List.range 8).foldl (fun v k => 2 * v + b2n (bits.getD (8 * i + k) false)) 0)

/-- The frame that the decoder delivers, with what it counts (R183, R188): corrected bits over correctable words only, and
as hits the words that ran all iterations (R185). -/
def decodeFrame (m : PathMode) (norm iMax : Nat) (llr : List Int) : RxFrame :=
  let words := (List.range m.words).map fun w =>
    let l := wordLlrs m.words m.codeLen llr w
    (l, decodeWord (baseRows m.fec) norm iMax l)
  let bytes (w : Nat) : Bytes := bitBytes ((words.map fun x => x.2.bits).getD w []) 3200
  let fixed (x : List Int × Decoded) : Nat :=
    ((x.1.zip x.2.bits).filter fun b => decide (b.1 < 0) != b.2).length
  { overhead := bytes 0
    slots := (List.range m.slots).map fun i => (i, bytesAt (bytes (1 + i / 5)) (640 * (i % 5)) 640)
    uncorr := (List.range m.words).filter fun w => !((words.map fun x => x.2.ok).getD w false)
    corr := ((words.filter fun x => x.2.ok).map fixed).sum
    iterSum := (words.map fun x => x.2.iters).sum
    hits := (words.filter fun x => x.2.iters == iMax).length
    maxUsed := (words.map fun x => x.2.iters).foldl max 0 }

end Sys2Proof.Machine
end

