-- ==== Sys2Proof/Machine/Signal.lean ====
section
/-!
DEFINITION. Arithmetic of the signal processing: complex numbers and 2 by 2 matrices over the rational numbers, the discrete
Fourier transform, rounding, and comparisons of decibels by whole powers.
-/
namespace Sys2Proof.Machine

/-! ### Complex numbers -/

def Cx.zero : Cx := ⟨0, 0⟩
def Cx.one : Cx := ⟨1, 0⟩
def Cx.add (a b : Cx) : Cx := ⟨a.re + b.re, a.im + b.im⟩
def Cx.sub (a b : Cx) : Cx := ⟨a.re - b.re, a.im - b.im⟩
def Cx.mul (a b : Cx) : Cx := ⟨a.re * b.re - a.im * b.im, a.re * b.im + a.im * b.re⟩
def Cx.conj (a : Cx) : Cx := ⟨a.re, -a.im⟩
def Cx.scale (k : Rat) (a : Cx) : Cx := ⟨k * a.re, k * a.im⟩

/-- The squared magnitude. -/
def Cx.norm2 (a : Cx) : Rat := a.re * a.re + a.im * a.im

def Cx.inv (a : Cx) : Cx := a.conj.scale (1 / a.norm2)

/-- The angle in turns. -/
def Cx.arg (a : Cx) : Rat := Config.argTurn a.re a.im

/-- The unit number at `x` turns. -/
def turn (x : Rat) : Cx := ⟨Config.cosTurn x, Config.sinTurn x⟩

def sumRat (l : List Rat) : Rat := l.foldl (fun a x => a + x) 0

def sumCx (l : List Cx) : Cx := l.foldl Cx.add .zero

/-- Component `pol` of a dual-polarisation sample: 0 X, 1 Y. -/
def Sig.pol (x : Sig) (n : Nat) : Cx := if n = 0 then x.1 else x.2

/-- One function on both polarisations. -/
def Sig.map (f : Cx → Cx) (x : Sig) : Sig := (f x.1, f x.2)

def Sig.zero : Sig := (.zero, .zero)

/-- Component `n` of four, XI, XQ, YI and YQ (R86). -/
def Sig.comp (x : Sig) (n : Nat) : Rat :=
  match n with | 0 => x.1.re | 1 => x.1.im | 2 => x.2.re | _ => x.2.im

/-- The sample with the four components `f 0` to `f 3`. -/
def Sig.ofComps (f : Nat → Rat) : Sig := (⟨f 0, f 1⟩, ⟨f 2, f 3⟩)

/-! ### Matrices -/

def Mat2.zero : Mat2 := ⟨.zero, .zero, .zero, .zero⟩
def Mat2.one : Mat2 := ⟨.one, .zero, .zero, .one⟩
def Mat2.map (f : Cx → Cx) (m : Mat2) : Mat2 := ⟨f m.a, f m.b, f m.c, f m.d⟩
def Mat2.scale (k : Rat) (m : Mat2) : Mat2 := m.map (Cx.scale k)
def Mat2.add (m n : Mat2) : Mat2 := ⟨m.a.add n.a, m.b.add n.b, m.c.add n.c, m.d.add n.d⟩
def Mat2.mul (m n : Mat2) : Mat2 :=
  ⟨(m.a.mul n.a).add (m.b.mul n.c), (m.a.mul n.b).add (m.b.mul n.d),
   (m.c.mul n.a).add (m.d.mul n.c), (m.c.mul n.b).add (m.d.mul n.d)⟩

/-- The inverse. -/
def Mat2.inv (m : Mat2) : Mat2 :=
  let k := ((m.a.mul m.d).sub (m.b.mul m.c)).inv
  ⟨k.mul m.d, (k.mul m.b).scale (-1), (k.mul m.c).scale (-1), k.mul m.a⟩

/-- The matrix applied to a sample. -/
def Mat2.app (m : Mat2) (v : Sig) : Sig :=
  ((m.a.mul v.1).add (m.b.mul v.2), (m.c.mul v.1).add (m.d.mul v.2))

/-- A column times the conjugate transpose of a column. -/
def outer (u v : Sig) : Mat2 := ⟨u.1.mul v.1.conj, u.1.mul v.2.conj, u.2.mul v.1.conj, u.2.mul v.2.conj⟩

/-- The real part of the trace. -/
def Mat2.trace (m : Mat2) : Rat := m.a.re + m.d.re

/-- The rows made orthonormal, the first row first. -/
def Mat2.orthonormal (m : Mat2) : Mat2 :=
  let unit (r : Sig) : Sig := r.map (Cx.scale (1 / Config.sqrtOf (r.1.norm2 + r.2.norm2)))
  let r := unit (m.a, m.b)
  let dot := (m.c.mul r.1.conj).add (m.d.mul r.2.conj)
  let q := unit (m.c.sub (dot.mul r.1), m.d.sub (dot.mul r.2))
  ⟨r.1, r.2, q.1, q.2⟩

/-! ### Transforms -/

/-- The value at `time` of the numbers `x`, at whole times from `t0` on, transformed to frequency `f`. -/
def fourier (x : List Cx) (t0 : Rat) (f : Rat) : Cx :=
  sumCx (x.zipIdx.map fun v => (turn (-f * (t0 + v.2))).mul v.1)

/-- The discrete Fourier transform. -/
def dft (x : List Cx) : List Cx := (List.range x.length).map fun (k : Nat) => fourier x 0 ((k : Rat) / (x.length : Nat))

/-- Its inverse. -/
def idft (x : List Cx) : List Cx := (dft (x.map Cx.conj)).map fun v => v.conj.scale (1 / ((x.length : Nat) : Rat))

/-- The signed number of bin `b` of `n`: bins from the middle on are negative frequencies. -/
def signedBin (n b : Nat) : Int := if 2 * b < n then b else (b : Int) - n

/-! ### Rounding and decibels -/

/-- The nearest integer, ties to even. -/
def roundRat (q : Rat) : Int := roundHalfEven q.num q.den

/-- The greatest of the integers from `lo` to `hi` that satisfies `ok`, which none above one that fails does; `lo` if there
is none. -/
def greatest (ok : Int → Bool) : Nat → Int → Int → Int
  | 0, lo, _ => lo
  | fuel + 1, lo, hi =>
    let mid := (lo + hi + 1) / 2
    if hi ≤ lo then lo else if ok mid then greatest ok fuel mid hi else greatest ok fuel lo (mid - 1)

/-- 10^(n/640) ≤ a / b: a power ratio is at least n/64 dB. -/
def ratioAtLeast (a b n : Nat) : Bool := decide (10 ^ n * b ^ 640 ≤ a ^ 640)

/-- A power ratio in 1/64 dB, from 0 to 4095 (R125). -/
def snr64 (signal error : Rat) : Nat :=
  let q := signal / error
  if signal ≤ 0 then 0
  else if error ≤ 0 then 4095
  else (greatest (fun n => ratioAtLeast q.num.toNat q.den n.toNat) 13 0 4095).toNat

/-- The greatest gain g from -768 to 1152, in 1/64 dB, with rms × 10^(g/1280) ≤ target (R111). -/
def gainFor (rms target : Nat) : Int :=
  greatest (fun g => decide (rms ^ 1280 * 10 ^ g.toNat ≤ target ^ 1280 * 10 ^ (-g).toNat)) 12 (-768) 1152

/-- The square root, rounded down, of a number below 2^32. -/
def isqrt (n : Nat) : Nat := (greatest (fun x => decide (x.toNat * x.toNat ≤ n)) 18 0 65536).toNat

/-- A gain of g/64 dB as a factor on amplitudes. -/
def ampFactor (g : Int) : Rat := Config.pow10 ((g : Rat) / 1280)

end Sys2Proof.Machine
end

