-- ==== Sys2Proof/Machine/TxSignal.lean ====
section
/-!
DEFINITION. The transmitted signal (06_transmit_dsp.md, R137 to R151, R191; 04_line_converters.md, R88, R89): from the bytes of
a frame to coded bits, matcher blocks, symbols, samples and DAC codes. Time runs in path symbol periods from the start of the
frame, frequency in symbol rates R_s.
-/
namespace Sys2Proof.Machine

/-! ### Coded bits of a frame (R180, R181) -/

/-- Byte `i` of the frame: 3,200 overhead bytes, then the slots in order; slots that carry nothing are zero. -/
def TxFrame.byte (f : TxFrame) (i : Nat) : Byte :=
  if i < 3200 then f.overhead.getD i 0
  else match f.slots.find? fun x => x.1 == (i - 3200) / 640 with
    | some x => x.2.getD ((i - 3200) % 640) 0
    | none => 0

/-- Information bit `i` of code word `w`. -/
def TxFrame.info (f : TxFrame) (w i : Nat) : Bool :=
  let at' := infoBit w i
  (f.byte at'.1).getLsbD at'.2

/-- Coded bit `q` in the order of R181; the pad bits that follow the last one are zero (R146). -/
def TxFrame.bit (f : TxFrame) (q : Nat) : Bool :=
  let c := codedBit f.mode.words q
  decide (q < f.mode.bits) && encodeBit (baseRows f.mode.fec) (f.info c.1) c.2

/-! ### The grid of a track (R137, R138, R146) -/

/-- The path period at which track symbol `i` begins (R137). -/
def PathMode.symbolTime (m : PathMode) (i : Nat) : Nat := 512 + i * m.trackCount

/-- Whether track symbol `i` is a pilot (R138). -/
def isPilot (i : Nat) : Bool := i % 64 == 0

/-- Data symbol positions before track symbol `i`. -/
def dataBefore (i : Nat) : Nat := i - (i + 63) / 64

/-- Whether track symbol `i` of track `t` carries a known symbol: a pilot, or a fill symbol where no block lies (R146). -/
def PathMode.isKnown (m : PathMode) (prof : List Nat) (t i : Nat) : Bool :=
  isPilot i || decide (16 * m.blocksOn prof t ≤ dataBefore i)

/-- Known symbols of track `t` before track symbol `i`. -/
def PathMode.knownBefore (m : PathMode) (prof : List Nat) (t i : Nat) : Nat :=
  (i + 63) / 64 + (dataBefore i - 16 * m.blocksOn prof t)

/-- The generator's state of track `t` after `n` bits, from the start of the frame (R138). -/
def knownState (t : Nat) : Nat → BitVec 15
  | 0 => knownSeed t
  | n + 1 => (knownBit (knownState t n)).1

/-- Known symbol `n` of track `t`: the next four bits are the signs of XI, XQ, YI and YQ (R138, R147). -/
def knownSymbol (t n : Nat) : Sig :=
  Sig.ofComps fun c =>
    let v := Config.sqrtOf (1 / 2)
    if (knownBit (knownState t (4 * n + c))).2 then -v else v

/-! ### Matcher and mapper (R144 to R147) -/

/-- Sequences of amplitudes with given counts. -/
def multinomial (counts : List Nat) : Nat := fact counts.sum / (counts.map fact).foldl (fun a x => a * x) 1

/-- The first amplitude of the sequence of rank `r`, as an index into the counts, and the rank among the sequences that
begin with it. -/
def firstAmp (counts : List Nat) : Nat → Nat → Nat → Nat × Nat
  | 0, i, r => (i, r)
  | fuel + 1, i, r =>
    let n := if counts.getD i 0 = 0 then 0 else multinomial (modifyAt (· - 1) i counts)
    if r < n then (i, r) else firstAmp counts fuel (i + 1) (r - n)

/-- The sequence of rank `r` in ascending lexicographic order among those of `n` amplitudes 1, 3, 5, 7 with the given
counts (R145). -/
def unrank : Nat → List Nat → Nat → List Nat
  | 0, _, _ => []
  | n + 1, counts, r =>
    let x := firstAmp counts 3 0 r
    (2 * x.1 + 1) :: unrank n (modifyAt (· - 1) x.1 counts) x.2

/-- The 64 amplitudes of a block of profile `j` with rank `r` (R145). -/
def blockAmps (j r : Nat) : List Nat :=
  let c := composition j
  unrank 64 [c.1, c.2.1, c.2.2.1, c.2.2.2] r

/-- The first coded bit of block `b` of track `t`: blocks are dealt in turns (R146). -/
def PathMode.blockStart (m : PathMode) (prof : List Nat) (t b : Nat) : Nat :=
  b * m.profSum prof + (prof.take t).sum

/-- The rank that block `b` of track `t` carries in its first k_j bits, the first one most significant (R145). -/
def TxFrame.rank (f : TxFrame) (t b : Nat) : Nat :=
  let q := f.mode.blockStart f.prof t b
  (List.range (f.prof.getD t 64 - 64)).foldl (fun r i => 2 * r + b2n (f.bit (q + i))) 0

/-- Whether error injection inverts sign bit `d` of block `b` of track `t`: every `PERIOD`-th in transmit order (R191). -/
def TxFrame.injected (f : TxFrame) (t b d : Nat) : Bool :=
  let n := (b * f.mode.trackCount + t) * 64 + d + 1
  flagOf f.inj 31 && n % max 1 (fieldOf f.inj 19 0) == 0

/-- The sign of dimension `d` of block `b` of track `t`: the 64 bits after the rank, 0 for positive (R145). -/
def TxFrame.negative (f : TxFrame) (t b d : Nat) : Bool :=
  f.bit (f.mode.blockStart f.prof t b + (f.prof.getD t 64 - 64) + d) != f.injected t b d

/-- The factor that gives profile `j` unit mean energy per polarisation (R147). -/
def unitScale (j : Nat) : Rat := Config.sqrtOf (32 / (energy (composition j) : Nat))

/-- Data symbol `n` of track `t`, one of the 16 of its block: dimension 4 s + e is component e of symbol s (R145, R147). -/
def TxFrame.dataSymbol (f : TxFrame) (t n : Nat) : Sig :=
  let b := n / 16
  let j := f.prof.getD t 64
  let amps := blockAmps j (f.rank t b)
  Sig.ofComps fun e =>
    let d := 4 * (n % 16) + e
    let a : Rat := unitScale j * (amps.getD d 0 : Nat)
    if f.negative t b d then -a else a

/-- Track symbol `i` of track `t`. -/
def TxFrame.symbol (f : TxFrame) (t i : Nat) : Sig :=
  if f.mode.isKnown f.prof t i then knownSymbol t (f.mode.knownBefore f.prof t i) else f.dataSymbol t (dataBefore i)

/-- Training symbol `n` (R139). -/
def training (n : Nat) : Sig :=
  let x (n : Nat) : Cx := turn (-((31 * n * n : Nat) : Rat) / 1024)
  (x n, x ((n + 256) % 512))

/-! ### Coefficients of a frame (R147 to R151, R89) -/

/-- A word of the coefficient set. -/
def TxFrame.word (f : TxFrame) (off idx : Nat) : Word := sparseGet regReset f.coef (regKey (pathReg f.path off) idx)

/-- The roll-off (R148). -/
def TxFrame.rho (f : TxFrame) : Rat := (fieldOf (f.word Reg.PA_TXD_SHAPE 0) 5 0 : Nat) / 256

/-- The per-track power gain as a factor on amplitudes: signed, 1/16 dB (R147). -/
def TxFrame.trackGain (f : TxFrame) (t : Nat) : Rat :=
  let w := f.word (Reg.PA_TXD_TRK_PWR0 + 4 * (t / 4)) 0
  Config.pow10 ((signedOf 8 (fieldOf w (8 * (t % 4) + 7) (8 * (t % 4))) : Rat) / 320)

/-- A gain of the spectral mask (R149). -/
def TxFrame.maskGain (f : TxFrame) (bin : Nat) : Rat := (fieldOf (f.word Reg.PA_TXD_MASK bin) 11 0 : Nat) / 1024

/-- A tap of the pre-compensation filter of stream `d` (R150). -/
def TxFrame.pcfTap (f : TxFrame) (d i : Nat) : Rat :=
  (signedOf 12 (fieldOf (f.word Reg.PA_TXD_PCF (32 * d + i)) 11 0) : Rat) / 1024

/-- A tap of the pre-emphasis of DAC `d` (R89). -/
def TxFrame.dacTap (f : TxFrame) (d i : Nat) : Rat :=
  let lo := 16 * (i % 2)
  (signedOf 10 (fieldOf (f.word (Reg.PA_CNV_DAC_TAP0 + 4 * (i / 2)) d) (lo + 9) lo) : Rat) / 256

/-- The gain trim of DAC `d` (R89). -/
def TxFrame.dacGain (f : TxFrame) (d : Nat) : Rat :=
  1 + (signedOf 10 (fieldOf (f.word Reg.PA_CNV_DAC_TRIM d) 9 0) : Rat) / 4096

/-- The analogue delay trim of DAC `d`, in 10 fs, and its output swing in mV (R89). -/
def TxFrame.dacSkew (f : TxFrame) (d : Nat) : Int := signedOf 12 (fieldOf (f.word Reg.PA_CNV_DAC_TRIM d) 27 16)
def TxFrame.dacSwing (f : TxFrame) (d : Nat) : Nat := 300 + 10 * fieldOf (f.word Reg.PA_CNV_DAC_TRIM d) 15 10

/-! ### Shaping and mask (R140, R147 to R149) -/

def absRat (x : Rat) : Rat := if x < 0 then -x else x

/-- The centre frequency of track `t` of `tracks` (R140). -/
def trackCentre (tracks t : Nat) (rho : Rat) : Rat := ((t : Rat) - ((tracks : Rat) - 1) / 2) * (1 + rho) / tracks

/-- The root-raised-cosine response at a frequency in symbol rates of what is shaped (R148, log 115). -/
def rootRaisedCosine (rho x : Rat) : Rat :=
  let y := absRat x
  if y ≤ (1 - rho) / 2 then 1
  else if (1 + rho) / 2 < y then 0
  else Config.sqrtOf ((1 + Config.cosTurn ((y - (1 - rho) / 2) / (2 * rho))) / 2)

/-- The spectral mask, and zero beyond the band (R149). -/
def TxFrame.mask (f : TxFrame) (x : Rat) : Rat :=
  if (1 + f.rho) / 2 < absRat x then 0
  else f.maskGain (clampInt ((x + 9 / 16) * 256 / (9 / 8)).floor 0 255).toNat

/-- The track in whose band a frequency lies (R140, R147). -/
def TxFrame.trackAt (f : TxFrame) (x : Rat) : Nat :=
  let n := f.mode.trackCount
  (clampInt ((x + (1 + f.rho) / 2) * n / (1 + f.rho)).floor 0 (n - 1 : Nat)).toNat

/-- The spectrum of one symbol of track `t`: a pulse of unit energy, under the track's gain and the mask. -/
def TxFrame.trackBand (f : TxFrame) (t : Nat) (x : Rat) : Rat :=
  let n := f.mode.trackCount
  Config.sqrtOf n * rootRaisedCosine f.rho ((x - trackCentre n t f.rho) * n) * f.trackGain t * f.mask x

/-- The spectrum of one training symbol, weighted by the gain of each track's band and the mask (R139, R147). -/
def TxFrame.trainBand (f : TxFrame) (x : Rat) : Rat :=
  rootRaisedCosine f.rho x * f.trackGain (f.trackAt x) * f.mask x

/-- The pulse that a spectrum gives, `u` periods from its centre. -/
def pulse (band : Rat → Rat) (u : Rat) : Cx :=
  ⟨Config.integral (fun x => band x * Config.cosTurn (x * u)) (-9 / 16) (9 / 16),
   Config.integral (fun x => band x * Config.sinTurn (x * u)) (-9 / 16) (9 / 16)⟩

/-- The sum of dual-polarisation samples. -/
def sumSig (l : List Sig) : Sig := (sumCx (l.map (·.1)), sumCx (l.map (·.2)))

/-- The summed signal of the frame at time `u`: its training block and its tracks, each symbol shaped with the
coefficients of the frame it belongs to (R148). -/
def TxFrame.wave (f : TxFrame) (u : Rat) : Sig :=
  let train := (List.range 512).map fun n => (training n).map ((pulse f.trainBand (u - (n : Nat))).mul ·)
  let track (t : Nat) : List Sig := (List.range f.mode.symbols).map fun i =>
    let at' : Rat := (f.mode.symbolTime i : Nat)
    let carrier := turn (trackCentre f.mode.trackCount t f.rho * at' + Config.txPhase t)
    (f.symbol t i).map fun a => (a.mul carrier).mul (pulse (f.trackBand t) (u - at'))
  sumSig (train ++ (List.range f.mode.trackCount).flatMap track)

/-! ### Pre-compensation and scaling (R150, R151) -/

/-- The response of the pre-compensation filter of stream `d`. -/
def TxFrame.pcfResponse (f : TxFrame) (d : Nat) (x : Rat) : Cx :=
  fourier ((List.range 32).map fun i => (⟨f.pcfTap d i, 0⟩ : Cx)) (-15) (x * 8 / 9)

/-- The scale of stream `d`: its expected RMS, from the coefficient set alone, becomes `RMS` / 16 LSB (R151). -/
def TxFrame.scale (f : TxFrame) (d : Nat) : Rat :=
  let density (x : Rat) : Rat :=
    sumRat ((List.range f.mode.trackCount).map fun t => f.trackBand t x * f.trackBand t x) / f.mode.trackCount
      * (f.pcfResponse d x).norm2
  ((fieldOf (f.word Reg.PA_TXD_SHAPE 0) 27 16 : Nat) / 16)
    / Config.sqrtOf (Config.integral density (-9 / 16) (9 / 16) / 2)

/-- What the frame contributes to stream `d` at sample `n` from its first one, in LSB: nine samples last eight periods
(R86, R150, R151). -/
def TxFrame.level (f : TxFrame) (d : Nat) (n : Int) : Rat :=
  f.scale d * sumRat ((List.range 32).map fun i => f.pcfTap d i * (f.wave (8 * ((n : Rat) + 15 - i) / 9)).comp d)

/-- Samples of a converter in one frame (R27). -/
def PathMode.samples (m : PathMode) : Nat := 1125 * m.k

/-- Frames in a row, each with the place of its first sample. The filter tails of all of them are added (R148). The sample
of stream `d` is in 1/16 LSB and saturates at ±2,048 LSB (R151). -/
def dspSample (frames : List (Int × TxFrame)) (d : Nat) (n : Int) : Int :=
  clampInt (roundRat (16 * sumRat (frames.map fun x => x.2.level d (n - x.1)))) (-32768) 32768

/-! ### Pins and DACs (R88, R89) -/

/-- The signal that a pin pair carries: the XY swap first, then the IQ swap. -/
def pinSignal (xy iq : Bool) (pair : Nat) : Nat :=
  let d := if xy then (pair + 2) % 4 else pair
  if iq then (if d % 2 = 0 then d + 1 else d - 1) else d

/-- The sample that reaches the DAC of a pin pair, in LSB: the inversion bit of the pair comes last (R88). -/
def TxFrame.dacInput (f : TxFrame) (frames : List (Int × TxFrame)) (pair : Nat) (n : Int) : Rat :=
  let x : Rat := (dspSample frames (pinSignal (flagOf f.map 10) (flagOf f.map 8) pair) n : Rat) / 16
  if flagOf f.map pair then -x else x

/-- The rounded result of the DAC's gain trim and pre-emphasis at sample `n`, under the coefficients of frame `f` (R89). -/
def TxFrame.dacValue (f : TxFrame) (frames : List (Int × TxFrame)) (d : Nat) (n : Int) : Int :=
  roundRat (sumRat ((List.range 8).map fun i => f.dacTap d i * (f.dacGain d * f.dacInput frames d (n + 1 - i))))

/-- The DAC code, saturated to -128 to 127. -/
def TxFrame.dacCode (f : TxFrame) (frames : List (Int × TxFrame)) (d : Nat) (n : Int) : Int :=
  clampInt (f.dacValue frames d n) (-128) 127

/-- Samples of the frame that begins at `start` which DAC `d` saturates (R89, R91). -/
def TxFrame.dacSaturated (f : TxFrame) (frames : List (Int × TxFrame)) (start : Int) (d : Nat) : Nat :=
  ((List.range f.mode.samples).filter fun (i : Nat) =>
    f.dacValue frames d (start + i) != f.dacCode frames d (start + i)).length

end Sys2Proof.Machine
end

