-- ==== Sys2Proof/Machine/Converters.lean ====
section
/-!
DEFINITION. The line converters of a path and its laser port (04_line_converters.md): the enable sequence, the slices
and their rotation, the levels of a frame, laser transactions and the fine-tune code.
-/
namespace Sys2Proof.Machine

/-! ### Sides (R98, R99) -/

/-- `TX_EN` and `RX_EN` of a path. -/
def State.txEn (s : State) (p : Path) : Bool := s.pflag p Reg.PA_CNV_CTRL 0

def State.rxEn (s : State) (p : Path) : Bool := s.pflag p Reg.PA_CNV_CTRL 1

/-- The path mode in force towards the line; a path without one has the smallest mode. -/
def State.txMode (s : State) (p : Path) : PathMode := (s.mode p).getD ⟨1, 64, 2, 0⟩

/-- The path mode of the receive generation. -/
def State.rxModeOf (s : State) (p : Path) : PathMode := ((s.path p).rxMode).getD (s.txMode p)

/-- The carrier grant starts the transmit side; without the line reference the side stays off under its grant (R29). -/
def State.startTx (s : State) (p : Path) : State :=
  s.updCnv p fun c => { c with tx := if s.pwr.lineRef then .starting else .lineOff }

/-- The receiver grant starts the receive side. -/
def State.startRx (s : State) (p : Path) : State :=
  s.updCnv p fun c => { c with rx := if s.pwr.lineRef then .starting else .lineOff }

/-- The receiver grant: G_d covers 12 iterations, and I_max does not exceed them (R186). -/
def State.grantRx (s : State) (p : Path) (cost : Nat) : State :=
  let gd := 12 * (s.rxModeOf p).iterCost
  let s := (s.setGd p gd).setGrant (2 + pathNum p) (cost - ceilDiv gd 10)
  (s.updFec p fun f => { f with iMax := min f.iMax 12 }).startRx p

/-- The carrier enable was denied (`late` false) or timed out (R98). -/
def State.txRefused (s : State) (p : Path) (late : Bool) : State :=
  let s := s.setFld (pathReg p Reg.PA_CNV_CTRL) 0 0 0
  (s.updCnv p fun c => { c with tx := .off, txDenied := true }).raise (pathSrc p 1) 0 0 (b2n late) 0

/-- The receiver enable was denied or timed out (R98). -/
def State.rxRefused (s : State) (p : Path) (late : Bool) : State :=
  let s := s.setFld (pathReg p Reg.PA_CNV_CTRL) 1 1 0
  (s.updCnv p fun c => { c with rx := .off, rxDenied := true }).raise (pathSrc p 1) 1 0 (b2n late) 0

/-- `TX_EN` written 0: a waiting request is withdrawn, the grant is returned, and a side that had left off is powered
down at the next frame boundary (R98, R486). -/
def State.txDisable (s : State) (p : Path) : State :=
  let s := (s.rowWithdraw (pathNum p)).setGrant (pathNum p) 0
  s.updCnv p fun c => { c with tx := if c.tx = .waiting ∨ c.tx = .lineOff then .off else c.tx }

/-- `RX_EN` written 0: the receiver grant and G_d are returned (R486). -/
def State.rxDisable (s : State) (p : Path) : State :=
  let s := ((s.rowWithdraw (2 + pathNum p)).setGrant (2 + pathNum p) 0).rowWithdraw (4 + pathNum p)
  let s := (s.setGd p 0).updFec p fun f => { f with want := none }
  s.updCnv p fun c => { c with rx := if c.rx = .waiting ∨ c.rx = .lineOff then .off else c.rx }

/-- `DAC_POWER_UP_DONE`: 200 us after the grant the transmit side is ready (R99). -/
def execDacPowerUpDone (p : Path) : State → Host.Outcome State Fault Refusal :=
  complete fun s =>
    if (s.path p).cnv.tx = .starting ∧ s.txEn p then
      (s.updCnv p fun c => { c with tx := .running }).raise (pathSrc p 0) 0 0 0 0
    else s

/-! ### Slices (R92 to R96) -/

def zeroCorr : Corr := ⟨0, 0, 0⟩

/-- A slice that is not ready. -/
def idleSlice : Slice := ⟨3, 0, zeroCorr, zeroCorr⟩

/-- One function on each of the three quantities. -/
def Corr.map (f : Int → Int) (c : Corr) : Corr := ⟨f c.offset, f c.gain, f c.skew⟩

/-- One function on each of the three quantities of two corrections. -/
def Corr.zip (f : Int → Int → Int) (c d : Corr) : Corr := ⟨f c.offset d.offset, f c.gain d.gain, f c.skew d.skew⟩

/-- A test that one of the three quantities meets. -/
def Corr.any (f : Int → Bool) (c : Corr) : Bool := f c.offset || f c.gain || f c.skew

/-- The correction that three measured needs stand for. -/
def corrOf (x : Int × Int × Int) : Corr := ⟨x.1, x.2.1, x.2.2⟩

/-- A correction outside the field range of R92 makes a slice faulty (R96). -/
def Corr.faulty (c : Corr) : Bool := c.any fun x => decide (x < -128 ∨ 127 < x)

/-- A correction inside the field range (R92). -/
def Corr.inField (c : Corr) : Corr := c.map fun x => clampInt x (-128) 127

/-- What a slice's calibration asks for: its corrections and what exceeds them. -/
def Slice.want (x : Slice) : Corr := x.corr.zip (· + ·) x.excess

/-- A slice whose calibration asks for `want` and whose corrections are `c`. -/
def Slice.withCorr (x : Slice) (c want : Corr) : Slice := { x with corr := c, excess := want.zip (· - ·) c }

/-- A correction inside the rails of its loop, which bound all three corrections of every slice (R95). -/
def railedCorr (r : RailState) (c : Corr) : Corr := c.map fun x => clampInt x r.min r.max

/-- The foreground calibration of one ADC (R96, R99): slices 0 to 63 take positions 0 to 63 and slice 64 is the relief
slice; the first faulty slice in service gives its position to a healthy relief slice. -/
def calibrateAdc (r : RailState) (need : List Corr) : AdcState :=
  let at' (i : Nat) : Corr := need.getD i zeroCorr
  let faulty (i : Nat) : Bool := (at' i).faulty
  let bad := (List.range 64).filter faulty
  let spare := !faulty 64
  let swapped : Option Nat := if spare then bad.head? else none
  let slice (i : Nat) : Slice :=
    let st := if i = 64 then (if faulty 64 then 2 else if swapped.isSome then 0 else 1)
      else if swapped = some i then 2 else 0
    let pos := if i = 64 then swapped.getD 0 else i
    let c := railedCorr r (at' i).inField
    (⟨st, pos, zeroCorr, zeroCorr⟩ : Slice).withCorr c c
  { slices := (List.range 65).map slice, target := 0, due := false,
    retired := faulty 64 || swapped.isSome,
    noRelief := decide (b2n swapped.isSome < bad.length), clip := 0, rms := 0 }

/-- Reports the retirements and the faults that a calibration found (R96). -/
def State.reportAdc (s : State) (p : Path) (a : AdcState) (n : Nat) : State :=
  let s := if a.retired then s.raise (pathSrc p 2) 0 n 0 0 else s
  if a.noRelief then s.raise (pathSrc p 3) 0 n 0 0 else s

/-- `ADC_CALIBRATION_DONE`: the foreground calibration has ended and the receive side is ready (R99). -/
def execAdcCalibrationDone (p : Path) (need : List (List (Int × Int × Int))) :
    State → Host.Outcome State Fault Refusal :=
  complete fun s =>
    if (s.path p).cnv.rx = .starting ∧ s.rxEn p then
      let adcs := (List.range 4).map fun n => calibrateAdc (s.rail (loopId p 3 n)) ((need.getD n []).map corrOf)
      let s := s.updCnv p fun c => { c with rx := .running, adc := adcs }
      let s := s.raise (pathSrc p 0) 1 0 0 0
      (List.range 4).foldl (fun s n => s.reportAdc p (adcs.getD n resetAdc) n) s
    else s

/-- An ADC of a path. -/
def State.adc (s : State) (p : Path) (n : Nat) : AdcState := (s.path p).cnv.adc.getD n resetAdc

def State.updAdc (s : State) (p : Path) (n : Nat) (f : AdcState → AdcState) : State :=
  s.updCnv p fun c => { c with adc := modifyAt f n c.adc }

/-- Whether the rotation of an ADC runs (R93, R95, R96). -/
def State.rotating (s : State) (p : Path) (n : Nat) : Bool :=
  (s.path p).cnv.adcReady && !(s.rail (loopId p 3 n)).freeze && !(s.adc p n).retired

/-- The index of the relief slice, and of the slice in service at a position. -/
def AdcState.reliefIndex (a : AdcState) : Option Nat := findIndex (fun x => x.state == 1) a.slices

def AdcState.inPosition (a : AdcState) (pos : Nat) : Option Nat :=
  findIndex (fun x => x.state == 0 && x.pos == pos) a.slices

/-- One field step from `x` towards `y`. -/
def stepTo1 (x y : Int) : Int := if x < y then x + 1 else if y < x then x - 1 else x

/-- One local frame of the background calibration (R93): what the slice asks for moves one field step towards what the
frame measured it to need, `need`, and each correction moves by at most one field step towards that, inside the rails. What
lies beyond is held and carried (R95). -/
def Slice.calibrate (r : RailState) (need : Corr) (x : Slice) : Slice :=
  let w := (x.want.zip stepTo1 need).inField
  x.withCorr (x.corr.zip stepTo1 (railedCorr r w)) w

/-- The background calibration of all ADCs of a path in one local frame; `need` has each relief slice's need, where the
frame measured it. -/
def State.reliefFrame (s : State) (p : Path) (need : List (Int × Int × Int)) : State :=
  (List.range 4).foldl (fun s n => match (s.adc p n).reliefIndex, need[n]? with
    | some i, some x =>
      if s.rotating p n then
        s.updAdc p n fun a => { a with slices := modifyAt (Slice.calibrate (s.rail (loopId p 3 n)) (corrOf x)) i a.slices }
      else s
    | _, _ => s) s

/-- `RELIEF_INTERVAL_END`: the relief slice has calibrated for 1,024 frames; one whose need makes it faulty is retired,
otherwise the swap is due (R93, R96). -/
def execReliefIntervalEnd (p : Path) (adc : BitVec 2) (need : Int × Int × Int) :
    State → Host.Outcome State Fault Refusal :=
  complete fun s =>
    let n := adc.toNat
    match (s.adc p n).reliefIndex with
    | some i =>
      if !s.rotating p n then s
      else if (corrOf need).faulty then
        (s.updAdc p n fun a =>
          { a with retired := true, due := false,
                   slices := modifyAt (fun x => { x with state := 2 }) i a.slices }).raise (pathSrc p 2) 0 n 0 0
      else s.updAdc p n fun a => { a with due := true }
    | none => s

/-- `RELIEF_SWAP`: the relief slice takes its position, each correction within the rails and within the step rail of the
slice it replaces, and the replaced slice becomes the relief slice (R93 to R95). What its calibration asked for beyond
them pins the loop and is carried into its next turn. -/
def execReliefSwap (p : Path) (adc : BitVec 2) : State → Host.Outcome State Fault Refusal :=
  complete fun s =>
    let n := adc.toNat
    let a := s.adc p n
    let id := loopId p 3 n
    match a.reliefIndex, a.inPosition a.target with
    | some i, some j =>
      if !s.rotating p n || !a.due then s
      else
        let r := s.rail id
        let x := a.slices.getD i idleSlice
        let want := x.want
        let old := (a.slices.getD j idleSlice).corr
        let c := old.zip r.bound x.corr
        let hit (f : Corr → Int) := r.hits (f old) (f want)
        let lo := (hit (·.offset)).1 || (hit (·.gain)).1 || (hit (·.skew)).1
        let hi := (hit (·.offset)).2 || (hit (·.gain)).2 || (hit (·.skew)).2
        let s := s.railPin id lo hi (c != want)
        s.updAdc p n fun a =>
          { a with
            due := false
            target := (a.target + 1) % 64
            slices := modifyAt (fun x => { x with state := 1 }) j
              (modifyAt (fun x => ({ x with state := 0, pos := a.target }).withCorr c want) i a.slices) }
    | _, _ => s

/-! ### One local frame (R91, R97, R98, R100) -/

/-- The samples that DAC `n` saturated in the frame that has just ended: the DAC is ready and the frame was sent, with the
tails of the frames on either side (R89, R91). -/
def State.saturated (s : State) (p : Path) (n : Nat) : Nat :=
  match (s.path p).cnv.dacReady, (s.path p).txd.sent with
  | true, next :: some f :: before =>
    let len : Int := f.mode.samples
    let at' (place : Int) (x : Option TxFrame) : List (Int × TxFrame) := match x with | some g => [(place, g)] | none => []
    f.dacSaturated ((0, f) :: (at' len next ++ at' (-len) (before.headD none))) 0 n
  | _, _ => 0

/-- The saturation counts of the frame that has ended, with their events (R91). -/
def State.satLevels (s : State) (p : Path) : State :=
  let thr := s.reg (pathReg p Reg.PA_CNV_SAT_THR)
  let n := (List.range 4).map (s.saturated p)
  let s := s.updCnv p fun c => { c with dacSat := n.map (min 255) }
  n.zipIdx.foldl (fun s x => if fieldOf thr 15 0 < x.1 then s.raiseItem (pathSrc p 5) 0 x.2 0 0 else s) s

/-- The clipping counts and levels of the frame, with their events; the relief slices calibrate. -/
def State.frameLevels (s : State) (p : Path) (o : FrameObs) : State :=
  let thr := s.reg (pathReg p Reg.PA_CNV_SAT_THR)
  let rx := (s.path p).cnv.adcReady
  let s := (s.reliefFrame p o.need).updCnv p fun c =>
    { c with
      adc := (List.range 4).map fun n =>
        let a := c.adc.getD n resetAdc
        if rx then { a with clip := min 0xFFFF (o.adcClip.getD n 0), rms := min 0xFFFF (o.adcRms.getD n 0) }
        else { a with clip := 0, rms := 0 } }
  if !rx then s else (List.range 4).foldl (fun s n =>
    if fieldOf thr 31 16 < o.adcClip.getD n 0 then s.raiseItem (pathSrc p 6) 0 n 0 0 else s) s

/-- At a frame boundary: a side whose enable is 0 is powered down, and the DAC outputs follow `MUTE` (R98 to R100). -/
def State.sidesAtBoundary (s : State) (p : Path) : State :=
  let tx := s.txEn p
  let rx := s.rxEn p
  let mute := s.pflag p Reg.PA_CNV_CTRL 2
  s.updCnv p fun c =>
    let c := if !tx && (c.tx == .running || c.tx == .starting) then { c with tx := .off } else c
    let c := if !rx && (c.rx == .running || c.rx == .starting)
      then { c with rx := .off, adc := List.replicate 4 resetAdc } else c
    { c with outMuted := c.tx != .running || mute }

/-- Loss of the line reference: the DAC outputs are muted and both sides go to off under the grants that they hold
(R29). A side that still waits for its grant goes on waiting (log 128). -/
def State.lineLost (s : State) (p : Path) : State :=
  let f (x : SideState) : SideState := if x == .running || x == .starting then .lineOff else x
  s.updCnv p fun c => { c with tx := f c.tx, rx := f c.rx, outMuted := true, adc := List.replicate 4 resetAdc }

/-! ### Laser port (R103 to R108) -/

/-- Addresses of the laser registers of R104 (log 21: the numbers are the OIF agreement's). -/
def laserAddrs : List Nat :=
  [0x00, 0x20, 0x21, 0x30, 0x31, 0x32, 0x34, 0x35, 0x36, 0x40, 0x41, 0x42, 0x43, 0x62]

/-- The address of StatusF and its fatal bit (log 21). -/
def statusFAddr : Nat := 0x20
def statusFFatal : Nat := 13

def State.laser (s : State) (p : Path) : LaserState := (s.path p).cnv.laser

def State.updLaser (s : State) (p : Path) (f : LaserState → LaserState) : State :=
  s.updCnv p fun c => { c with laser := f c.laser }

/-- The checksum of a 32-bit frame of the OIF agreement: the exclusive or of its bytes, the checksum's own four bits
being zero, folded to four bits (R104, log 21). -/
def laserChecksum (w : Nat) : Nat :=
  let x := (bitsOf w 27 24 ^^^ bitsOf w 23 16) ^^^ (bitsOf w 15 8 ^^^ bitsOf w 7 0)
  bitsOf x 7 4 ^^^ bitsOf x 3 0

/-- A frame with its checksum in bits [31:28]. -/
def withChecksum (w : Nat) : Nat := laserChecksum w * 0x10000000 + w % 0x10000000

/-- A command frame: `LstRsp` in bit 27 (set when the last reply failed its checksum), read or write in bit 24, the
register in bits [23:16] and its data in bits [15:0] (R104, log 21). -/
def laserFrame (lastBad write : Bool) (addr data : Nat) : Nat :=
  withChecksum (b2n lastBad * 0x8000000 + b2n write * 0x1000000 + addr % 256 * 0x10000 + data % 0x10000)

/-- Whether a reply frame has a right checksum. -/
def replyOk (r : LaserReply) : Bool := withChecksum r.frame.toNat == r.frame.toNat

/-- The status of a reply in bits [25:24]: execution error 1, command pending 3 (log 21). -/
def replyXe (r : LaserReply) : Bool := bitsOf r.frame.toNat 25 24 == 1
def replyCp (r : LaserReply) : Bool := bitsOf r.frame.toNat 25 24 == 3

def replyAddr (r : LaserReply) : Nat := bitsOf r.frame.toNat 23 16
def replyData (r : LaserReply) : Nat := bitsOf r.frame.toNat 15 0

/-- The bit rate of the port: `BAUD` 0 to 3 (R104). -/
def baudRate (code : Nat) : Nat := match code with | 0 => 9600 | 1 => 19200 | 2 => 57600 | _ => 115200

/-- A command frame goes out on `LA_TXD`, at the rate of the port. -/
def State.laserSend (s : State) (p : Path) (write : Bool) (addr data : Nat) : State :=
  s.emit (.laser p (baudRate (s.pfld p Reg.PA_CNV_LASER_CFG 5 4))
    (BitVec.ofNat 32 (laserFrame (s.laser p).badReply write addr data)))

/-- Starts the next transaction when the port is free, in the order of R105. A command whose `GO` came while `PORT_EN` was
0 waits for the port, and `BUSY` reads 1 (log 110). -/
def State.laserNext (s : State) (p : Path) : State :=
  let l := s.laser p
  if !l.enabled || l.txn.isSome then s
  else if l.srqWait then
    (s.updLaser p fun l => { l with srqWait := false, txn := some .srq }).laserSend p false statusFAddr 0
  else match l.hostCmd with
    | some (w, a, d) =>
      (s.updLaser p fun l => { l with hostCmd := none, txn := some (.host w a d) }).laserSend p w a d
    | none =>
      if l.pollWait then
        (s.updLaser p fun l => { l with pollWait := false, txn := some .poll }).laserSend p false statusFAddr 0
      else s

/-- The end of a transaction: a `PORT_EN` of 0 takes effect, and the next transaction may start (R105, R108). -/
def State.laserEnd (s : State) (p : Path) : State :=
  let en := s.pflag p Reg.PA_CNV_LASER_CFG 0
  (s.updLaser p fun l => { l with txn := none, enabled := en }).laserNext p

/-- A host command in progress or waiting (`BUSY`). -/
def LaserState.busy (l : LaserState) : Bool :=
  l.hostCmd.isSome || (match l.txn with | some (.host _ _ _) => true | _ => false)

/-- `GO`: the command is sent in its turn; an address outside the subset is refused without being sent (R104, R105). After
such a refusal `ADDR` holds the address of the command and `DATA` 0 (log 110). -/
def State.laserGo (s : State) (p : Path) (write : Bool) (addr data : Nat) : State :=
  if laserAddrs.contains addr then (s.updLaser p fun l => { l with hostCmd := some (write, addr, data) }).laserNext p
  else s.updLaser p fun l => { l with result := 5, addr := addr, data := 0 }

/-- `PORT_EN` (R108). -/
def State.laserPortEn (s : State) (p : Path) (v : Bool) : State :=
  if v then (s.updLaser p fun l => { l with enabled := true }).laserNext p
  else if (s.laser p).txn.isSome then s
  else s.updLaser p fun l => { l with enabled := false }

/-- `LASER_SERVICE_REQUEST`: a fall of `LA_SRQ_N` asks for a read of StatusF (R105). -/
def execLaserServiceRequest (p : Path) : State → Host.Outcome State Fault Refusal :=
  complete fun s =>
    if (s.laser p).enabled then (s.updLaser p fun l => { l with srqWait := true }).laserNext p else s

/-- `LASER_POLL`: with `POLL` = 1, 100 ms since the last poll (R105). -/
def execLaserPoll (p : Path) : State → Host.Outcome State Fault Refusal :=
  complete fun s =>
    if (s.laser p).enabled && s.pflag p Reg.PA_CNV_LASER_CFG 1 then
      (s.updLaser p fun l => { l with pollWait := true }).laserNext p
    else s

/-- What a reply to a StatusF read does: the status is kept, from an execution-error reply too, and a fatal bit, or a poll
that fails, raises the laser-fault event (R105). A poll fails by a timeout, a bad checksum or an execution error, not by a
command that is pending (log 110). -/
def State.laserStatus (s : State) (p : Path) (poll : Bool) (r : LaserReply) : State :=
  if replyOk r then
    let s := s.updLaser p fun l => { l with statusF := replyData r }
    if (replyData r).testBit statusFFatal || (poll && replyXe r) then s.raise (pathSrc p 7) 0 0 0 0 else s
  else if poll then s.raise (pathSrc p 7) 0 0 0 0 else s

/-- A reply to the host's command: its result; a read of StatusF that shows a fatal bit raises the event too, but
`STATUSF` keeps that of the last poll or service request (R105, R107). A status other than an execution error and a pending
command is `OK` (log 126). -/
def State.laserHost (s : State) (p : Path) (write : Bool) (addr : Nat) (r : LaserReply) : State :=
  let res := if !replyOk r then 2 else if replyXe r then 3 else if replyCp r then 4 else 0
  let s := s.updLaser p fun l => { l with result := res, addr := replyAddr r, data := replyData r }
  if !write && addr == statusFAddr && replyOk r && (replyData r).testBit statusFFatal then s.raise (pathSrc p 7) 0 0 0 0
  else s

/-- `LASER_REPLY`: a complete reply frame ends the transaction (R105). -/
def execLaserReply (p : Path) (reply : LaserReply) : State → Host.Outcome State Fault Refusal :=
  complete fun s =>
    match (s.laser p).txn with
    | none => s
    | some t =>
      let s := s.updLaser p fun l => { l with badReply := !replyOk reply }
      match t with
      | .srq => (s.laserStatus p false reply).laserEnd p
      | .poll => (s.laserStatus p true reply).laserEnd p
      | .host w a _ => (s.laserHost p w a reply).laserEnd p

/-- `LASER_REPLY_TIMEOUT`: no complete reply within 10 ms (R105). `ADDR` and `DATA` stay as they were (log 110). -/
def execLaserReplyTimeout (p : Path) : State → Host.Outcome State Fault Refusal :=
  complete fun s =>
    match (s.laser p).txn with
    | none => s
    | some .srq => s.laserEnd p
    | some .poll => (s.raise (pathSrc p 7) 0 0 0 0).laserEnd p
    | some (.host _ _ _) => (s.updLaser p fun l => { l with result := 1 }).laserEnd p

/-- Levels of a path's laser pins (R103): `LA_DIS_N` is low while `DIS` is 1, `LA_RST_N` during a reset, and `LA_FT` has
0.2 V + code × 1.4 V / 65,536, here in units of 1.4 V / 65,536 above 0.2 V. While `RESET_N` is low, `LA_DIS_N` and
`LA_RST_N` are high-impedance: none (R484). -/
def State.laserPins (s : State) (p : Path) : Option (Bool × Bool) × Nat :=
  (if s.pwr.pinHold then none else some (!s.pflag p Reg.PA_CNV_LASER_CFG 2, !(s.laser p).rst), (s.laser p).code)

/-- `LASER_RESET_END`: `LA_RST_N` rises again after 10 ms (R107, R512). -/
def execLaserResetEnd (p : Path) : State → Host.Outcome State Fault Refusal :=
  complete fun s => s.updLaser p fun l => { l with rst := false }

/-- The fine-tune code for a correction of `df` Hz (R106): the code and whether it was clamped. With `FT_GAIN` 0 it is not
clamped (log 127). -/
def ftCode (df : Int) (gain : Nat) (negate : Bool) : Nat × Bool :=
  if gain = 0 then (0x8000, false)
  else
    let d := roundHalfEven df gain
    let d := if negate then -d else d
    let c := clampInt (0x8000 + d) 0 0xFFFF
    (c.toNat, c == 0 || c == 0xFFFF)

/-- The conversion at each update of the frequency offset loop (R106). -/
def State.fineTune (s : State) (p : Path) (df : Int) : State :=
  let c := ftCode df (s.pfld p Reg.PA_CNV_LASER_CFG 31 16) (s.pflag p Reg.PA_CNV_LASER_CFG 8)
  s.updLaser p fun l => { l with code := c.1, ftLimit := c.2 }

end Sys2Proof.Machine
end

