-- ==== Sys2Proof/Machine/RxSignal.lean ====
section
/-!
DEFINITION. The received signal (05_receive_dsp.md, R110 to R125; R88, R92): from the sample codes of the ADCs through gain,
front-end correction, dispersion compensation, timing recovery, equaliser, tracker and phase recovery to the LLRs.
-/
namespace Sys2Proof.Machine

/-! ### ADC output and front end (R88, R92, R111, R112) -/

/-- The output of an ADC: the slices in service in the order of their positions, with offset and gain applied; the codes
are those of one frame, position p taking every 64th sample from sample p on (R92). -/
def AdcState.output (a : AdcState) (codes : List Int) : List Rat :=
  codes.zipIdx.map fun x =>
    let c := match a.inPosition (x.2 % 64) with | some i => (a.slices.getD i idleSlice).corr | none => zeroCorr
    ((x.1 : Rat) + (c.offset : Rat) / 16) * (1 + (c.gain : Rat) / 2048)

/-- Samples at -128 or +127 (R97). -/
def clippedCount (codes : List Int) : Nat := (codes.filter fun x => x == -128 || x == 127).length

/-- The RMS of an ADC's input in 1/16 LSB (R97). -/
def rmsOf (codes : List Int) : Nat :=
  isqrt (256 * (codes.map fun x => x.natAbs * x.natAbs).sum / max 1 codes.length)

/-- With the sample codes, the clipped counts and the levels of the frame are those of the codes. -/
def measuredObs (o : FrameObs) : FrameObs :=
  if o.codes = [] then o else { o with adcClip := o.codes.map clippedCount, adcRms := o.codes.map rmsOf }

/-- The sample rate of the converters, Hz (R86). -/
def PathMode.sampleRate (m : PathMode) : Rat := (m.k : Nat) * 2197265625 / 2

/-- The samples of DSP signal `d` in a frame: the pin pair that the map gives it (R88), the gain G (R111), and the gain of
its ADC (R112). `codes` are in the order of the pin pairs. -/
def State.gained (s : State) (p : Path) (codes : List (List Int)) (d : Nat) : List Rat :=
  let map := s.reg (pathReg p Reg.PA_CNV_MAP)
  let pair := pinSignal (flagOf map 11) (flagOf map 9) d
  let coef := s.regI (pathReg p Reg.PA_RXD_FE_COEF) d
  let k : Rat := (if flagOf map (4 + pair) then -1 else 1) * ampFactor (s.path p).rxd.gain
    * (1 + (signedOf 10 (fieldOf coef 9 0) : Rat) / 4096)
  ((s.adc p pair).output (codes.getD pair [])).map (k * ·)

/-- The skew of DSP signal `d` relative to XI, in samples (R112). -/
def State.frontSkew (s : State) (p : Path) (d : Nat) : Rat :=
  if d = 0 then 0
  else (signedOf 12 (fieldOf (s.regI (pathReg p Reg.PA_RXD_FE_COEF) d) 27 16) : Rat) * (s.txMode p).sampleRate
    / 100000000000000

/-- A stream that lists its samples from 0 on, and is zero elsewhere. -/
def streamOf (x : List Rat) (n : Int) : Rat := if n < 0 then 0 else x.getD n.toNat 0

/-- The edge as a frame leaves it: the last 128 samples, with the frame's corrections. -/
def FrontEdge.next (e now : FrontEdge) : FrontEdge :=
  { now with x := (List.range 4).map fun d => let w := e.x.getD d [] ++ now.x.getD d []; w.drop (w.length - 128) }

/-- Signal `d` after its skew: the samples from 64 before the frame to 64 before its end, so that the neighbouring frames'
samples are on hand. The first 64 are still under the skew of the frame before (R112, log 120). -/
def FrontEdge.skewed (e now : FrontEdge) (d : Nat) : List Rat :=
  let before := e.x.getD d []
  let w := List.replicate (128 - before.length) 0 ++ before ++ now.x.getD d []
  (List.range (now.x.getD d []).length).map fun (n : Nat) =>
    Config.between (streamOf w) ((n : Rat) + 64 - (if n < 64 then e else now).skew.getD d 0)

/-- The quadrature correction of one polarisation: the Q component without a phase error of `phase` × 2^-11 rad (R112). -/
def quadrature (phase : Int) (x : Cx) : Cx :=
  let a : Rat := (phase : Rat) / 2048
  ⟨x.re, (x.im - x.re * Config.sinRad a) / Config.cosRad a⟩

/-- Gain control and gain correction of one frame of codes, with the skews and the phases that hold for it. -/
def State.frontFrame (s : State) (p : Path) (codes : List (List Int)) : FrontEdge :=
  ⟨(List.range 4).map (s.gained p codes), (List.range 4).map (s.frontSkew p), s.reg (pathReg p Reg.PA_RXD_FE_IQ)⟩

/-- The corrected samples of a frame (R112). -/
def FrontEdge.corrected (e now : FrontEdge) : List Sig :=
  let x := (List.range 4).map (e.skewed now)
  (List.range (x.headD []).length).map fun n =>
    let v := Sig.ofComps fun d => (x.getD d []).getD n 0
    let iq := (if n < 64 then e else now).iq
    (quadrature (signedOf 10 (fieldOf iq 9 0)) v.1, quadrature (signedOf 10 (fieldOf iq 25 16)) v.2)

/-! ### Dispersion compensation with frequency shift (R113) -/

/-- The shift of the spectrum by minus the frequency estimate; `per` is the phase of one sample, in turns. -/
def shiftBy (mix per : Rat) (x : List Sig) : List Sig :=
  x.zipIdx.map fun v => v.1.map ((turn (-(mix + per * v.2))).mul ·)

/-- h(f) = exp(j pi lambda^2 d f^2 / c): `pm` is the wavelength in pm, `d` in ps/nm, `f` in Hz (R113). -/
def dispersion (pm : Nat) (d : Int) (f : Rat) : Cx :=
  let lam : Rat := (pm : Rat) / 1000000000000
  turn (lam * lam * ((d : Rat) / 1000) * f * f / (2 * 299792458))

/-- Samples filtered in frequency as one block. -/
def filtered (h : Rat → Cx) (rate : Rat) (x : List Sig) : List Sig :=
  let n := x.length
  let one (v : List Cx) : List Cx :=
    idft ((dft v).zipIdx.map fun y => (h ((signedBin n y.2 : Rat) * rate / (n : Nat))).mul y.1)
  (one (x.map (·.1))).zip (one (x.map (·.2)))

/-- One block of the overlap-save filter: 262,144 samples give the 131,072 in their middle. -/
def filterBlock (h : Rat → Cx) (rate : Rat) (x : List Sig) : List Sig := ((filtered h rate x).drop 65536).take 131072

/-- All whole blocks of the window: each moves it on by the 131,072 samples that do not overlap. -/
def RxChain.filter (h : Rat → Cx) (rate : Rat) : Nat → RxChain → RxChain
  | 0, c => c
  | fuel + 1, c =>
    if c.front.length < 262144 then c
    else RxChain.filter h rate fuel
      { c with comp := c.comp ++ filterBlock h rate (c.front.take 262144), front := c.front.drop 131072 }

/-! ### Timing recovery (R116) -/

/-- The sample of a stream at a place between its samples. -/
def sampleAt (x : List Sig) (place : Rat) : Sig :=
  Sig.ofComps fun d => Config.between (streamOf (x.map fun v => v.comp d)) place

/-- The clock offsets that timing recovery follows: 100 ppm either way, in 0.01 ppm (R116). -/
def clockRange (clk : Int) : Int := clampInt clk (-10000) 10000

/-- The components of samples, for the estimators of Config. -/
def sigComps (x : List Sig) : List (List Rat) := x.map fun v => (List.range 4).map v.comp

/-- The stream resampled to 9/8 of the far end's symbol rate, `clk` in 0.01 ppm: the samples that it has so far, but for
the last 64, and what is left of it, from 64 samples before the next place on. -/
def RxChain.resample (clk : Int) (c : RxChain) : RxChain :=
  let step : Rat := 1 / (1 + (clk : Rat) / 100000000)
  let room : Rat := (c.comp.length : Rat) - 64 - c.at'
  let n := if room ≤ 0 then 0 else (room / step).ceil.toNat
  let new := (List.range n).map fun (i : Nat) => sampleAt c.comp (c.at' + step * (i : Rat))
  let next := c.at' + step * (n : Rat)
  let used := min c.comp.length (next.floor.toNat - 64)
  { c with grid := c.grid ++ new, comp := c.comp.drop used, at' := next - (used : Rat) }

/-! ### Training correlation (R126) -/

/-- The power of the correlation of the known training symbols with the signal from sample `n` on, both polarisations of
either with both of the other. -/
def correlation (x : List Sig) (n : Nat) : Rat :=
  let y := (List.range 512).map fun (i : Nat) => sampleAt x ((n : Rat) + 9 * (i : Rat) / 8)
  let one (f g : Sig → Cx) : Rat :=
    (sumCx (y.zipIdx.map fun v => (f v.1).mul (g (training v.2)).conj)).norm2
  sumRat ([(·.1), (·.2)].flatMap fun f => [(·.1), (·.2)].map fun g => one f g)

/-- A power ratio in 1/8 dB, rounded down. -/
def ratio8 (a b : Rat) : Nat :=
  let q := a / b
  if a ≤ 0 then 0
  else if b ≤ 0 then 1023
  else (greatest (fun n => decide (10 ^ n.toNat * q.den ^ 80 ≤ q.num.toNat ^ 80)) 11 0 1023).toNat

/-- C of the `len` positions of a frame, in 1/8 dB, and the first position of the peak: the peak over the mean of the other
positions. -/
def trainingFound (x : List Sig) (len : Nat) : Nat × Nat :=
  let power := (List.range len).map (correlation x)
  let peak := power.zipIdx.foldl (fun b v => if b.1 < v.1 then v else b) (power.headD 0, 0)
  (ratio8 peak.1 ((sumRat power - peak.1) / (len - 1 : Nat)), peak.2)

/-! ### Frequency-domain equaliser (R117 to R119) -/

/-- The spectrum at 576 points, interpolated to the 4,096 bins (R118). -/
def bins (points : List Cx) : List Cx :=
  let l := points.map fun x => (x.re, x.im)
  (List.range 4096).map fun b => let v := Config.interpBins l b; ⟨v.1, v.2⟩

/-- Both polarisations of a spectrum, bin by bin. -/
def bothBins (f : (Sig → Cx) → List Cx) : List Sig := (bins (f (·.1))).zip (bins (f (·.2)))

/-- The received training spectrum: 576 samples, which last 512 symbols. -/
def trainingRx (x : List Sig) : List Sig := bothBins fun g => dft ((x.take 576).map g)

/-- The known training spectrum at the same frequencies. -/
def trainingKnown : List Sig :=
  bothBins fun g => (List.range 576).map fun b =>
    fourier ((List.range 512).map fun n => g (training n)) 0 ((signedBin 576 b : Rat) / 512)

/-- The solution of one frame (R118). -/
def Fde.solve (avg load : Nat) (e : Fde) (y : List Sig) : Fde :=
  let a : Rat := 1 / (2 ^ avg : Nat)
  let mean (old : List Mat2) (f : Sig → Sig → Mat2) : List Mat2 :=
    (trainingKnown.zip y).zipIdx.map fun v =>
      ((old.getD v.2 Mat2.zero).scale (1 - a)).add ((f v.1.1 v.1.2).scale a)
  let pxy := mean e.pxy outer
  let pyy := mean e.pyy fun _ y => outer y y
  let pmean := sumRat (pyy.map Mat2.trace) / (pyy.length : Nat) / 2
  let loading := Mat2.one.scale ((load : Rat) / 65536 * pmean)
  { pxy := pxy, pyy := pyy, w := List.zipWith (fun x y => x.mul (y.add loading).inv) pxy pyy }

/-- One block of 4,096 samples through the taps, in frequency. -/
def Fde.block (e : Fde) (x : List Sig) : List Sig :=
  let v := (dft (x.map (·.1))).zip (dft (x.map (·.2)))
  v.zipIdx.map fun y => (e.w.getD y.2 Mat2.zero).app y.1

/-- The sample of track `t` at symbol time `u`, which lies `place` samples into a block with spectrum `y`. -/
def trackSample (tracks t : Nat) (rho : Rat) (y : List Sig) (place u : Rat) : Sig :=
  let carrier := trackCentre tracks t rho * u + Config.rxPhase t
  let w (b : Nat) : Cx :=
    let f : Rat := (signedBin 4096 b : Rat) / 4096
    (turn (f * place - carrier)).scale (Config.trackWeight tracks t (f * 9 / 8) / 4096)
  sumSig (y.zipIdx.map fun v => v.1.map ((w v.2).mul ·))

/-- The tracks of one frame: blocks of 4,096 samples overlap by 640, 320 at either end; each track gets one sample per
symbol. `x` begins 320 samples before the frame. -/
def equalise (m : PathMode) (rho : Rat) (e : Fde) (x : List Sig) : List (List Sig) :=
  let blocks := (List.range (ceilDiv m.samples 3456)).map fun b => e.block ((x.drop (3456 * b)).take 4096)
  (List.range m.trackCount).map fun t => (List.range m.symbols).map fun i =>
    let u : Rat := (m.symbolTime i : Nat)
    let n := 9 * m.symbolTime i / 8 / 3456
    trackSample m.trackCount t rho (blocks.getD n []) (9 * u / 8 - (3456 * n : Nat) + 320) u

/-! ### Polarisation tracker (R121) -/

/-- One update of J from the last pilots, each with its sample before J. -/
def trackUpdate (mu : Nat) (j : Mat2) (pilots : List (Sig × Sig)) : Mat2 :=
  let err (x : Sig × Sig) : Mat2 :=
    let r := j.app x.2
    outer (x.1.1.sub r.1, x.1.2.sub r.2) x.2
  (j.add ((pilots.foldl (fun m x => m.add (err x)) Mat2.zero).scale (1 / (2 ^ mu : Nat)))).orthonormal

/-- The symbols of a track after the tracker, in order, and J at the end; `known i` is the known symbol at position i. J
starts at identity and is updated after every 64 symbols from the last `win` known symbols. DESIGN CHOICE (log 137): the
window starts empty in each frame. -/
def tracked (win mu : Nat) (known : Nat → Option Sig) (x : List Sig) : List Sig × Mat2 :=
  let r := x.zipIdx.foldl (fun (acc : List Sig × Mat2 × List (Sig × Sig)) v =>
    let out := acc.2.1.app v.1
    let pilots := match known v.2 with
      | some p => ((p, v.1) :: acc.2.2).take win
      | none => acc.2.2
    let j := if v.2 % 64 = 63 then trackUpdate mu acc.2.1 pilots else acc.2.1
    (out :: acc.1, j, pilots)) ([], Mat2.one, [])
  (r.1.reverse, r.2.1)

/-! ### Carrier phase recovery (R122) -/

/-- The same angle within half a turn of zero. -/
def wrapTurn (x : Rat) : Rat := x - ((x + 1 / 2).floor : Int)

/-- The phase of a sample against a symbol, in turns. -/
def phaseOf (v p : Sig) : Rat := ((v.1.mul p.1.conj).add (v.2.mul p.2.conj)).arg

/-- The phases at the known symbols. -/
def anchors (known : Nat → Option Sig) (x : List Sig) : List (Nat × Rat) :=
  x.zipIdx.filterMap fun v => (known v.2).map fun p => (v.2, phaseOf v.1 p)

/-- Linear interpolation between anchors, the shorter way round. -/
def interpolate : List (Nat × Rat) → Nat → Rat
  | [], _ => 0
  | [a], _ => a.2
  | a :: b :: l, i =>
    if i < b.1 then a.2 + wrapTurn (b.2 - a.2) * ((i : Rat) - (a.1 : Nat)) / ((b.1 : Rat) - (a.1 : Nat))
    else interpolate (b :: l) i

/-- Amplitudes of a profile per real dimension (R144). -/
def amplitudes (j : Nat) : List Nat := if j ≤ 64 then [1] else if j ≤ 112 then [1, 3] else [1, 3, 5, 7]

/-- The nearest value of a profile's constellation in one real dimension. -/
def decideDim (j : Nat) (x : Rat) : Rat :=
  let points := (amplitudes j).flatMap fun a => let v := unitScale j * (a : Nat); [v, -v]
  points.foldl (fun best v => if absRat (x - v) < absRat (x - best) then v else best) (points.headD 0)

/-- The decision on a data symbol. -/
def decideSymbol (j : Nat) (v : Sig) : Sig := Sig.ofComps fun d => decideDim j (v.comp d)

/-- A sample turned back by a phase. -/
def unturn (phase : Rat) (v : Sig) : Sig := v.map ((turn (-phase)).mul ·)

/-- The phase of every symbol of a track of profile `j`: interpolated, and with `dd` refined by the mean of the
decisions over 2 × `half` + 1 symbols (R122). -/
def phases (dd : Bool) (half j : Nat) (known : Nat → Option Sig) (x : List Sig) : List Rat :=
  let a := anchors known x
  let coarse := (List.range x.length).map (interpolate a)
  if !dd then coarse
  else
    let err := (x.zip coarse).zipIdx.map fun v =>
      let r := unturn v.1.2 v.1.1
      wrapTurn (phaseOf r ((known v.2).getD (decideSymbol j r)))
    coarse.zipIdx.map fun v =>
      let w := (err.drop (v.2 - half)).take (min v.2 half + half + 1)
      v.1 + sumRat w / (max 1 w.length : Nat)

/-- Pilots at which the phase before them is off by a quarter turn or more (R122). -/
def slipCount (known : Nat → Option Sig) (x : List Sig) (phase : List Rat) : Nat :=
  ((anchors known x).filter fun a =>
    isPilot a.1 && a.1 != 0 && decide (1 / 4 ≤ absRat (wrapTurn (phase.getD (a.1 - 1) 0 - a.2)))).length

/-- The mean phase from one pilot to the next, in turns. -/
def pilotSlope (known : Nat → Option Sig) (x : List Sig) : Rat :=
  let a := ((anchors known x).filter fun a => isPilot a.1).map (·.2)
  sumRat (List.zipWith (fun u v => wrapTurn (v - u)) a (a.drop 1)) / (max 1 (a.length - 1) : Nat)

/-! ### Soft demapper (R124) -/

def leastOf (l : List Rat) : Rat := l.foldl (fun m x => if x < m then x else m) (l.headD 0)

/-- The cost of value `v` in dimension `d` of a block, where `y` was received: the squared distance over the noise
variance of its polarisation. -/
def dimCost (noise : Nat → Rat) (y : List Rat) (d : Nat) (v : Rat) : Rat :=
  let e := y.getD d 0 - v
  e * e / noise (d % 4 / 2)

/-- The cost of an amplitude in a dimension, under the better of its signs. -/
def ampCost (noise : Nat → Rat) (y : List Rat) (d : Nat) (v : Rat) : Rat :=
  leastOf [dimCost noise y d v, dimCost noise y d (-v)]

/-- The max-log LLR of bit `i` of a block of profile `j` whose 64 dimensions were received as `y`: over all ranks that the
block can carry, the least cost with the bit 1 less the least with it 0. -/
def blockLlr (j : Nat) (noise : Nat → Rat) (y : List Rat) (i : Nat) : Rat :=
  let k := j - 64
  let value (r d : Nat) : Rat := unitScale j * ((blockAmps j r).getD d 0 : Nat)
  let cost (dim : Nat → Rat) : Rat := sumRat ((List.range 64).map dim)
  let ranks := List.range (2 ^ k)
  let best (bit : Bool) : Rat :=
    if i < k then
      leastOf ((ranks.filter fun r => r.testBit (k - 1 - i) == bit).map fun r =>
        cost fun d => ampCost noise y d (value r d))
    else
      leastOf (ranks.map fun r => cost fun d =>
        if d = i - k then dimCost noise y d (if bit then -value r d else value r d) else ampCost noise y d (value r d))
  best true - best false

/-- The 6-bit value of an LLR: `scale` is the field `SCALE` (R124). -/
def quantLlr (scale : Nat) (llr : Rat) : Int := clampInt (roundRat (llr * (2 ^ scale : Nat) / 2)) (-31) 31

/-- The track that bit `r` of a turn goes to, and the place in its block (R146). -/
def dealt : List Nat → Nat → Nat × Nat
  | [], r => (0, r)
  | j :: js, r => if r < j then (0, r) else let x := dealt js (r - j); (x.1 + 1, x.2)

/-- The LLRs of a frame in the order of coded bits (R181): `x` has each track's symbols, `noise t p` the noise variance of
track t and polarisation p. -/
def frameLlrs (m : PathMode) (prof : List Nat) (scale : Nat) (noise : Nat → Nat → Rat) (x : List (List Sig)) : List Int :=
  let data (t : Nat) : List Sig := (x.getD t []).zipIdx.filterMap fun v => if isPilot v.2 then none else some v.1
  let sum := max 1 (m.profSum prof)
  (List.range m.bits).map fun q =>
    let d := dealt (prof.take m.trackCount) (q % sum)
    let y := (((data d.1).drop (16 * (q / sum))).take 16).flatMap fun v => (List.range 4).map v.comp
    quantLlr scale (blockLlr (prof.getD d.1 64) (noise d.1) y d.2)

/-! ### One received frame, from its equalised symbols to the decoder (R121 to R125) -/

/-- The known symbol at position `i` of track `t`. -/
def PathMode.knownAt (m : PathMode) (prof : List Nat) (t i : Nat) : Option Sig :=
  if m.isKnown prof t i then some (knownSymbol t (m.knownBefore prof t i)) else none

/-- What the stages after the equaliser make of a frame. -/
structure Demod where
  symbols : List (List Sig)           -- after phase recovery, per track
  jones   : List Mat2
  slips   : Nat
  slope   : Rat                       -- mean phase per path symbol period, turns
  pilots  : List (Rat × Rat)          -- sums of |s|^2 and |v - s|^2, index 2 x track + polarisation

/-- The tracker and the phase recovery of a frame; `pol` and `cpr` are the words of `POL_CTRL` and `CPR_CTRL`. -/
def demodulate (m : PathMode) (prof : List Nat) (pol cpr : Word) (x : List (List Sig)) : Demod :=
  let one (t : Nat) : (List Sig × Mat2) × List Rat :=
    let known := m.knownAt prof t
    let r := tracked (fieldOf pol 12 8) (fieldOf pol 3 0) known (x.getD t [])
    (r, phases (flagOf cpr 8) (fieldOf cpr 6 0) (prof.getD t 64) known r.1)
  let l := (List.range m.trackCount).map one
  let sym := l.map fun r => List.zipWith (fun v f => unturn f v) r.1.1 r.2
  let sums (i : Nat) : Rat × Rat :=
    let known := m.knownAt prof (i / 2)
    let p := (sym.getD (i / 2) []).zipIdx.filterMap fun v =>
      if isPilot v.2 then (known v.2).map fun s => ((s.pol (i % 2)).norm2, ((v.1.pol (i % 2)).sub (s.pol (i % 2))).norm2)
      else none
    (sumRat (p.map (·.1)), sumRat (p.map (·.2)))
  { symbols := sym
    jones := l.map fun r => r.1.2
    slips := ((l.zipIdx).map fun r => slipCount (m.knownAt prof r.2) r.1.1.1 r.1.2).sum
    slope := sumRat (l.zipIdx.map fun r => pilotSlope (m.knownAt prof r.2) r.1.1.1)
      / (m.trackCount * (64 * m.trackCount) : Nat)
    pilots := (List.range (2 * m.trackCount)).map sums }

end Sys2Proof.Machine
end

