-- ==== Sys2Proof/Machine/Transmit.lean ====
section
/-!
DEFINITION. The transmit DSP of a path (06_transmit_dsp.md): its coefficient set and its actual state. The bits of a
frame, its matcher blocks and its composition follow from the mode and the profiles (Modes.lean).
-/
namespace Sys2Proof.Machine

/-- Whether a Path A offset holds a field of the coefficient set (R152, R90). -/
def isCoefOff (b : Nat) : Bool :=
  b == Reg.PA_TXD_SHAPE || (decide (Reg.PA_TXD_TRK_PWR0 ≤ b ∧ b < Reg.PA_TXD_TRK_PWR0 + 16))
    || b == Reg.PA_TXD_MASK || b == Reg.PA_TXD_PCF || b == Reg.PA_CNV_DAC_TRIM
    || (decide (Reg.PA_CNV_DAC_TAP0 ≤ b ∧ b < Reg.PA_CNV_DAC_TAP0 + 16))

/-- Whether a stored word belongs to the next copy of a path's coefficient set. -/
def isCoefKey (p : Path) (key : Nat) : Bool :=
  let off := key % 0x4000000
  isCoefOff (baseOff off) && decide (off = pathReg p (baseOff off))

/-- The next copy of the coefficient set becomes the active copy (R152). The next copy keeps the same contents. -/
def State.coefTake (s : State) (p : Path) : State :=
  s.updTxd p fun t => { t with coefAct := s.cfg.filter fun e => isCoefKey p e.1 }

/-- The next copy of the coefficient set takes the contents that other register words give it. -/
def State.coefFrom (s : State) (p : Path) (cfg : Sparse Word) : State :=
  let l := cfg.filter fun e => isCoefKey p e.1
  { s with cfg := l.foldl (fun c e => sparseSet regReset e.1 e.2 c) (sparseDrop (fun k => isCoefKey p k) s.cfg) }

/-- `COEF_GEN.NEXT` (R152). -/
def State.coefNext (s : State) (p : Path) : Nat := s.pfld p Reg.PA_TXD_COEF_GEN 15 0

/-- At a frame boundary the transmit DSP runs while `RUN` and `DAC_READY` are 1 (R154). -/
def State.txdAtBoundary (s : State) (p : Path) : State :=
  let run := s.pflag p Reg.PA_TXD_CTRL 0 && (s.path p).cnv.dacReady
  if run == (s.path p).txd.running then s
  else (s.updTxd p fun t => { t with running := run }).raise (pathSrc p 16) (if run then 3 else 1) 0 0 0

/-- A track profile set was not feasible and is not staged (R143). -/
def State.profRefuse (s : State) (p : Path) : State :=
  (s.updTxd p fun t => { t with profRefused := true }).raise (pathSrc p 17) 0 0 0 0

/-- A track profile set for the next copy; a set that is not feasible for the mode is refused (R143). -/
def State.profStage (s : State) (p : Path) (m : PathMode) (prof : List Nat) : State :=
  if m.feasible prof then s.updTxd p fun t => { t with profNext := prof } else s.profRefuse p

end Sys2Proof.Machine
end

