-- ==== Sys2Proof/Machine/Receive.lean ====
section
/-!
DEFINITION. The receive DSP of a path (05_receive_dsp.md): acquisition, loss of lock, gain control, the receive chain on the
samples of a frame, the local oscillator loop, the SNR and the statistics of a second.
-/
namespace Sys2Proof.Machine

/-- Causes of a loss of frame lock (R130), as the event's subtype (log 22). -/
def causeCorrelation : Nat := 1
def causeFrequency : Nat := 2
def causeSearch : Nat := 3

/-- Whether the receive DSP is locked (state 6). -/
def State.locked (s : State) (p : Path) : Bool := (s.path p).rxd.acq == 6

/-- Whether the receive DSP may run (R110). -/
def State.rxdOn (s : State) (p : Path) : Bool := s.pflag p Reg.PA_RXD_CTRL 0 && (s.path p).cnv.adcReady

/-- The largest dispersion that the compensator accepts, ps/nm (R113). -/
def dMax (k : Nat) : Int := ((min 400000 (200000 * 65536 / (k * k)) : Nat) : Int)

/-- The grid step of the dispersion candidates, ps/nm (R127). -/
def dStep (k : Nat) : Nat := 400 * 65536 / (k * k)

/-- The dispersion candidates of an entry to S3 (R127). -/
def candidates (k : Nat) (centre : Int) (range : Nat) : List Int :=
  let n := ceilDiv range (dStep k)
  ((List.range (2 * n + 1)).map fun (i : Nat) => centre + ((i : Int) - n) * dStep k).filter
    fun d => decide (-dMax k ≤ d ∧ d ≤ dMax k)

/-- The candidates that the hint fields select (R127). -/
def State.hintCands (s : State) (p : Path) : List Int :=
  let k := (s.txMode p).k
  let h := s.reg (pathReg p Reg.PA_RXD_CD_HINT)
  if flagOf h 31 then candidates k (signedOf 20 (fieldOf h 19 0)) (100 * fieldOf h 30 20)
  else candidates k 0 (dMax k).toNat

/-- Entry to an acquisition state that lasts `n` frames. -/
def State.enterAcq (s : State) (p : Path) (st n : Nat) : State :=
  s.updRxd p fun r => { r with acq := st, frames := 0, length := n, confirms := 0 }

/-- Entry to S1: the frequency estimate and the taps are cleared (R126). -/
def State.enterS1 (s : State) (p : Path) : State :=
  (s.enterAcq p 1 8).updRxd p fun r =>
    { r with freq := 0, lowRun := 0, deadRun := 0, searchAt := none, lockedAll := false, restart := false,
             firstCand := none, best := none, chain := resetChain }

/-- The candidates in the order of their evaluation: the one that restarted acquisition first (R128). -/
def sweepOrder (first : Option Int) (cands : List Int) : List Int :=
  match first with
  | some d => d :: cands.filter (· != d)
  | none => cands

/-- Entry to S3: the hint fields are read (R127). -/
def State.enterS3 (s : State) (p : Path) : State :=
  let c := sweepOrder (s.path p).rxd.firstCand (s.hintCands p)
  (s.enterAcq p 3 (ceilDiv c.length 8)).updRxd p fun r => { r with cands := c, candPos := 0, best := none }

/-- The samples that the searcher holds beside those of a frame: 131,072 on either side for the filter, and one training
block. -/
def searchMargin : Nat := 262720

/-- The chain as S4 starts it: the compensator's window begins with the samples on hand, turned by the frequency
estimate, and the far end's grid at the next training block, which was found at `pos` of the searcher's frame (R116,
R126). -/
def RxChain.start (c : RxChain) (per : Rat) (len pos : Nat) : RxChain :=
  if c.past = [] then { resetChain with edge := c.edge, at' := ((pos + 65536 * (len - 1)) % len : Nat) }
  else
    { resetChain with
      edge := c.edge, past := c.past, mix := wrapTurn (per * (searchMargin : Nat))
      front := shiftBy 0 per (List.replicate (searchMargin - c.past.length) Sig.zero ++ c.past)
      at' := ((pos + 65536) % len : Nat) }

/-- The phase, in turns, that one sample adds under the frequency estimate (R113). -/
def State.turnsPerSample (s : State) (p : Path) : Rat := ((s.path p).rxd.freq : Rat) / (s.txMode p).sampleRate

/-- Entry to S4 with the acquired signal: its dispersion, its C and its frame position (R115, R116, R126). -/
def State.enterS4 (s : State) (p : Path) (d : Int) (c pos : Nat) : State :=
  let per := s.turnsPerSample p
  let len := (s.rxModeOf p).samples
  (s.enterAcq p 4 32).updRxd p fun r =>
    { r with cd := d, cAcq := c, position := pos, firstCand := none, chain := r.chain.start per len pos }

/-- Entry to state 6, frame lock (R126): packet delineation starts in hunt (R239), a levelling cycle begins (R162), and the
measured offset and the SNR are measured anew. -/
def State.enterLocked (s : State) (p : Path) : State :=
  let s := (s.contsOf p).foldl (fun s c => s.delinHunt p c) s
  let s := (s.enterAcq p 6 0).updRxd p fun r =>
    { r with lowRun := 0, deadRun := 0, gainHist := [r.gain], searchAt := none, fm := 0, fmSum := 0, fmCount := 0,
             snr := resetSnr }
  let s := s.updTrk p fun t => { t with cycle := 0, discard := false }
  s.raise (pathSrc p 8) 0 0 0 0

/-- Loss of frame lock with its cause: acquisition restarts at S1 (R130). -/
def State.loseLock (s : State) (p : Path) (cause : Nat) : State :=
  ((s.raise (pathSrc p 9) cause 0 0 0).updTrk p fun t => { t with discard := true }).enterS1 p

/-- The receive DSP becomes off and discards all acquired values (R110). -/
def State.rxdOff (s : State) (p : Path) : State :=
  let s := s.updTrk p fun t => { t with discard := true }
  s.updRxd p fun r =>
    { resetRxd with acqCount := r.acqCount, restarts := r.restarts, df := r.df, missed := r.missed,
                    slips := r.slips, stats := r.stats, sigAbsent := r.sigAbsent }

/-- The coarse frequency estimate: from the samples on hand, else as the command has it. -/
def RxChain.coarse (c : RxChain) (given : Int) : Int :=
  clampInt (if c.past = [] then given else Config.coarseOffset (sigComps c.past)) (-3500000000) 3500000000

/-- `ACQUISITION_STATE_END`: the state's frames have passed (R126). S2 ends with the coarse frequency estimate, within
3.5 GHz either way, and S3 with its best candidate where C reaches `ACQ_THR`, or it repeats. -/
def execAcquisitionStateEnd (p : Path) (coarse : Int) : State → Host.Outcome State Fault Refusal :=
  complete fun s =>
    let r := (s.path p).rxd
    if r.frames < r.length then s
    else match r.acq with
      | 1 => if r.sigAbsent then s else s.enterAcq p 2 16
      | 2 => (s.updRxd p fun r => { r with freq := r.chain.coarse coarse }).enterS3 p
      | 3 => match r.best with
        | some (d, c, pos) => if s.pfld p Reg.PA_RXD_THR 31 24 ≤ c then s.enterS4 p d c pos else s.enterS3 p
        | none => s.enterS3 p
      | 4 => s.enterAcq p 5 2
      | 5 => if 2 ≤ r.confirms then s.enterLocked p else s
      | _ => s

/-- `ACQUISITION_TIMEOUT`: no frame lock within `ACQ_TIMEOUT.MS` of entering S1 (R129). -/
def execAcquisitionTimeout (p : Path) : State → Host.Outcome State Fault Refusal :=
  complete fun s =>
    if 1 ≤ (s.path p).rxd.acq ∧ (s.path p).rxd.acq ≤ 5 then
      let s := (s.updRxd p fun r => { r with acqCount := wrapTo 16 (r.acqCount + 1) }).enterS1 p
      s.raise (pathSrc p 11) 0 0 0 0
    else s

/-! ### One local frame: levels and gain (R111, R130, R132) -/

/-- The levels of the four ADCs in the frame, 1/16 LSB. -/
def State.adcLevels (s : State) (p : Path) : List Nat := (List.range 4).map fun n => (s.adc p n).rms

/-- The signal-absent condition of a local frame, whatever the state of the DSP (R132). -/
def State.signalAbsent (s : State) (p : Path) : State :=
  let thr := s.pfld p Reg.PA_RXD_THR 15 0
  let absent := (s.adcLevels p).all fun x => decide (x < thr)
  if absent == (s.path p).rxd.sigAbsent then s
  else (s.updRxd p fun r => { r with sigAbsent := absent }).raiseOnce (pathSrc p 13) 0 0
    (if absent then 0 else cleared 0) 0

/-- The gain that brings the mean of the four levels to `TARGET`, in whole steps, the level not above the target (R111). -/
def State.agcWant (s : State) (p : Path) : Int :=
  gainFor (s.adcLevels p).sum (4 * s.pfld p Reg.PA_RXD_AGC 31 16)

/-- One move of the automatic gain control, and the power-step event (R111, R130). -/
def State.agcFrame (s : State) (p : Path) : State :=
  let r := (s.path p).rxd
  let slew : Nat := if r.acq = 1 then 192 else s.pfld p Reg.PA_RXD_AGC 15 8
  let g := clampInt (clampInt (s.agcWant p) (r.gain - slew) (r.gain + slew)) (-768) 1152
  let jump := r.acq == 6 && r.gainHist.any fun h => decide (192 < (g - h).natAbs)
  let hist := if jump then [g] else (g :: r.gainHist).take 16
  let s := s.updRxd p fun r => { r with gain := g, gainHist := if r.acq = 6 then hist else [] }
  if jump then s.raise (pathSrc p 12) 0 0 0 0 else s

/-! ### The receive chain on the samples of a frame (R110 to R119) -/

/-- The roll-off that the track centres follow: that of the path's own coefficient set. -/
def State.rho (s : State) (p : Path) : Rat :=
  (fieldOf (sparseGet regReset (s.path p).txd.coefAct (pathReg p Reg.PA_TXD_SHAPE)) 5 0 : Nat) / 256

/-- Whether the taps are held in a frame of correlation `corr` (R119). -/
def State.tapsHeld (s : State) (p : Path) (corr : Nat) : Bool :=
  s.pflag p Reg.PA_RXD_CTRL 2 || decide (corr < s.pfld p Reg.PA_RXD_THR 23 16)

/-- The squared singular values of a matrix, from the sum of the squares of its entries and its determinant. -/
def Mat2.singular (m : Mat2) : Rat × Rat :=
  let t := m.a.norm2 + m.b.norm2 + m.c.norm2 + m.d.norm2
  let q := Config.sqrtOf (t * t - 4 * ((m.a.mul m.d).sub (m.b.mul m.c)).norm2)
  ((t + q) / 2, (t - q) / 2)

/-- Matrices as the list of their entries. -/
def matEntries (l : List Mat2) : List (Rat × Rat) := l.flatMap fun m => [m.a, m.b, m.c, m.d].map fun x => (x.re, x.im)

/-- The taps of one more frame (R135). -/
def TapStats.add (t : TapStats) (dgd : Nat) : TapStats :=
  { t with dgd := t.dgd + dgd, frames := t.frames + 1, peak := max t.peak dgd }

/-- The signal from grid sample `q` on as a frame of the far end: its taps are solved from its training block or held,
and its tracks go to the decoder once the receiver is locked (R117 to R119). -/
def State.equaliseFrame (s : State) (p : Path) (corr q : Nat) : State :=
  let m := s.rxModeOf p
  let r := (s.path p).rxd
  let c := r.chain
  let grid := c.grid.drop q
  let ctrl := s.reg (pathReg p Reg.PA_RXD_FDE_CTRL)
  let avg := fieldOf ctrl 18 16
  let avg := if r.acq = 4 then min avg 1 else avg
  let fde := if s.tapsHeld p corr then c.fde else c.fde.solve avg (fieldOf ctrl 15 0) (trainingRx grid)
  let tail := (c.tail ++ c.grid.take q)
  let before := List.replicate (320 - tail.length) Sig.zero ++ tail.drop (tail.length - 320)
  let eq := equalise m (s.rho p) fde (before ++ grid)
  s.updRxd p fun r => { r with
    freq := if r.acq = 6 then r.freq else r.freq + Config.trainingOffset (sigComps (grid.take 576))
    chain := { c with
      fde := fde, eqd := if r.acq = 6 then c.eqd ++ [eq] else []
      stat := if r.acq = 6 then c.stat.add (Config.tapDgd (matEntries fde.w)) else c.stat
      tail := (grid.take m.samples).drop (m.samples - 320), grid := grid.drop m.samples } }

/-- The frames of the far end that the grid holds whole, with the 4,096 samples after each that its last block needs: C
and the position of the training block of each. In S4 the grid follows that position, so that from then on the block is
expected at its beginning (R116, R126). -/
def State.gridFrames (p : Path) : Nat → State → State × List (Nat × Nat)
  | 0, s => (s, [])
  | fuel + 1, s =>
    let len := (s.rxModeOf p).samples
    let r := (s.path p).rxd
    if r.chain.grid.length < len + 4096 then (s, [])
    else
      let (c, pos) := trainingFound r.chain.grid len
      let q := if r.acq = 4 then pos else 0
      if r.chain.grid.length < q + len + 4096 then (s, [])
      else
        let (s, l) := State.gridFrames p fuel (s.equaliseFrame p c q)
        (s, (c, pos - q) :: l)

/-- The corrected samples of a local frame run through the chain, from S4 on (R110): what is found of the training
blocks. -/
def State.chainFrame (s : State) (p : Path) (x : List Sig) : State × List (Nat × Nat) :=
  let r := (s.path p).rxd
  let rate := (s.txMode p).sampleRate
  let per := s.turnsPerSample p
  let c := { r.chain with
    front := r.chain.front ++ shiftBy r.chain.mix per x, mix := wrapTurn (r.chain.mix + per * (x.length : Nat)) }
  let c := c.filter (dispersion (s.pfld p Reg.PA_RXD_LAMBDA 20 0) r.cd) rate c.front.length
  let clk := clockRange (Config.clockOffset (sigComps c.comp))
  let c := c.resample clk
  State.gridFrames p (c.grid.length / 1125) (s.updRxd p fun r => { r with clk := clk, chain := c })

/-! ### SNR (R124, R125) -/

/-- Sums entry by entry, over 32 entries. -/
def addNats (a b : List Nat) : List Nat := (List.range 32).map fun i => a.getD i 0 + b.getD i 0

/-- The pilot sums of a frame; 16 frames are a superframe, whose SNR is computed at its end. -/
def SnrState.add (x : SnrState) (pilots : List (Rat × Rat)) : SnrState :=
  let sums := (List.range 32).map fun i =>
    let a := x.sums.getD i (0, 0)
    let b := pilots.getD i (0, 0)
    (a.1 + b.1, a.2 + b.2)
  if x.frames + 1 < 16 then { x with sums := sums, frames := x.frames + 1 }
  else
    let now := sums.map fun v => snr64 v.1 v.2
    { sums := [], frames := 0, noise := sums.map fun v => v.2 / v.1, now := now, sec := addNats x.sec now,
      secN := x.secN + 1, cycle := addNats x.cycle now, cycleN := x.cycleN + 1 }

/-- The noise variance of track `t` and polarisation `pol`; 1 before the first superframe. -/
def SnrState.noiseOf (x : SnrState) (t pol : Nat) : Rat := x.noise.getD (2 * t + pol) 1

/-- The mean of a second's SNR values (R125). -/
def SnrState.mean (x : SnrState) : List Nat := (List.range 32).map fun i => x.sec.getD i 0 / max 1 x.secN

/-! ### One local frame: lock and acquisition (R119, R122, R123, R126 to R130) -/

/-- The frequency estimate after a step; none is made before S2 has given the coarse estimate (R123, R126). -/
def nextFreq (acq : Nat) (freq step : Int) : Int := if 2 < acq then freq + step else freq

/-- What the pilots of a frame tell while locked: the residual offset, the SNR and the slips (R122, R123, R125). -/
def RxdState.pilotFrame (r : RxdState) (resid : Int) (slips : Nat) (pilots : List (Rat × Rat)) : RxdState :=
  { r with fmSum := r.fmSum + resid, fmCount := r.fmCount + 1, slips := satTo 16 (r.slips + slips),
           snr := r.snr.add pilots }

/-- One frame while locked: training missed and the frequency limits (R119, R123, R130). -/
def State.lockedFrame (s : State) (p : Path) (low : Bool) : State :=
  let s := s.updRxd p fun r => { r with lowRun := if low then r.lowRun + 1 else 0 }
  let s := if low then s.raiseOnce (pathSrc p 15) 0 0 0 0 else s
  let r := (s.path p).rxd
  if 8 ≤ r.lowRun then s.loseLock p causeCorrelation
  else if 4500000000 < r.fm.natAbs + r.freq.natAbs then s.loseLock p causeFrequency
  else s

/-- The better of two candidates; the earlier one where C is equal. -/
def betterCand (best : Option (Int × Nat × Nat)) (x : Int × Nat × Nat) : Option (Int × Nat × Nat) :=
  match best with
  | none => some x
  | some b => if b.2.1 < x.2.1 then some x else best

/-- The candidates that the searcher evaluates in a frame: eight, in S4 and S5 wrapping (R126, R128). -/
def RxdState.sweepNow (r : RxdState) : List Int :=
  if r.acq = 3 then (r.cands.drop r.candPos).take 8
  else (List.range (min 8 r.cands.length)).map fun i => r.cands.getD ((r.candPos + i) % r.cands.length) 0

/-- One frame of S3: C and the position of its candidates (R126). The search goes on from where it ends (R128). -/
def RxdState.sweep (r : RxdState) (sweep : List (Nat × Nat)) : RxdState :=
  { r with best := (r.sweepNow.zip sweep).foldl betterCand r.best, candPos := min (r.candPos + 8) r.cands.length }

/-- The first candidate of the frame's background search that is at least 6 dB above the acquired signal (R128). -/
def RxdState.stronger (r : RxdState) (sweep : List (Nat × Nat)) : Option Int :=
  ((r.sweepNow.zip sweep).find? fun x => decide (r.cAcq + 48 ≤ x.2.1)).map (·.1)

/-- C and the position of each candidate of a frame, in the corrected samples `w` that end with the frame's: each is turned
by the frequency estimate and compensated as one block, whose ends are dropped (R126, log 138). -/
def State.searched (s : State) (p : Path) (w : List Sig) : List (Nat × Nat) :=
  let len := (s.rxModeOf p).samples
  let rate := (s.txMode p).sampleRate
  let x := shiftBy 0 (s.turnsPerSample p) (List.replicate (searchMargin + len - w.length) Sig.zero ++ w)
  (s.path p).rxd.sweepNow.map fun d =>
    trainingFound (((filtered (dispersion (s.pfld p Reg.PA_RXD_LAMBDA 20 0) d) rate x).drop 131072).take (len + 576)) len

/-- The searcher's part of a frame: the sweep of S3 and the background search of S4 and S5 (R126, R128). -/
def State.searcherFrame (s : State) (p : Path) (sweep : List (Nat × Nat)) : State :=
  let r := (s.path p).rxd
  match r.acq with
  | 3 => s.updRxd p fun r => r.sweep sweep
  | 4 | 5 =>
    match r.stronger sweep with
    | some d =>
      let s := (s.enterAcq p 2 16).updRxd p fun r =>
        { r with restarts := wrapTo 16 (r.restarts + 1), firstCand := some d }
      s.raise (pathSrc p 10) 0 0 0 0
    | none => s.updRxd p fun r => { r with candPos := (r.candPos + min 8 r.cands.length) % max 1 r.cands.length }
  | _ => s

/-- A training block found with correlation `c` at position `pos`: training missed (R119), the position in S4, the
confirmations of S5, at the position of the frame before, and the lock (R126, R130). -/
def State.judgeTraining (s : State) (p : Path) (x : Nat × Nat) : State :=
  let (c, pos) := x
  let low := decide (c < s.pfld p Reg.PA_RXD_THR 23 16)
  let s := s.updRxd p fun r =>
    { r with cNow := min c 255, missed := if low ∧ 4 ≤ r.acq then satTo 16 (r.missed + 1) else r.missed }
  match (s.path p).rxd.acq with
  | 4 => s.updRxd p fun r => { r with position := pos }
  | 5 =>
    if s.pfld p Reg.PA_RXD_THR 31 24 ≤ c ∧ pos = (s.path p).rxd.position then
      s.updRxd p fun r => { r with confirms := r.confirms + 1 }
    else s.enterS3 p
  | 6 => s.lockedFrame p low
  | _ => s

/-- The receive chain in a frame with sample codes: the front end, the searcher's candidates and the training blocks
found. -/
def State.sampledFrame (s : State) (p : Path) (codes : List (List Int)) : State × List (Nat × Nat) × List (Nat × Nat) :=
  let now := s.frontFrame p codes
  let c := (s.path p).rxd.chain
  let x := c.edge.corrected now
  let w := c.past ++ x
  let acq := (s.path p).rxd.acq
  let sweep := if 3 ≤ acq ∧ acq ≤ 5 then s.searched p w else []
  let s := s.updRxd p fun r =>
    { r with chain := { c with edge := c.edge.next now, past := w.drop (w.length - searchMargin) } }
  let (s, found) := if 4 ≤ acq then s.chainFrame p x
    else (s, if sweep = [] then [] else [(sweep.foldl (fun c x => max c x.1) 0, 0)])
  (s, sweep, found)

/-- A frame without sample codes: what the command says that the chain found. -/
def State.observedFrame (s : State) (p : Path) (o : FrameObs) : State × List (Nat × Nat) × List (Nat × Nat) :=
  (s.updRxd p fun r =>
    let r := { r with clk := clockRange o.clk, freq := nextFreq r.acq r.freq o.freqStep }
    if r.acq = 6 then r.pilotFrame o.resid o.slips o.pilots else r, o.sweep, [(o.corr, o.position)])

/-- The receive DSP at a local frame boundary. -/
def State.rxdAtBoundary (s : State) (p : Path) (o : FrameObs) : State :=
  let s := s.signalAbsent p
  let r := (s.path p).rxd
  if !s.rxdOn p then (if r.acq = 0 then s else s.rxdOff p)
  else if r.acq = 0 ∨ r.restart then (s.updTrk p fun t => { t with discard := true }).enterS1 p
  else
    let (s, sweep, found) := if o.codes = [] then s.observedFrame p o else s.sampledFrame p o.codes
    let s := (s.agcFrame p).updRxd p fun r => { r with frames := if r.acq = 1 ∧ r.sigAbsent then 0 else r.frames + 1 }
    found.foldl (fun s x => s.judgeTraining p x) (s.searcherFrame p sweep)

/-- `LO_LOOP_UPDATE`: 1,024 frames give the measured offset; with the loop enabled, one update of the local oscillator
correction inside its rails, converted to the fine-tune code (R123, R106). -/
def execLoLoopUpdate (p : Path) (_moment : Unit) : State → Host.Outcome State Fault Refusal :=
  complete fun s =>
    let r := (s.path p).rxd
    if !s.locked p || decide (r.fmCount < 1024) then s
    else
      let fm := roundHalfEven r.fmSum r.fmCount
      let s := s.updRxd p fun r => { r with fm := fm, fmSum := 0, fmCount := 0 }
      let id := loopId p 2 0
      if s.pflag p Reg.PA_RXD_CTRL 1 && !(s.rail id).freeze then
        let df := (s.path p).rxd.df
        let (s, df) := s.railUpdate id df (df + roundHalfEven fm (2 ^ s.pfld p Reg.PA_RXD_LO_CTRL 3 0))
        (s.updRxd p fun r => { r with df := df }).fineTune p df
      else s

/-- `PROFILE_SEARCH`: 64 frames without a correctable code word: the search begins with the active receive generation
(R131). -/
def execProfileSearch (p : Path) : State → Host.Outcome State Fault Refusal :=
  complete fun s =>
    if s.locked p && (s.path p).rxd.searchAt.isNone && decide (64 ≤ (s.path p).rxd.deadRun) then
      s.updRxd p fun r => { r with searchAt := some 0, searchFrames := 0, searchHit := false }
    else s

/-- The residual dispersion that the taps carry (R115). -/
def Fde.residual (e : Fde) : Int :=
  Config.tapDispersion (matEntries e.w)

/-- The figures of a second: from the taps and the trackers where the chain holds them, else as the command has them
(R135). -/
def RxChain.second (c : RxChain) (o : SecondObs) : SecondObs :=
  if c.fde.w = [] then o
  else { dgdMean := c.stat.dgd / max 1 c.stat.frames, dgdPeak := c.stat.peak
         pdl := Config.tapPdl (c.fde.w.map Mat2.singular), sop := c.stat.sop }

/-- The statistics of the second that ends (R133): values that need lock are zero unless the unit was locked for all of
it. `secLo` is the boundary's time. -/
def State.rxdSecond (s : State) (p : Path) (o : SecondObs) (secLo : Nat) : State :=
  s.updRxd p fun r =>
    let v := r.lockedAll && r.acq == 6
    let o := r.chain.second o
    let z {α : Type} (zero x : α) : α := if v then x else zero
    { r with
      stats :=
        { secLo := secLo, valid := v, cd := z 0 (r.cd + r.chain.fde.residual), fofs := roundHalfEven r.fm 1000,
          clk := r.clk, dgdMean := z 0 o.dgdMean, dgdPeak := z 0 o.dgdPeak, agc := r.gain, pdl := z 0 o.pdl,
          sop := z 0 o.sop, slips := r.slips, missed := r.missed,
          snr := z (List.replicate 32 0) r.snr.mean }
      lockedAll := r.acq == 6, missed := 0, slips := 0, snr := { r.snr with sec := [], secN := 0 }
      chain := { r.chain with stat := ⟨0, 0, 0, 0⟩ } }

end Sys2Proof.Machine
end

