-- ==== Sys2Proof/Machine/Fec.lean ====
section
/-!
DEFINITION. The FEC unit (08_fec.md): the iteration loop and its grant, and the statistics of a second. The codes and the
decoder are in Code.lean.
-/
namespace Sys2Proof.Machine

/-! ### Grant and iterations (R184 to R187) -/

def State.fec (s : State) (p : Path) : FecState := (s.path p).fec

/-- The level that the grant covers, L = floor(G_d / (1.8 mW W)) (R186). -/
def State.covered (s : State) (p : Path) : Nat := (s.fec p).gd / (s.rxModeOf p).iterCost

/-- Sets I_max, remembering the old value for the event of the second (R194). -/
def State.setIMax (s : State) (p : Path) (i : Nat) : State :=
  s.updFec p fun f => if f.iMax = i then f else { f with iOld := some f.iMax, iMax := i }

/-- A forced drop to `level` (R187): the next update requests the level before it. A level that is about to take effect
does not exceed `level` either. -/
def State.forcedDrop (s : State) (p : Path) (level : Nat) : State :=
  let i := (s.fec p).iMax
  if i ≤ level then s.updFec p fun f => { f with iNext := f.iNext.map (min level) }
  else ((s.setIMax p level).updFec p fun f =>
    { f with preDrop := some (max i (f.preDrop.getD 0)), iNext := none }).railThrottle (loopId p 4 0) true

/-- A path mode change on the receive side: L follows the new W (R187). -/
def State.fecModeChange (s : State) (p : Path) : State := s.forcedDrop p (s.covered p)

/-- The level that one update of the iteration loop computes, before the rails (R185). -/
def iterWant (f : FecState) (loopEn : Bool) (upThr downCnt : Nat) : Nat :=
  let want :=
    if loopEn && decide (upThr < f.ivHits) then f.iMax + 2
    else if loopEn && decide (downCnt ≤ f.hitFree ∧ f.ivIter + 4 * f.ivWords ≤ f.iMax * f.ivWords) then f.iMax - 1
    else f.iMax
  max want (f.preDrop.getD 0)

/-- Grant above `level` iterations is returned (R186). -/
def State.returnAbove (s : State) (p : Path) (level : Nat) : State :=
  s.setGd p (min (s.fec p).gd (level * (s.rxModeOf p).iterCost))

/-- A level that the grant covers takes effect at the next received frame boundary; surplus grant is returned, down to what
the level still in force needs until then (R185, R186). -/
def State.iterSet (s : State) (p : Path) (want : Nat) : State :=
  let s := s.returnAbove p (max want (s.fec p).iMax)
  s.updFec p fun f =>
    { f with iNext := some want,
             preDrop := match f.preDrop with | some l => if l ≤ want then none else some l | none => none }

/-- The grant of a waiting iteration request (R186). I_max never exceeds the level covered at the W now in force. -/
def State.iterGranted (s : State) (p : Path) : State :=
  match (s.fec p).want with
  | none => s
  | some (level, cost) =>
    let s := (s.setGd p ((s.fec p).gd + cost)).railThrottle (loopId p 4 0) false
    (s.updFec p fun f => { f with want := none }).iterSet p (min level (s.covered p))

/-- Denial or timeout of an iteration request: the loop holds (R173, R186). -/
def State.iterRefused (s : State) (p : Path) : State :=
  (s.updFec p fun f => { f with want := none }).railThrottle (loopId p 4 0) true

/-- The end of a loop interval: its counts start anew. -/
def FecState.newInterval (f : FecState) : FecState :=
  { f with ivFrames := 0, ivHits := 0, ivIter := 0, ivWords := 0 }

/-- `ITERATION_LOOP_UPDATE`: 1,024 received frames have passed: one update of the iteration loop, by the clamps of R185.
Grant is returned only where the level is covered, so that a request declares its cost against all of G_d (R185 to
R187). While a request waits, and while the loop is frozen, the interval ends without an update. -/
def execIterationLoopUpdate (p : Path) : State → Host.Outcome State Fault Refusal :=
  complete fun s =>
    let f := s.fec p
    if !f.llr || decide (f.ivFrames < 1024) then s
    else
      let f := { f with hitFree := if f.ivHits = 0 then f.hitFree + 1 else 0 }
      let s := s.updFec p fun _ => f.newInterval
      let id := loopId p 4 0
      if f.want.isSome || (s.rail id).freeze then s
      else
        let loop := s.reg (pathReg p Reg.PA_FEC_LOOP)
        let want := iterWant f (s.pflag p Reg.PA_FEC_CTRL 0) (fieldOf loop 31 16) (fieldOf loop 7 0)
        let level := ((s.rail id).clamps f.iMax want).toNat
        let s := s.railStatus id f.iMax want level
        if level ≤ s.covered p then s.iterSet p level
        else
          let cost := level * (s.rxModeOf p).iterCost - (s.fec p).gd
          let s := s.updFec p fun f => { f with want := some (level, cost) }
          match s.rowAnswer (ceilDiv cost 10) with
          | .granted => s.iterGranted p
          | .queued => s.enqueue (4 + pathNum p) (ceilDiv cost 10)
          | .denied => (s.noteDenied (4 + pathNum p)).iterRefused p

/-- `DECODER_EXCESS_RETURN`: a decoder asked to return its excess does so at its received frame boundary (R491). -/
def execDecoderExcessReturn (p : Path) : State → Host.Outcome State Fault Refusal :=
  complete fun s =>
    if s.pwr.excess.getLsbD (pathNum p) then
      let s := { s with pwr := { s.pwr with excess := s.pwr.excess &&& ~~~(1#2 <<< pathNum p) } }
      let s := s.setGd p (min (s.fec p).gd (12 * (s.rxModeOf p).iterCost))
      s.forcedDrop p (min 12 (s.covered p))
    else s

/-- At a received frame boundary a new I_max takes effect, never above the level covered, and with it what it leaves of the
grant is returned (R184 to R186). -/
def State.fecTake (s : State) (p : Path) : State :=
  match (s.fec p).iNext with
  | some i =>
    let i := min i (s.covered p)
    ((s.setIMax p i).updFec p fun f => { f with iNext := none }).returnAbove p i
  | none => s

/-- At a local frame boundary the decoder notes whether LLRs arrive; an interval without them is discarded (R185). -/
def State.fecAtBoundary (s : State) (p : Path) : State :=
  let locked := s.locked p
  s.updFec p fun f =>
    if locked then { f with llr := true } else { f.newInterval with llr := false, llrAll := false, hitFree := 0 }

/-! ### Statistics (R183, R188, R189) -/

/-- The counts of one decoded frame of `words` code words: uncorrectable words, corrected bits, iterations used in
all, words that ran all iterations, and the largest number of iterations. -/
def State.fecFrame (s : State) (p : Path) (words uncorr corr iter hits maxUsed : Nat) : State :=
  s.updFec p fun f =>
    { f with
      ivFrames := f.ivFrames + 1, ivHits := f.ivHits + hits, ivIter := f.ivIter + iter, ivWords := f.ivWords + words
      uncorrSeen := f.uncorrSeen + uncorr
      cnt := { f.cnt with
        frames := f.cnt.frames + 1
        errFrames := f.cnt.errFrames + (if 0 < uncorr then 1 else 0)
        words := f.cnt.words + words, uncorr := f.cnt.uncorr + uncorr, corr := f.cnt.corr + corr
        iterSum := f.cnt.iterSum + iter, maxUsed := max f.cnt.maxUsed maxUsed } }

/-- Whether a second's pre-FEC ratio is at least `thr` / 2^20 (R188, R189); none with no correctable word. -/
def berHigh (c : FecCount) (nc thr : Nat) : Option Bool :=
  if c.words ≤ c.uncorr then none else some (decide (thr * ((c.words - c.uncorr) * nc) ≤ c.corr * 2 ^ 20))

/-- The decoder at a milestone second boundary (R188, R189, R194). -/
def State.fecSecond (s : State) (p : Path) (secLo : Nat) : State :=
  let f := s.fec p
  let valid := f.llrAll && f.llr
  let thr := s.pfld p Reg.PA_FEC_BER_THR 19 0
  let s := if 0 < f.uncorrSeen then s.raiseOnce (pathSrc p 22) 0 0 f.uncorrSeen 0 else s
  let s := match f.iOld with | some old => s.raiseOnce (pathSrc p 23) 0 0 old f.iMax | none => s
  let alarm := if valid ∧ thr ≠ 0 then (berHigh f.cnt (s.rxModeOf p).codeLen thr).getD f.berAlarm else f.berAlarm
  let s := if alarm == f.berAlarm then s
    else s.raise (pathSrc p 24) 0 0 (if alarm then 0 else cleared 0) 0
  s.updFec p fun f =>
    { f with stats := ⟨secLo, valid, f.cnt, f.iMax⟩, cnt := resetFecCount, llrAll := f.llr, berAlarm := alarm,
             uncorrSeen := 0, iOld := none }

end Sys2Proof.Machine
end

