-- ==== Sys2Proof/Machine/Merge.lean ====
section
/-!
DEFINITION. Partial writes of the memory die (16_memory.md): the merge buffer that the host window, the device and the
scrubber share, the watch list and the fault ledger.
-/
namespace Sys2Proof.Machine

/-! ### Watch list and fault ledger (R408, R409) -/

/-- Row and bank of a code word (R398). -/
def rowOf (w : Nat) : Nat := w / 4096 % 1024

def bankOf (w : Nat) : Nat := w / 64 % 64

/-- The spare row that a remap of a bank takes (R410). -/
def MemState.freeSpare (m : MemState) (bank : Nat) : Option Nat :=
  (List.range 32).find? fun sp =>
    !(m.factory.any fun f => f.1 == bank && f.2.2 == sp) && !(m.remap.any fun r => r.bank == bank && r.spare == sp)

def State.ledgerState (s : State) (w st : Nat) : State :=
  { s with mem := { s.mem with ledger := s.mem.ledger.map fun e => if e.word = w then { e with state := st } else e } }

/-- A sticky word asks for a remap of its row (R410, R411). -/
def State.requestRemap (s : State) (w : Nat) : State :=
  let b := bankOf w
  let r := rowOf w
  let known := s.mem.remap.any fun e => e.bank == b && e.row == r
  if !known ∧ 32 ≤ s.mem.remap.length then (s.ledgerState w 4).raiseOnce 220 0 0 0 0
  else match s.mem.freeSpare b with
    | none => (s.ledgerState w 3).raiseOnce 220 1 0 0 0
    | some sp =>
      let e : RemapEntry := ⟨b, r, sp, false, false, false, false⟩
      let t := if known then s.mem.remap.map fun x => if x.bank = b ∧ x.row = r then e else x else s.mem.remap ++ [e]
      { s with mem := { s.mem with remap := t } }

/-- Enters a word in the ledger (R409). -/
def State.ledgerEnter (s : State) (w : Nat) (sticky : Bool) : State :=
  if s.mem.ledger.any (fun e => e.word == w) then s
  else if 64 ≤ s.mem.ledger.length then s.raiseOnce 219 0 0 0 0
  else
    let s := { s with mem := { s.mem with ledger := s.mem.ledger ++ [⟨w, if sticky then 0 else 5⟩] } }
    if sticky then (s.raise 217 0 0 0 0).requestRemap w else s

/-- A correctable word has been written back for pass `p` (R408). -/
def State.watch (s : State) (p w : Nat) : State :=
  match s.mem.watch.find? (fun e => e.word == w) with
  | none =>
    if s.mem.watch.length < 256 then { s with mem := { s.mem with watch := s.mem.watch ++ [⟨w, 1, p⟩] } }
    else ({ s with mem := { s.mem with watchOvf := satTo 8 (s.mem.watchOvf + 1) } }).raiseOnce 226 0 0 0 0
  | some e =>
    let n := if e.lastPass + 1 = p then e.count + 1 else 1
    if 3 ≤ n then
      ({ s with mem := { s.mem with watch := s.mem.watch.filter fun e => e.word != w } }).ledgerEnter w true
    else { s with mem := { s.mem with watch := s.mem.watch.map fun e => if e.word = w then ⟨w, n, p⟩ else e } }

/-! ### The merge buffer (R404, R405, R407) -/

/-- Room for one more entry. -/
def MemState.mergeFree (m : MemState) : Bool := decide (m.merge.length < 16)

/-- A partial write takes an entry, or goes into the one that holds its word. -/
def MemState.mergePut (m : MemState) (w : Nat) (patch : List (Nat × Byte)) : MemState :=
  if (m.mergeOf w).isSome then m.mergeInto w patch else { m with merge := m.merge ++ [⟨w, patch, false, none⟩] }

/-- The new bytes of a piece at address `a`, by their place in the code word. -/
def piecePatch (a : Nat) (b : Bytes) : List (Nat × Byte) := (List.range b.length).map fun j => (a % 32 + j, b.getD j 0)

/-- One piece of a host window write, within one code word: a whole word is written, the rest takes an entry of the merge
buffer, or waits for one. -/
def MemState.hostPiece (m : MemState) (a : Nat) (b : Bytes) : MemState :=
  let w := a / 32
  if !m.stalled.isEmpty then { m with stalled := m.stalled ++ [(a, b)] }
  else if b.length = 32 then m.writeWord w b
  else
    if m.mergeFree || (m.mergeOf w).isSome then m.mergePut w (piecePatch a b) else { m with stalled := [(a, b)] }

/-- Pieces that waited go on, in order; `fuel` bounds their number. -/
def MemState.drain (m : MemState) : Nat → MemState
  | 0 => m
  | fuel + 1 => match m.stalled with
    | [] => m
    | (a, b) :: rest =>
      if m.mergeFree ∨ b.length = 32 ∨ (m.mergeOf (a / 32)).isSome then
        let next := { m with stalled := [] }.hostPiece a b
        { next with stalled := rest }.drain fuel
      else m

/-- An entry finishes. A write-back of the scrubber reads its word again: a word that is clean by then is not written, and
its correction does not count; a correctable one has been written back in the scrubber's pass (R405, R407). -/
def State.mergeEnd (s : State) (e : MergeEntry) : State :=
  match e.scrub with
  | none => s.mergeWord e.word e.patch
  | some p => match s.mem.outcome s.freeCtr e.word with
    | .clean => if e.patch.isEmpty then s else s.mergeWord e.word e.patch
    | .correctable => (s.mergeWord e.word e.patch).watch p e.word
    | .uncorrectable => s.mergeWord e.word e.patch

/-- The oldest entry of the merge buffer finishes, and a waiting write takes its place (R404, R405). -/
def State.mergeStep (s : State) : State :=
  match s.mem.merge with
  | [] => s
  | e :: rest =>
    let s := ({ s with mem := { s.mem with merge := rest } }).mergeEnd e
    { s with mem := s.mem.drain (s.mem.stalled.length + 1) }

/-- Finishes entries until no write waits; `fuel` bounds their number. -/
def State.mergeSettle (s : State) : Nat → State
  | 0 => s
  | fuel + 1 => if s.mem.stalled.isEmpty then s else s.mergeStep.mergeSettle fuel

/-- A writer of the device waits for an entry of the merge buffer, unless one holds its word; `fuel` bounds the entries
that finish meanwhile (R404). -/
def State.mergeRoom (s : State) (w : Nat) : Nat → State
  | 0 => s
  | fuel + 1 => if s.mem.mergeFree || (s.mem.mergeOf w).isSome then s else s.mergeStep.mergeRoom w fuel

/-- A partial write of the device, at its own place in the order of the writes that are accepted (log 146). -/
def State.mergeAdd (s : State) (w : Nat) (patch : List (Nat × Byte)) : State :=
  let s := s.mergeRoom w (s.mem.stalled.length + 17)
  { s with mem := s.mem.mergePut w patch }

/-- The scrubber's write-back of a correctable word: a merge with no new bytes (R407). -/
def State.scrubBack (s : State) (w : Nat) : State :=
  let s := s.mergeAdd w []
  let p := s.mem.scrub.pass
  { s with mem := { s.mem with merge := s.mem.merge.map fun e => if e.word = w then { e with scrub := some p } else e } }

/-- A write of the device itself to any bytes of the memory die: whole words are written, the rest goes through the merge
buffer. -/
def State.deviceWrite (s : State) (a : Nat) (b : Bytes) : State :=
  (List.range ((a + b.length + 31) / 32 - a / 32)).foldl (fun s i =>
    let w := a / 32 + i
    let lo := max a (32 * w)
    let hi := min (a + b.length) (32 * w + 32)
    let piece := (b.drop (lo - a)).take (hi - lo)
    if piece.length = 32 then { s with mem := s.mem.writeWord w piece } else s.mergeAdd w (piecePatch lo piece)) s

end Sys2Proof.Machine
end

