-- ==== Sys2Proof/Machine/Milestone.lean ====
section
/-!
DEFINITION. The milestone unit (03_milestones.md): milestone time, the queue, fixing a target frame, staged and frozen
next copies, cancels, and the time state. Applying an entry is in Apply.lean, a step of the counter in Seconds.lean.
-/
namespace Sys2Proof.Machine

/-! ### Milestone time (R61) -/

/-- One nanosecond in units of 2^-32 ns. -/
def oneNs : Nat := 4294967296

/-- Nanoseconds of 64 and of 128 superframes. -/
def superframes64 : Nat := 1048576
def superframes128 : Nat := 2097152

/-- Milestone time in ns. -/
def State.now (s : State) : Nat := s.mst.sec * 1000000000 + s.mst.ns

/-- Milestone time in 2^-32 ns. -/
def State.nowFine (s : State) : Nat := s.now * oneNs + s.mst.frac

/-- Sets milestone time, in 2^-32 ns. -/
def State.setNow (s : State) (t : Nat) : State :=
  let n := t / oneNs
  { s with mst := { s.mst with sec := n / 1000000000 % 2 ^ 48, ns := n % 1000000000, frac := t % oneNs } }

/-- Milestone time of the most recent frame boundary, t_b of R71, in 2^-32 ns. -/
def State.boundaryTime (s : State) : Nat := s.nowFine - s.phase

/-- `MST_TIME_CTRL.SRC`. -/
def State.timeSrc (s : State) : Nat := s.fld Reg.MST_TIME_CTRL 1 0

/-- Clamps to ±`m`. -/
def clampAbs (x : Int) (m : Nat) : Int := if x < -m then -m else if (m : Int) < x then m else x

/-- What the counter slews in one frame: at most 100 ppm (R64). -/
def State.slewStep (s : State) : Int := clampAbs s.mst.slew (1024 * oneNs / 10000)

/-- What the rate of the counter adds to a frame period, 2^-32 ns: the correction of `MST_RATE_ADJ` when the source is
0b11, of which the register keeps what was written and only the use is clamped (R84, log 100), and the disciplined rate of
the other sources, which `HOLDOVER` keeps (R64). -/
def State.rateStep (s : State) : Int :=
  if s.timeSrc = 3 then
    1024 * clampAbs (signedOf 32 (s.reg Reg.MST_RATE_ADJ).toNat) 200000 * (oneNs : Int) / 1000000000
  else s.mst.rate

/-- The milestone time that one frame period takes, 2^-32 ns: its rate and the slew (R64). -/
def State.frameAdvance (s : State) : Nat := ((1024 * oneNs : Nat) + s.rateStep + s.slewStep).toNat

/-- Time moves on to the boundary of the next frame, scheduler time with it (log 145). Only `MILESTONE_SECOND` passes a
second boundary (log 1). -/
def State.advanceFrame (s : State) : State :=
  let adv := s.frameAdvance
  let last := (s.mst.sec + 1) * 1000000000 * oneNs - 1
  let left := s.mst.slew - s.slewStep
  let s := s.setNow (max s.nowFine (min (s.boundaryTime + adv) last))
  { s with
    phase := 0
    upNs := s.upNs + 1024
    sch := { s.sch with time := max s.sch.time ((s.upNs + 1024) * 65536) }
    mst := { s.mst with perSum := s.mst.perSum + adv, perCnt := s.mst.perCnt + 1, slew := left } }

/-! ### Generations and next copies (R67, R73, R80) -/

/-- The generation of kind `k`. -/
def Gens.get (g : Gens) (k : Nat) : BitVec 16 :=
  match k with
  | 0 => g.slot | 1 => g.key | 2 => g.track | 3 => g.gate | 4 => g.coef | _ => g.mode

def Gens.set (g : Gens) (k : Nat) (v : BitVec 16) : Gens :=
  match k with
  | 0 => { g with slot := v } | 1 => { g with key := v } | 2 => { g with track := v }
  | 3 => { g with gate := v } | 4 => { g with coef := v } | _ => { g with mode := v }

/-- The generation that a list of next copies gives for a kind. -/
def stagedGen (l : List (Nat × BitVec 16)) (k : Nat) : Option (BitVec 16) :=
  match l.find? (fun e => e.1 == k) with | some e => some e.2 | none => none

def unstage (l : List (Nat × BitVec 16)) (k : Nat) : List (Nat × BitVec 16) := l.filter fun e => e.1 != k

/-- The generation of the staged next copy of a kind on a path. -/
def State.staged (s : State) (p : Path) (k : Nat) : Option (BitVec 16) := stagedGen (s.mstPath p).staged k

/-- Stages a next copy for the transmit direction; kinds 0, 1 and 5 serve the receive direction too (R79). -/
def State.stage (s : State) (p : Path) (k : Nat) (g : BitVec 16) : State :=
  s.updMstPath p fun m =>
    { m with staged := (k, g) :: unstage m.staged k
             rxStaged := if k = 0 ∨ k = 1 ∨ k = 5 then (k, g) :: unstage m.rxStaged k else m.rxStaged }

/-- Stages a next copy for the receive direction. -/
def State.stageRx (s : State) (p : Path) (k : Nat) (g : BitVec 16) : State :=
  s.updMstPath p fun m => { m with rxStaged := (k, g) :: unstage m.rxStaged k }

/-- The next copy of a kind is no longer staged. -/
def State.unstageTx (s : State) (p : Path) (k : Nat) : State :=
  s.updMstPath p fun m => { m with staged := unstage m.staged k }

def State.unstageRx (s : State) (p : Path) (k : Nat) : State :=
  s.updMstPath p fun m => { m with rxStaged := unstage m.rxStaged k }

def QEntry.part (e : QEntry) : Path → PathPart
  | .a => e.partA
  | .b => e.partB

def QEntry.updPart (e : QEntry) (p : Path) (f : PathPart → PathPart) : QEntry :=
  match p with
  | .a => { e with partA := f e.partA }
  | .b => { e with partB := f e.partB }

/-- A bit of a kind mask. -/
def hasKind (k : BitVec 7) (i : Nat) : Bool := k.getLsbD i

/-- Whether an entry holds the next copy of kind `k` on a path frozen (R73). -/
def QEntry.freezes (e : QEntry) (p : Path) (k : Nat) : Bool :=
  let x := e.part p
  !e.withdrawn && x.inScope && x.target.isSome && !x.done && hasKind x.kinds k

def State.frozen (s : State) (p : Path) (k : Nat) : Bool := s.mst.queue.any fun e => e.freezes p k

/-- Whether a double-buffered next copy cannot be written: frozen for an entry, or held by a direction that has not
left it (R73, R80). -/
def State.nextLocked (s : State) (p : Path) (k : Nat) : Bool :=
  s.frozen p k || ((k == 0 || k == 1 || k == 5) && (s.mstPath p).tx.get k != (s.mstPath p).rx.get k)

/-! ### The checks of a staged slot table (R223, R231) -/

/-- The record of a container. -/
def ImageCfg.cont (g : ImageCfg) (p : Path) (c : Nat) : Option ContainerRec :=
  g.conts.find? fun x => x.path == p && x.num == c

/-- The entry of a slot that container `c` of path `q` holds. -/
def slotEntry (q : Path) (c : Nat) : Nat := 0x8000 + pathNum q * 256 + c

/-- A slot table obeys R223. -/
def ImageCfg.slotsOk (g : ImageCfg) (p : Path) (t : List Nat) : Bool :=
  let slots (q : Path) (c : Nat) : Nat := (t.filter fun e => e == slotEntry q c).length
  t.all (fun e => e == bitsOf e 15 15 * 0x8000 + bitsOf e 8 0
      && (!e.testBit 15 || (g.cont (pathOf (bitsOf e 8 8)) (bitsOf e 7 0)).isSome)
      && (!e.testBit 15 || pathOf (bitsOf e 8 8) == p || g.has 6))
    && g.conts.all fun c => slots c.path c.num == if c.path = p then c.own else c.other

/-- Whether the next copy of a path's slot table may be staged by the host: it obeys R223 and resizes no container
(R231). -/
def State.slotNextOk (s : State) (p : Path) : Bool :=
  let t := (s.path p).cnt
  let count (l : List Nat) (e : Nat) : Nat := (l.filter fun x => x == e).length
  s.rte.cfg.slotsOk p t.next && t.next.all (fun e => !e.testBit 15 || count t.next e == count t.tx e)
    && t.tx.all fun e => !e.testBit 15 || count t.next e == count t.tx e

/-- The kinds that an amendment sets on a path. -/
def Amendment.kinds (a : Amendment) : Path → BitVec 7
  | .a => a.kindsA
  | .b => a.kindsB

/-- Whether the staged slot table passes its checks at fixing; an amendment's own table was checked when it was accepted,
and may resize containers (R231). -/
def State.slotStagedOk (s : State) (p : Path) : Bool :=
  s.slotNextOk p || (match s.rte.amd with | some a => hasKind (a.kinds p) 0 | none => false)

/-! ### The queue (R67 to R75) -/

/-- T of an entry, in ns. -/
def QEntry.time (e : QEntry) : Nat := e.sec * 1000000000 + e.ns

def State.entry (s : State) (h : Nat) : Option QEntry := s.mst.queue.find? fun e => e.handle == h

def State.updQueue (s : State) (f : QEntry → QEntry) : State :=
  { s with mst := { s.mst with queue := s.mst.queue.map f } }

def State.updEntry (s : State) (h : Nat) (f : QEntry → QEntry) : State :=
  s.updQueue fun e => if e.handle = h then f e else e

/-- Whether frame counter `a` is at or before `b`, by serial arithmetic. -/
def frameLe (a b : Nat) : Bool := decide ((b + 2 ^ 48 - a) % 2 ^ 48 < 2 ^ 47)

/-- Whether a path's part of an entry carries announcements at all: its frame is fixed, and a kind from 0 to 5 remains
(R77). -/
def PathPart.announced (x : PathPart) : Bool := x.inScope && x.target.isSome && decide (x.kinds &&& 0x3F#7 ≠ 0)

/-- Whether a path's part has nothing left to do, nor to announce up to frame `fc`. -/
def PathPart.past (x : PathPart) (fc : Nat) : Bool :=
  !x.inScope || (x.done && (!x.announced || (match x.target with | some t => frameLe t fc | none => true)))

/-- An entry with nothing left to do, and nothing left to announce once frame `fc` has been sent, leaves the queue. -/
def QEntry.finished (e : QEntry) (fc : Nat) : Bool := (e.deviceDone || e.withdrawn) && e.partA.past fc && e.partB.past fc

/-- Finished entries leave the queue; `fc` is the frame that has been sent last. -/
def State.sweepQueue (s : State) (fc : Nat) : State :=
  { s with mst := { s.mst with queue := s.mst.queue.filter fun e => !e.finished fc } }

/-- The target frame of a path for time `t` in 2^-32 ns, f of R71. Both paths share the frame counter (R201). -/
def State.targetFor (s : State) (t : Nat) : Nat :=
  let d := t - s.boundaryTime
  (s.txFc + ceilDiv (d * s.mst.period.2) (max 1 s.mst.period.1)) % 2 ^ 48

/-- Fixes a path's part of an entry at frame `f`: kinds whose next copy is not staged, or is frozen for another entry
with a different target frame, are dropped with event 301 (R73); so is a slot table that fails its checks (R231). -/
def State.fixAt (s : State) (p : Path) (h f : Nat) : State :=
  match s.entry h with
  | none => s
  | some e =>
    let x := e.part p
    if !x.inScope || x.target.isSome then s
    else
      let drop (k : Nat) : Bool := hasKind x.kinds k &&
        ((s.staged p k).isNone || (k == 0 && !s.slotStagedOk p)
          || s.mst.queue.any fun o => o.handle != h && o.freezes p k && (o.part p).target != some f)
      let dropped := (List.range 6).filter drop
      let mask : Nat := (dropped.map fun k => 2 ^ k).sum
      let gens := (List.range 6).foldl (fun g k =>
        if hasKind x.kinds k && !drop k then g.set k ((s.staged p k).getD 0) else g) (s.mstPath p).tx
      let s := s.updEntry h fun e => e.updPart p fun x =>
        { x with kinds := x.kinds &&& ~~~BitVec.ofNat 7 mask, target := some f, frozen := gens }
      if dropped = [] then s else s.raise 301 1 0 h mask

/-- Fixes a path's part by R71. -/
def State.fixEntry (s : State) (p : Path) (h : Nat) : State :=
  match s.entry h with
  | none => s
  | some e => s.fixAt p h (s.targetFor (e.time * oneNs))

/-- Result codes of `MST_Q_STATUS.RESULT` (R84). -/
def qOk : Nat := 0
def qFull : Nat := 1
def qNotice : Nat := 2
def qPast : Nat := 3
def qNoEntry : Nat := 4
def qLate : Nat := 5
def qScope : Nat := 6
def qOwned : Nat := 7

/-- An entry that is to be added. `per` gives the paths' kinds, and whether bit 6 covers the device scope, where they
differ from `kinds` (an amendment). -/
structure NewEntry where
  sec    : Nat
  ns     : Nat
  device : Bool
  pathA  : Bool
  pathB  : Bool
  kinds  : BitVec 7
  owner  : Owner
  amdNum : Nat
  per    : Option (BitVec 7 × BitVec 7 × Bool) := none
  deriving DecidableEq, Repr

/-- What R68 answers to an entry, its checks in their order. -/
def State.judgeEntry (s : State) (n : NewEntry) : Nat :=
  let t := n.sec * 1000000000 + n.ns
  let pathKinds := n.kinds &&& 0x3F#7
  let path := n.pathA || n.pathB
  if (n.pathA && !s.pathUp .a) || (n.pathB && !s.pathUp .b) || !(path || n.device) || n.kinds = 0
      || (n.kinds &&& 0x19#7 ≠ 0 && !path) then qScope
  else if pathKinds = 0 ∧ t < s.now then qPast
  else if pathKinds ≠ 0 ∧ t < s.now + superframes64 then qNotice
  else if 64 ≤ s.mst.queue.length then qFull
  else qOk

/-- Handles that are not in use. -/
def State.freeHandles (s : State) : List Nat := (List.range 64).filter fun h => (s.entry h).isNone

/-- The handle that an accepted entry gets: any that is free (log 23). -/
def State.newHandle (s : State) : Nat :=
  let l := s.freeHandles
  l.getD (Config.freeNat s.freeCtr 1000 % max 1 l.length) 0

/-- Enters an accepted entry, and fixes it at once when its fixing moment has passed (R69, R71). -/
def State.enterEntry (s : State) (n : NewEntry) (h : Nat) : State :=
  let pk : BitVec 7 × BitVec 7 × Bool := n.per.getD (n.kinds, n.kinds, hasKind n.kinds 6)
  let shadow := n.device && pk.2.2
  let part (b : Bool) (k : BitVec 7) : PathPart := ⟨b, k, none, resetGens, false⟩
  let e : QEntry :=
    { handle := h, sec := n.sec, ns := n.ns, device := n.device, devShadow := shadow,
      deviceDone := !(shadow || (n.device && n.owner == .loader)),
      kinds := n.kinds, owner := n.owner, amdNum := n.amdNum, partA := part n.pathA pk.1,
      partB := part n.pathB pk.2.1,
      withdrawn := false }
  let s := { s with mst := { s.mst with queue := s.mst.queue ++ [e] } }
  if e.time ≤ s.now + superframes128 then (s.fixEntry .a h).fixEntry .b h else s

/-- Adds an entry: the result code, and the state (R68). -/
def State.addEntry (s : State) (n : NewEntry) : State × Nat × Nat :=
  let r := s.judgeEntry n
  if r = qOk then
    let h := s.newHandle
    (s.enterEntry n h, qOk, h)
  else (s, r, 0)

/-- The host's `ADD` (R68): the entry registers as they stand. -/
def State.hostAdd (s : State) : State :=
  let w := s.reg Reg.MST_Q_ENTRY
  let n : NewEntry :=
    { sec := s.fld Reg.MST_Q_TIME_SEC_HI 15 0 * 2 ^ 32 + (s.reg Reg.MST_Q_TIME_SEC_LO).toNat
      ns := (s.reg Reg.MST_Q_TIME_NS).toNat
      device := flagOf w 10, pathB := flagOf w 9, pathA := flagOf w 8
      kinds := BitVec.ofNat 7 (w.toNat % 128) &&& 0x59#7
      owner := .host, amdNum := 0 }
  let (s, r, h) := s.addEntry n
  { s with mst := { s.mst with result := r, handle := if r = qOk then h else s.mst.handle } }

/-- Withdraws an entry (R56, R75): a fixed part that was announced stays announced as withdrawn until its frame has
passed (R77). Until then the entry keeps its handle and its place, and counts in `INUSE`, `FREE` and `FULL`, although R56
calls it freed: a handle that is announced as withdrawn cannot serve another entry (log 103). -/
def State.withdraw (s : State) (h : Nat) : State :=
  (s.updEntry h fun e =>
    let f (x : PathPart) : PathPart :=
      if x.target.isNone ∨ x.kinds &&& 0x3F#7 = 0 then { x with done := true } else x
    { e with withdrawn := true, partA := f e.partA, partB := f e.partB }).sweepQueue s.txFc

/-- What a cancel by handle answers (R75). A withdrawn entry is in use no longer for a cancel, and an entry of another
owner answers `OWNED` even where it is late too (log 103). -/
def State.judgeCancel (s : State) (h : Nat) : Nat :=
  match s.entry h with
  | none => qNoEntry
  | some e =>
    if e.withdrawn then qNoEntry
    else if e.owner ≠ .host then qOwned
    else if e.time ≤ s.now + superframes64 then qLate
    else qOk

/-- The host's `CANCEL` (R75). -/
def State.hostCancel (s : State) (h : Nat) : State :=
  let r := s.judgeCancel h
  let s := if r = qOk then s.withdraw h else s
  { s with mst := { s.mst with result := r } }

/-- A nominal local time, kept within the frame period that the commands are in. -/
def State.moment (s : State) (t : Nat) : Nat := max s.upNs (min t (s.upNs + 1023))

/-- Milestone time moves on to `m`, in 2^-32 ns, within the second. -/
def State.timeTo (s : State) (m : Nat) : State :=
  let d := m - s.nowFine
  if 0 < d ∧ m < (s.mst.sec + 1) * 1000000000 * oneNs then { s.setNow m with phase := s.phase + d } else s

/-- `MILESTONE_FIX`: the fixing moment of an entry, 128 superframes before T (R71). Time moves on to that moment within
the frame in progress; a moment that lies beyond it has not come. -/
def execMilestoneFix (p : Path) (handle : BitVec 6) : State → Host.Outcome State Fault Refusal :=
  complete fun s =>
    match s.entry handle.toNat with
    | none => s
    | some e =>
      let m := (e.time - superframes128) * oneNs
      if e.withdrawn || decide (s.boundaryTime + s.frameAdvance < m) then s
      else (s.timeTo m).fixEntry p handle.toNat

/-! ### The time state (R64) -/

/-- The `STATE` code of `MST_TIME_STATUS` (R84). -/
def TimeState.code : TimeState → Nat
  | .free => 0 | .acquiring => 1 | .locked => 2 | .holdover => 3 | .lost => 4

/-- Changes the time state, with event 299. In `HOLDOVER` the counter runs at its rate alone (R64). -/
def State.setTimeState (s : State) (t : TimeState) : State :=
  if s.mst.time = t then s
  else
    let slew : Int := if t = .holdover then 0 else s.mst.slew
    ({ s with mst := { s.mst with time := t, slew := slew } }).raise 299 t.code 0 0 0

/-- Whether the source is one that markers and messages discipline. -/
def State.disciplined (s : State) : Bool := s.timeSrc == 1 || s.timeSrc == 2

/-- `TIME_MARKER_MISSING`: no marker 1 s + 100 us after the previous one (R64). -/
def execTimeMarkerMissing : State → Host.Outcome State Fault Refusal :=
  complete fun s =>
    if s.disciplined then
      let s := { s with mst := { s.mst with markerSeen := false, qualified := 0 } }
      if s.mst.time = .locked then s.setTimeState .holdover else s
    else s

/-- `TIME_MESSAGE_ABSENT`: messages have been invalid or absent for two consecutive seconds (R64). -/
def execTimeMessageAbsent : State → Host.Outcome State Fault Refusal :=
  complete fun s =>
    let bad := s.mst.badSecs + (if s.mst.msgTime.isNone then 1 else 0)
    if s.disciplined ∧ s.mst.time = .locked ∧ 2 ≤ bad then s.setTimeState .holdover else s

/-- `HOLDOVER_LIMIT`: `MST_HOLDOVER.LIMIT` seconds of HOLDOVER; a limit of 0 never ends it (R64). -/
def execHoldoverLimit : State → Host.Outcome State Fault Refusal :=
  complete fun s =>
    if s.mst.time = .holdover ∧ s.fld Reg.MST_HOLDOVER 15 0 ≠ 0 then s.setTimeState .lost else s

/-- A new time source: the time state starts afresh (R61, R64). -/
def State.sourceChanged (s : State) : State :=
  let s := { s with mst := { s.mst with
    qualified := 0, markerSeen := false, lastMsgSec := none, msgTime := none, msgGood := false, badSecs := 0,
    traceable := false, msgFlags := 0, slew := 0, rate := 0 } }
  s.setTimeState (if s.disciplined then .acquiring else .free)

/-- Whether a 16-byte time message is well formed (R62, log 24). -/
def timeMessageOk (b : Bytes) : Bool :=
  b.length == 16 && beAt b 0 2 == 0x4D54 && beAt b 2 1 == 1 && decide (beAt b 10 4 < 1000000000)
    && beAt b 14 2 == crc16 (b.take 14)

/-- A complete time message that ends `since` ns after the marker before it (R62, R64, R65). The leap-second flag is
journalled once: after that neither a message that still carries it nor a later announcement is journalled (log 101). A
message that clears the traceable flag ends the qualified seconds that `HOLDOVER` has to count anew. -/
def State.timeMessage (s : State) (b : Bytes) (since : Nat) : State :=
  if s.mst.markerSeen && decide (100000000 ≤ since ∧ since ≤ 900000000) && timeMessageOk b then
    let sec := beAt b 4 6
    let flags := beAt b 3 1
    let m := s.mst
    let tr := flags.testBit 0
    let leap := flags.testBit 1
    let drop := m.traceable && !tr && m.time == .locked
    let s := { s with mst := { m with
      msgTime := some (sec, beAt b 10 4)
      msgGood := match m.lastMsgSec with | some l => l + 1 == sec | none => false
      lastMsgSec := some sec, traceable := tr, msgFlags := flags, leapSeen := m.leapSeen || leap } }
    let s := if leap && !m.leapSeen then s.detail 299 (b2n (flags.testBit 2)) 0 0 0 else s
    if drop then ({ s with mst := { s.mst with qualified := 0 } }).setTimeState .holdover else s
  else { s with mst := { s.mst with msgErr := wrapTo 16 (s.mst.msgErr + 1) } }

/-- Whether frame `fc` announces an entry on a path: from fixing until its target frame, which carries the record too
(R77). -/
def QEntry.announces (e : QEntry) (p : Path) (fc : Nat) : Bool :=
  let x := e.part p
  x.announced && (!x.done || x.target == some fc)

/-- The six generations as bytes. -/
def Gens.bytes (g : Gens) : Bytes := (List.range 6).flatMap fun k => beBytes 2 (g.get k).toNat

/-- An announcement record (R77). A kind outside the mask carries its current generation. -/
def State.announceRecord (s : State) (p : Path) (e : QEntry) : Bytes :=
  let x := e.part p
  let gens := (List.range 6).foldl (fun g k =>
    if hasKind x.kinds k then g else g.set k ((s.mstPath p).tx.get k)) x.frozen
  let b := [(if e.withdrawn then 2 else 1), BitVec.ofNat 8 e.handle] ++ beBytes 6 (x.target.getD 0)
    ++ beBytes 2 ((x.kinds &&& 0x3F#7).toNat + (if e.owner = .loader then 64 else 0)) ++ gens.bytes
    ++ beBytes 2 e.amdNum ++ List.replicate 6 0
  b ++ beBytes 2 (crc16 b)

/-- A record position left over: state 0x00 and zeros (R77). -/
def emptyRecord : Bytes := List.replicate 32 0

/-- The entries to announce, in handle order from the rotation point. -/
def State.announceOrder (s : State) (p : Path) : List QEntry :=
  let l := s.mst.queue.filter fun e => e.announces p s.txFc
  let byHandle (from' to' : Nat) := (List.range 64).flatMap fun h =>
    if from' ≤ h ∧ h < to' then l.filter fun e => e.handle == h else []
  let pos := (s.mstPath p).recPos
  byHandle pos 64 ++ byHandle 0 pos

/-- The two records of a frame, and the rotation point after them (R77). -/
def State.announceFrame (s : State) (p : Path) : Bytes × Nat :=
  match s.announceOrder p with
  | [] => (emptyRecord ++ emptyRecord, (s.mstPath p).recPos)
  | [e] => (s.announceRecord p e ++ emptyRecord, (e.handle + 1) % 64)
  | e :: f :: _ => (s.announceRecord p e ++ s.announceRecord p f, (f.handle + 1) % 64)

/-- The generation tag block, bytes 40 to 63 (R78). -/
def State.tagBlock (s : State) (p : Path) : Bytes :=
  let b := (s.mstPath p).tx.bytes ++ beBytes 2 s.rte.amdNum ++ beBytes 4 s.rte.gen.toNat ++ [0, 0, 0, 0]
  b ++ beBytes 2 (crc16 b)

end Sys2Proof.Machine
end

