-- ==== Sys2Proof/Machine/Framer.lean ====
section
/-!
DEFINITION. The line framer of a path (09_line_frame.md): alignment, defects, trace, backward indications, performance
seconds, general channels and peer protocol violations.
-/
namespace Sys2Proof.Machine

def State.lfr (s : State) (p : Path) : LfrState := (s.path p).lfr

def State.updLfr (s : State) (p : Path) (f : LfrState → LfrState) : State :=
  s.updPath p fun x => { x with lfr := f x.lfr }

/-! ### Numbers of the defects -/

def dLOS : Nat := 0
def dLOL : Nat := 1
def dLOF : Nat := 2
def dLOSF : Nat := 3
def dPAIS : Nat := 4
def dBDI : Nat := 5
def dTIM : Nat := 6
def dDEG : Nat := 7

/-- Periods of the four timers (R204). -/
def defectPeriods (d : Nat) : Nat := if d ≤ 1 then 64 else 2930

/-! ### Reported state (R205) -/

/-- The reported states that raw states give: the highest defect alone. -/
def reportedOf (raw : BitVec 8) : BitVec 8 :=
  match (List.range 8).find? (fun d => raw.getLsbD d) with
  | some d => BitVec.ofNat 8 (2 ^ d)
  | none => 0

/-- Judges the reported states, with the event of each change and the sticky bit of each defect that becomes reported
(R205, R219, R220). -/
def State.lfrJudge (s : State) (p : Path) : State :=
  let l := s.lfr p
  let new := reportedOf l.raw
  let s := s.updLfr p fun l =>
    { l with rep := new, sticky := l.sticky ||| (new &&& ~~~l.rep),
             second := { l.second with raw := l.second.raw ||| l.raw, bdi := l.second.bdi || new.getLsbD dBDI } }
  (List.range 8).foldl (fun s d =>
    if new.getLsbD d == l.rep.getLsbD d then s
    else
      let cause := if d = dBDI then l.bdiCause else 0
      s.raise (pathSrc p (25 + d)) (b2n (new.getLsbD d)) 0 (if new.getLsbD d then cause else cleared cause) 0) s

/-- Sets or clears a raw state (R204). -/
def State.lfrRaw (s : State) (p : Path) (d : Nat) (v : Bool) : State :=
  let bit := BitVec.ofNat 8 (2 ^ d)
  (s.updLfr p fun l => { l with raw := if v then l.raw ||| bit else l.raw &&& ~~~bit }).lfrJudge p

/-- Whether the path is monitored (R205). -/
def State.monitoredNow (s : State) (p : Path) : Bool := s.rxdOn p

/-- A reported defect that puts the containers of the path into container AIS downstream (R207). -/
def State.pathAis (s : State) (p : Path) : Bool :=
  let r := (s.lfr p).rep
  !s.monitoredNow p || decide (r &&& 0x1F#8 ≠ 0) || (r.getLsbD dTIM && s.pflag p Reg.PA_LFR_CTRL 8)

/-! ### Peer protocol violations (R216, R217) -/

def vNotice : Nat := 1
def vRecord : Nat := 2
def vTarget : Nat := 3
def vProfile : Nat := 4
def vLevelling : Nat := 5
def vMalformed : Nat := 6
def vOrder : Nat := 7
def vSignature : Nat := 8
def vReserved : Nat := 9

/-- Counts a violation; outside quarantine it is journalled, and the sixteenth of a second begins the quarantine. -/
def State.violation (s : State) (p : Path) (code : Nat) : State :=
  let q := (s.lfr p).quarantine
  let s := s.updLfr p fun l =>
    { l with viol := wrapTo 16 (l.viol + 1), secViol := satTo 8 (l.secViol + 1), lastViol := code }
  if q then s
  else
    let s := (s.detail (pathSrc p 34) code 0 0 0).raiseOnce (pathSrc p 34) code 0 0 0
    if 16 ≤ (s.lfr p).secViol then
      (s.updLfr p fun l => { l with quarantine := true, quarAt := s.upNs }).raise (pathSrc p 35) 1 0 0 0
    else s

/-- The quarantine of a path's peer channel ends (R217). -/
def State.quarantineOver (s : State) (p : Path) : State :=
  (s.updLfr p fun l => { l with quarantine := false, secViol := 0 }).raise (pathSrc p 35) 0 0 (cleared 0) 0

/-! ### Alignment (R197, R202, R203) -/

/-- The frame alignment word. -/
def alignWord : Bytes :=
  [0xB7, 0x2C, 0x5E, 0x91, 0x0F, 0xD3, 0x68, 0xA4, 0x3B, 0xE6, 0x15, 0x79, 0xC2, 0x4D, 0x80, 0x3F]

/-- Bits that are set in a byte. -/
def popByte (b : Byte) : Nat := ((List.range 8).map fun i => b2n (b.getLsbD i)).sum

/-- Bits in error in a received alignment word. -/
def alignErrors (b : Bytes) : Nat := (List.zipWith (fun x y => popByte (x ^^^ y)) (padTo 16 b) alignWord).sum

/-- The framer leaves superframe alignment. The superframes that give the first accepted trace must follow one another
(R209). -/
def LfrState.dropSf (l : LfrState) : LfrState :=
  let l := if l.inSf then { l with inSf := false, prevExp := some l.expected, badCtrs := 0 } else l
  let l := { l with lastCtr := none, asm := none }
  if l.accepted.isNone then { l with lastAsm := none, asmCount := 0 } else l

/-- The framer goes out of frame. -/
def LfrState.dropFrame (l : LfrState) : LfrState := { l.dropSf with inFrame := false, cand := false, badWords := 0 }

/-- Frame alignment on a delivered frame (R202). -/
def LfrState.align (l : LfrState) (overhead : Bytes) : LfrState :=
  let bad := decide (3 < alignErrors overhead)
  if l.inFrame then
    if !bad then { l with badWords := 0 }
    else if 5 ≤ l.badWords + 1 then l.dropFrame
    else { l with badWords := l.badWords + 1 }
  else if bad then { l with cand := false }
  else if l.cand then { l with inFrame := true, cand := false, badWords := 0 }
  else { l with cand := true }

/-- The CRC-8 of the frame counter field (R197). -/
def crc8 (b : Bytes) : Nat := crcMsb 8 0x07 0 b

/-- The frame counter field of a counter value (R197). -/
def counterField (fc : Nat) : Bytes :=
  let b := beBytes 6 fc ++ [BitVec.ofNat 8 (fc % 16 * 16)]
  b ++ [BitVec.ofNat 8 (crc8 b)]

/-- The counter that a readable frame counter field carries (R200). -/
def readCounter (overhead : Bytes) : Option Nat :=
  let f := bytesAt overhead 16 8
  let c := beAt f 0 6
  if f = counterField c then some c else none

/-- Superframe alignment on a delivered frame while in frame, with its readable counter (R203). The flag tells that
the counter resynchronised. -/
def LfrState.super (l : LfrState) (ctr : Option Nat) : LfrState × Bool :=
  if l.inSf then
    let e := (l.expected + 1) % 2 ^ 48
    let l := { l with expected := e }
    match ctr with
    | none => (l, false)
    | some c =>
      if c = e then ({ l with badCtrs := 0 }, false)
      else if 5 ≤ l.badCtrs + 1 then (l.dropSf, false)
      else ({ l with badCtrs := l.badCtrs + 1 }, false)
  else
    let prev := l.prevExp.map fun e => (e + 1) % 2 ^ 48
    match ctr, l.lastCtr with
    | some c, some b =>
      if (b + 1) % 2 ^ 48 = c then
        ({ l with inSf := true, expected := c, badCtrs := 0, lastCtr := none, prevExp := none },
          match prev with | some e => e != c | none => false)
      else ({ l with lastCtr := some c, prevExp := prev }, false)
    | c, _ => ({ l with lastCtr := c, prevExp := prev }, false)

/-- The end of frame lock: no frames are delivered any more (R202, R203). -/
def State.lfrUnlocked (s : State) (p : Path) : State := s.updLfr p fun l => l.dropFrame

/-! ### Status field (R198, R204, R206) -/

/-- A CRC-16 over a part of the overhead that is stored after it. -/
def crcOk (overhead : Bytes) (first n : Nat) : Bool :=
  beAt overhead (first + n) 2 == crc16 (bytesAt overhead first n)

/-- A readable status field: the runs of PAIS and BDI, and reserved bits. -/
def State.statusField (s : State) (p : Path) (ov : Bytes) : State :=
  let b := beAt ov 24 1
  let run (s : State) (d bit n : Nat) (get : LfrState → Nat) (set : Nat → LfrState → LfrState) : State :=
    let l := s.lfr p
    let v := b.testBit bit
    if v == l.raw.getLsbD d then s.updLfr p (set 0)
    else if n ≤ get l + 1 then (s.updLfr p (set 0)).lfrRaw p d v
    else s.updLfr p (set (get l + 1))
  let s := s.updLfr p fun l => if b.testBit 6 then { l with bdiCause := beAt ov 25 1 } else l
  let s := run s dPAIS 7 5 (·.paisRun) fun n l => { l with paisRun := n }
  let s := run s dBDI 6 5 (·.bdiRun) fun n l => { l with bdiRun := n }
  if b % 8 ≠ 0 ∨ bitsOf (beAt ov 27 1) 5 3 ≠ 0 ∨ (bytesAt ov 30 8).any (· != 0) then s.violation p vReserved else s

/-- The highest reported defect that BDI reports (R206); and whether BDI is sent. -/
def State.bdiCauseTx (s : State) (p : Path) : Nat :=
  let r := (s.lfr p).rep
  if r.getLsbD dLOS then 1 else if r.getLsbD dLOL then 2 else if r.getLsbD dLOF then 3 else if r.getLsbD dLOSF then 4
  else if r.getLsbD dPAIS then 5 else if r.getLsbD dTIM && s.pflag p Reg.PA_LFR_CTRL 8 then 6 else 0

def State.bdiTx (s : State) (p : Path) : Bool :=
  s.pflag p Reg.PA_LFR_CTRL 1 || (s.pflag p Reg.PA_LFR_CTRL 2 && decide (s.bdiCauseTx p ≠ 0))

/-- The status field of a transmitted frame (R198), given PAIS. -/
def State.statusBytes (s : State) (p : Path) (pais : Bool) : Bytes :=
  let m := s.txMode p
  let flags := 128 * b2n pais + 64 * b2n (s.bdiTx p) + 32 * b2n (s.encrypted p) + 16 * b2n (s.inst 6) + 8 * pathNum p
  let b := beBytes 1 flags ++ beBytes 1 (if s.bdiTx p then s.bdiCauseTx p else 0) ++ beBytes 1 m.m ++ beBytes 1 (64 * m.fec + m.tracks)
    ++ beBytes 2 m.k ++ List.replicate 8 0
  b ++ beBytes 2 (crc16 b)

/-! ### Trace and backward indications (R199, R209, R210) -/

/-- The 64 bytes of a windowed trace register. -/
def State.traceBytes (s : State) (p : Path) (off : Nat) : Bytes :=
  (List.range 16).flatMap fun w => beBytes 4 (s.regI (pathReg p off) w).toNat

/-- Bytes that `TIM_MODE` compares: first and count. -/
def timRange (mode : Nat) : Nat × Nat :=
  match mode with | 1 => (0, 16) | 2 => (16, 16) | 3 => (0, 32) | 4 => (0, 64) | _ => (0, 0)

/-- Judges TIM (R204, R209). -/
def State.timJudge (s : State) (p : Path) : State :=
  let mode := s.pfld p Reg.PA_LFR_CTRL 11 9
  let r := timRange mode
  let differs := match (s.lfr p).accepted with
    | none => false
    | some t => decide (mode ≠ 0) && bytesAt t r.1 r.2 != bytesAt (s.traceBytes p Reg.PA_LFR_TRACE_RX) r.1 r.2
  if !s.monitoredNow p || differs == (s.lfr p).raw.getLsbD dTIM then s else s.lfrRaw p dTIM differs

/-- Follows the monitored condition: a path that is not monitored has no defect and its timers are reset (R205). -/
def State.lfrMonitor (s : State) (p : Path) : State :=
  let on := s.monitoredNow p
  if on == (s.lfr p).monitored then s
  else
    let s := s.updLfr p fun l =>
      { l with monitored := on, runs := [0, 0, 0, 0], paisRun := 0, bdiRun := 0, degRun := 0, raw := 0,
               second := { l.second with monAll := false } }
    let s := s.lfrJudge p
    if on then s.timJudge p else s

/-- The end of a received superframe with its assembled trace, if it was assembled (R209). -/
def State.traceEnd (s : State) (p : Path) (asm : Option Bytes) : State :=
  match asm with
  | none => s.updLfr p fun l => if l.accepted.isNone then { l with asmCount := 0, lastAsm := none } else l
  | some t =>
    let s := s.updLfr p fun l =>
      { l with asmCount := if l.lastAsm = some t then l.asmCount + 1 else 1, lastAsm := some t }
    let l := s.lfr p
    if 3 ≤ l.asmCount ∧ l.accepted ≠ some t then
      ((s.updLfr p fun l => { l with accepted := some t }).raise (pathSrc p 33) 0 0 0 0).timJudge p
    else s

/-- The backward values of a superframe are taken from its first readable field (R210). -/
def LfrState.takeBackward (l : LfrState) (ov : Bytes) (sf : Nat) : LfrState :=
  if l.farAt = some sf then l
  else
    let far : Backward := ⟨beAt ov 68 1, (beAt ov 69 1).testBit 7, beAt ov 70 2, beAt ov 72 4⟩
    { l with farAt := some sf, far := far,
             second := { l.second with
               farSf := l.second.farSf + 1, farErr := l.second.farErr + far.errored
               farBad := l.second.farBad || !far.valid, farUncorr := l.second.farUncorr || far.uncorr != 0 } }

/-- The trace and backward field of a delivered frame while in superframe, with received counter `fc`. -/
def State.traceField (s : State) (p : Path) (ov : Bytes) (readable : Bool) (fc : Nat) : State :=
  let x := fc % 16
  let s := s.updLfr p fun l =>
    let l := if x = 0 then { l with asm := some [] } else l
    { l with asm := match l.asm with
      | some b => if readable && b.length == 4 * x then some (b ++ bytesAt ov 64 4) else none
      | none => none }
  let s := if readable then s.updLfr p fun l => l.takeBackward ov (fc / 16) else s
  if x = 15 then s.traceEnd p (s.lfr p).asm else s

/-- Reserved bits of a readable trace and backward field, in or out of superframe (R200, R216). -/
def State.traceReserved (s : State) (p : Path) (ov : Bytes) : State :=
  if bitsOf (beAt ov 69 1) 6 0 ≠ 0 ∨ (bytesAt ov 76 50).any (· != 0) then s.violation p vReserved else s

/-- The counts of a delivered frame for the backward indications and the second; `x` is the superframe index while in
superframe. -/
def State.sfCount (s : State) (p : Path) (uncorr corr : Nat) (x : Option Nat) : State :=
  let err := if 0 < uncorr then 1 else 0
  s.updLfr p fun l =>
    let l := { l with second := { l.second with uncorr := l.second.uncorr + uncorr, errored := l.second.errored + err } }
    let l := match x with
      | some 0 => { l with sfCur := { noBackward with valid := true }, sfFrames := 0 }
      | some _ => l
      | none => { l with sfCur := { l.sfCur with valid := false } }
    let c := l.sfCur
    let c := { c with errored := c.errored + err, uncorr := satTo 16 (c.uncorr + uncorr), corr := satTo 32 (c.corr + corr) }
    let l := { l with sfCur := c, sfFrames := l.sfFrames + 1 }
    if x = some 15 then { l with sfLast := { c with valid := c.valid && l.sfFrames == 16 } } else l

/-- Fills the backward values at a transmit superframe boundary, from the received superframe that was completed last
(R210). -/
def State.backFill (s : State) (p : Path) : State :=
  s.updLfr p fun l => { l with back := if l.sfLast.valid then l.sfLast else noBackward }

/-- The trace and backward field of a transmitted frame (R199). -/
def State.traceTxBytes (s : State) (p : Path) (x : Nat) : Bytes :=
  let k := (s.lfr p).back
  let b := bytesAt (s.traceBytes p Reg.PA_LFR_TRACE_TX) (4 * x) 4 ++ beBytes 1 k.errored
    ++ [if k.valid then 128 else 0] ++ beBytes 2 k.uncorr ++ beBytes 4 k.corr ++ List.replicate 50 0
  b ++ beBytes 2 (crc16 b)

/-! ### Timers (R204) -/

/-- The condition of timer `d` at a local frame boundary. -/
def State.defectCond (s : State) (p : Path) (d : Nat) : Bool :=
  match d with
  | 0 => (s.path p).rxd.sigAbsent
  | 1 => !s.locked p
  | 2 => !(s.lfr p).inFrame
  | _ => !(s.lfr p).inSf

/-- The framer at a local frame boundary: a period starts (R204, R211). -/
def State.lfrPeriod (s : State) (p : Path) : State :=
  if !(s.lfr p).monitored then s
  else
    let cond := (List.range 4).map fun d => s.defectCond p d
    s.updLfr p fun l =>
      { l with
        runs := (List.range 4).map fun d =>
          if cond.getD d false == l.raw.getLsbD d then 0 else l.runs.getD d 0 + 1
        second := { l.second with periods := l.second.periods + 1 } }

/-- `DEFECT_TIMER`: the timer of defect `d` reaches its count and the raw state becomes `v` (R204). -/
def execDefectTimer (p : Path) (d : BitVec 2) (v : Bool) : State → Host.Outcome State Fault Refusal :=
  complete fun s =>
    let l := s.lfr p
    let n := d.toNat
    if l.monitored && v != l.raw.getLsbD n && decide (defectPeriods n ≤ l.runs.getD n 0) then
      (s.updLfr p fun l => { l with runs := modifyAt (fun _ => 0) n l.runs }).lfrRaw p n v
    else s

/-! ### Seconds (R208, R211, R212) -/

/-- A degraded second moves the DEG count (R208). -/
def State.degSecond (s : State) (p : Path) : State :=
  let l := s.lfr p
  if !l.monitored || l.second.raw &&& 0x1F#8 ≠ 0 then s
  else
    let st := (s.fec p).stats
    let frm := s.pfld p Reg.PA_LFR_DEG_CTRL 19 0
    let ber := s.pfld p Reg.PA_LFR_DEG_BER 19 0
    let bad := st.valid && ((frm != 0 && decide (frm ≤ st.cnt.errFrames))
      || (ber != 0 && (berHigh st.cnt (s.rxModeOf p).codeLen ber).getD false))
    if bad == l.raw.getLsbD dDEG then s.updLfr p fun l => { l with degRun := 0 }
    else if s.pfld p Reg.PA_LFR_DEG_CTRL 27 24 ≤ l.degRun + 1 then
      (s.updLfr p fun l => { l with degRun := 0 }).lfrRaw p dDEG bad
    else s.updLfr p fun l => { l with degRun := l.degRun + 1 }

/-- The oldest pending second becomes final. -/
def PmEnd.final (e : PmEnd) (unavail : Bool) : PmEnd :=
  match e.pend with
  | [] => e
  | (sec, es, ses) :: rest =>
    let e := { e with pend := rest, last := sec }
    if unavail then { e with uas := wrapTo 32 (e.uas + 1) }
    else { e with es := wrapTo 32 (e.es + b2n es), ses := wrapTo 32 (e.ses + b2n ses) }

/-- A monitored second ends (R212). -/
def PmEnd.push (e : PmEnd) (sec : Nat) (es ses : Bool) : PmEnd :=
  let e := { e with pend := e.pend ++ [(sec, es || ses, ses)] }
  if e.pend.length < 10 then e
  else
    let flip := e.pend.all fun x => x.2.2 != e.unavail
    let e := if flip then { e with unavail := !e.unavail } else e
    e.final e.unavail

/-- A second that is not monitored ends: every pending second becomes final (R212). -/
def PmEnd.skip (e : PmEnd) : PmEnd := (e.pend.foldl (fun e _ => e.final e.unavail) e)

/-- The end of a second for one end of a path, with event 36 or 84 when its availability changes. -/
def State.pmSecond (s : State) (p : Path) (far : Bool) (sec : Nat) (mon es ses : Bool) : State :=
  let get (l : LfrState) : PmEnd := if far then l.farEnd else l.near
  let old := get (s.lfr p)
  let new := if mon then old.push sec es ses else old.skip
  let s := s.updLfr p fun l => if far then { l with farEnd := new } else { l with near := new }
  if old.unavail == new.unavail then s
  else s.raise (pathSrc p 36) (b2n far) 0 (if new.unavail then 0 else cleared 0) 0

/-- The framer at a milestone second boundary; `sec` is the second that ends. -/
def State.lfrSecond (s : State) (p : Path) (sec : Nat) : State :=
  let s := s.degSecond p
  let a := (s.lfr p).second
  let def' := decide (a.raw &&& 0x5F#8 ≠ 0)
  let mon := a.monAll && (s.lfr p).monitored
  let lo := sec % 2 ^ 32
  let s := s.pmSecond p false lo mon (decide (0 < a.uncorr) || def') (decide (3 * a.periods ≤ 20 * a.errored) || def')
  let s := s.pmSecond p true lo mon (a.bdi || a.farUncorr) (a.bdi || a.farBad || decide (48 * a.farSf ≤ 20 * a.farErr))
  s.updLfr p fun l =>
    { l with secViol := 0, second := { freshSecond with raw := l.raw, monAll := l.monitored, bdi := l.rep.getLsbD dBDI } }

/-! ### General channels (R214, R215) -/

/-- Base of channel `g`'s transmit ring; the receive ring lies 0x1_0000 above. -/
def gccBase (p : Path) (g : Nat) : Nat := 0x06E00000 + pathNum p * 0x100000 + g * 0x20000

def State.chan (s : State) (p : Path) (g : Nat) : Chan := (s.lfr p).gcc.getD g resetChan

def State.updChan (s : State) (p : Path) (g : Nat) (f : Chan → Chan) : State :=
  s.updLfr p fun l => { l with gcc := modifyAt f g l.gcc }

/-- A general channel discard (subtype 0), overflow (1) or transmit stop (2). -/
def State.gccEvent (s : State) (p : Path) (sub : Nat) : State := s.raiseOnce (pathSrc p 37) sub 0 0 0

def State.gccDiscard (s : State) (p : Path) (g : Nat) : State :=
  (s.updChan p g fun c => { c with rxMsg := none, discard := wrapTo 16 (c.discard + 1) }).gccEvent p 0

/-- Reads `n` bytes of a 64 KiB ring from offset `off`, wrapping. -/
def State.ringRead (s : State) (base off n : Nat) : Bytes :=
  (List.range n).map fun i => s.mem.readByte s.freeCtr (base + (off + i) % 65536)

/-- Whether any word of the `n` bytes of a ring reads uncorrectable. -/
def State.ringBad (s : State) (base off n : Nat) : Bool :=
  if off + n ≤ 65536 then (s.mem.firstBad s.freeCtr (base + off) n).isSome
  else (s.mem.firstBad s.freeCtr (base + off) (65536 - off)).isSome
    || (s.mem.firstBad s.freeCtr base (off + n - 65536)).isSome

def State.ringNote (s : State) (base off n : Nat) : State :=
  if off + n ≤ 65536 then s.noteRead 8 (base + off) n
  else (s.noteRead 8 (base + off) (65536 - off)).noteRead 8 base (off + n - 65536)

def State.ringWrite (s : State) (base off : Nat) (b : Bytes) : State :=
  if off + b.length ≤ 65536 then s.deviceWrite (base + off) b
  else (s.deviceWrite (base + off) (b.take (65536 - off))).deviceWrite base (b.drop (65536 - off))

/-- The length of a ring entry with a message of `n` bytes. -/
def entryLen (n : Nat) : Nat := 4 + ceilDiv n 4 * 4

/-- A complete received message is written to the receive ring, or is lost to a full one. -/
def State.gccDeliver (s : State) (p : Path) (g : Nat) (msg : Bytes) : State :=
  let base := gccBase p g + 0x10000
  let wr := (s.chan p g).rxWr
  let rd := fieldOf (s.regI (pathReg p Reg.PA_LFR_GCC_RX) g) 15 0
  let n := entryLen msg.length
  let free := (rd + 65536 - wr - 4) % 65536
  let s := s.updChan p g fun c => { c with rxMsg := none }
  if n ≤ free then
    let b := beBytes 2 msg.length ++ [0, 0] ++ padTo (n - 4) msg
    (s.ringWrite base wr b).updChan p g fun c => { c with rxWr := (wr + n) % 65536 }
  else (s.updChan p g fun c => { c with overflow := satTo 8 (c.overflow + 1) }).gccEvent p 1

/-- One received chunk of an enabled channel. -/
def State.gccChunk (s : State) (p : Path) (g : Nat) (chunk : Bytes) (frameOk : Bool) : State :=
  let h := beAt chunk 0 1
  let n := beAt chunk 1 1
  let data := h.testBit 7
  let ok := frameOk && crcOk chunk 0 126 && !(data && (n == 0 || decide (124 < n)))
  let busy := (s.chan p g).rxMsg.isSome
  if !ok then (if busy then s.gccDiscard p g else s)
  else if !data then s
  else
    let first := h.testBit 6
    let s := if first && busy then s.gccDiscard p g else s
    let old := if first then some [] else (s.chan p g).rxMsg
    match old with
    | none => s
    | some m =>
      let m := m ++ bytesAt chunk 2 n
      if 16384 < m.length then (s.updChan p g fun c => { c with rxMsg := some [] }).gccDiscard p g
      else if h.testBit 5 then s.gccDeliver p g m
      else s.updChan p g fun c => { c with rxMsg := some m }

/-- Whether channel `g` is enabled. -/
def State.gccEn (s : State) (p : Path) (g : Nat) : Bool := s.pflag p Reg.PA_LFR_GCC_CTRL g

/-- The general channels of a received frame. -/
def State.gccRx (s : State) (p : Path) (ov : Bytes) (frameOk : Bool) : State :=
  (List.range 8).foldl (fun s g => if s.gccEn p g then s.gccChunk p g (bytesAt ov (1280 + 128 * g) 128) frameOk else s) s

/-- A channel without a message in progress takes the next entry of its transmit ring. -/
def State.gccTake (s : State) (p : Path) (g : Nat) : State :=
  let c := s.chan p g
  let wr := fieldOf (s.regI (pathReg p Reg.PA_LFR_GCC_TX) g) 15 0
  if c.txMsg.isSome || c.txErr || c.txRd == wr then s
  else
    let base := gccBase p g
    let head := s.ringRead base c.txRd 4
    let n := beAt head 0 2
    let bad := s.ringBad base c.txRd 4
    let s := s.ringNote base c.txRd 4
    if !bad && (n == 0 || decide (16384 < n)) then
      (s.updChan p g fun c => { c with txErr := true }).gccEvent p 2
    else
      let next := (c.txRd + entryLen n) % 65536
      let bad := bad || s.ringBad base ((c.txRd + 4) % 65536) n
      let s := s.ringNote base ((c.txRd + 4) % 65536) n
      if bad then
        (s.updChan p g fun c => { c with txRd := next, discard := wrapTo 16 (c.discard + 1) }).gccEvent p 0
      else s.updChan p g fun c => { c with txMsg := some (s.ringRead base ((c.txRd + 4) % 65536) n, true, next) }

/-- A chunk with its CRC. -/
def gccBytes (flags n : Nat) (data : Bytes) : Bytes :=
  let b := beBytes 1 flags ++ beBytes 1 n ++ padTo 124 data
  b ++ beBytes 2 (crc16 b)

/-- The chunk that channel `g` sends in this frame. -/
def State.gccTx (s : State) (p : Path) (g : Nat) : State × Bytes :=
  if !s.gccEn p g then (s, gccBytes 0 0 [])
  else
    let s := s.gccTake p g
    match (s.chan p g).txMsg with
    | none => (s, gccBytes 0 0 [])
    | some (b, first, next) =>
      let last := decide (b.length ≤ 124)
      let chunk := gccBytes (128 + 64 * b2n first + 32 * b2n last) (min 124 b.length) (b.take 124)
      let s := s.updChan p g fun c =>
        if last then { c with txMsg := none, txRd := next } else { c with txMsg := some (b.drop 124, false, next) }
      (s, chunk)

/-- A channel whose enable changes starts with its four pointers at 0 (R215). -/
def State.gccReset (s : State) (p : Path) (g : Nat) : State :=
  let s := s.updChan p g fun c => { c with txRd := 0, rxWr := 0, txErr := false, txMsg := none, rxMsg := none }
  (s.setFldI (pathReg p Reg.PA_LFR_GCC_TX) g 15 0 0).setFldI (pathReg p Reg.PA_LFR_GCC_RX) g 15 0 0

end Sys2Proof.Machine
end

