-- ==== Sys2Proof/Machine/Sram.lean ====
section
/-!
DEFINITION. The on-die SRAMs (16_memory.md): their words in error, narrow writes, fills, and the entries of the tables that
they hold.
-/
namespace Sys2Proof.Machine

/-! ### SRAM words (R401, R403) -/

/-- SRAMs: 0 packet buffer, 1 signature array, 2 flow cache, 3 table memory (the numbers are the model's, log 40). -/
def sramKey (kind addr : Nat) : Nat := kind * 0x10000000000 + addr

def State.sramErr (s : State) (kind addr : Nat) : Nat := sparseGet (fun _ => 0) s.mem.sramUpset (sramKey kind addr)

def State.setSramErr (s : State) (kind addr n : Nat) : State :=
  { s with mem := { s.mem with sramUpset := sparseSet (fun _ => 0) (sramKey kind addr) n s.mem.sramUpset } }

/-- Counts an SRAM read with `n` bits in error, and event 225 when it is uncorrectable. -/
def State.noteSram (s : State) (kind addr n : Nat) : State :=
  if n = 0 then s
  else if n = 1 then { s with mem := { s.mem with sramCorr := wrapTo 16 (s.mem.sramCorr + 1) } }
  else ({ s with mem := { s.mem with sramUncorr := satTo 8 (s.mem.sramUncorr + 1) } }).raiseOnce 225 0 0 kind addr

/-- A write narrower than an SRAM word is merged in the SRAM's own port: a word that reads uncorrectable keeps failing
check bits, any other gets fresh ones (R406, log 113). -/
def State.narrowWrite (s : State) (kind addr : Nat) : State :=
  let n := s.sramErr kind addr
  if n = 0 then s
  else
    let s := s.noteSram kind addr n
    if n = 1 then s.setSramErr kind addr 0 else s

/-- A write of the 4-byte halves `ws`, made at once: a word that gets both is written whole and is then without error. -/
def State.sramWrite (s : State) (kind : Nat) (ws : List Nat) : State :=
  (ws.map (· / 2)).eraseDups.foldl (fun s a =>
    if ws.contains (2 * a) && ws.contains (2 * a + 1) then s.setSramErr kind a 0 else s.narrowWrite kind a) s

/-- Whether the written map has the bit of a word of the packet buffer SRAM set (R402). -/
def MemState.sramWritten (m : MemState) (a : Nat) : Bool := m.sramMap.any fun r => decide (r.1 ≤ a ∧ a < r.1 + r.2)

/-- `n` words of the packet buffer SRAM from word `a` on are written: their bits of the written map are set, and they are
without error (R402). -/
def State.sramPut (s : State) (a n : Nat) : State :=
  let inside (k : Nat) : Bool := decide (a ≤ k ∧ k < a + n)
  let known := s.mem.sramMap.any fun r => decide (r.1 ≤ a ∧ a + n ≤ r.1 + r.2)
  { s with mem := { s.mem with
    sramMap := if known then s.mem.sramMap else (a, n) :: s.mem.sramMap
    sramUpset := sparseDrop inside s.mem.sramUpset } }

/-- A fill of the packet buffer SRAM with a pattern (R41). -/
def State.sramFill (s : State) (a n : Nat) (pattern : Bytes) : State :=
  let s := s.sramPut a n
  { s with mem := { s.mem with sram := (a, n, pattern) :: s.mem.sram } }

/-! ### Tables (R343, R353) -/

/-- The key of word `w` of table `t`. -/
def tblKey (t w : Nat) : Nat := t * 0x1000000 + w

def State.tblWord (s : State) (t w : Nat) : Word := sparseGet (fun _ => 0) s.tables (tblKey t w)

/-- An entry of a table is readable: none of its words is uncorrectable (R403). -/
def State.entryOk (s : State) (t base n : Nat) : Bool :=
  (List.range n).all fun i => decide (s.sramErr 3 (tblKey t (base + i) / 2) < 2)

/-- A table's entry is read: its words in error are counted, with their event (R403). -/
def State.noteEntry (s : State) (t base n : Nat) : State :=
  let lo := sramKey 3 (tblKey t base / 2)
  let hi := sramKey 3 (tblKey t (base + n - 1) / 2)
  (s.mem.sramUpset.filter fun e => decide (lo ≤ e.1 ∧ e.1 ≤ hi)).foldl (fun s e => s.noteSram 3 (e.1 - sramKey 3 0) e.2) s

/-- Entry size and number of entries of a table, where the identifier is known and its unit instantiated. -/
def State.tableShape (s : State) (t : Nat) : Option (Nat × Nat) :=
  let g := s.rte.cfg
  let when_ (c : Bool) (x : Nat × Nat) : Option (Nat × Nat) := if c then some x else none
  match t with
  | 0x0A00 => when_ (s.inst 0) (4, g.slots .a)
  | 0x0A01 => when_ (s.inst 1) (4, g.slots .b)
  | 0x0D00 => when_ (s.inst 2) (112, 16384)
  | 0x0D01 => when_ (s.inst 2) (64, 16384)
  | 0x0D02 => when_ (s.inst 2) (4, 512)
  | 0x0D03 => when_ (s.inst 2) (48, 1048576)
  | 0x0D04 => when_ (s.inst 2) (8, 32)
  | 0x0E00 => when_ (s.inst 3) (16, 65536)
  | 0x0E01 => when_ (s.inst 3) (16, 8192)
  | 0x0E02 => when_ (s.inst 3 && s.inst 0) (4, 16384)
  | 0x0E03 => when_ (s.inst 3 && s.inst 1) (4, 16384)
  | 0x1100 => some (144, 1)
  | 0x1200 => some (4, 8192)
  | _ => none

/-! ### The walker (R401) -/

/-- Whether a word of an SRAM has been written since it last had no content: the written map covers the packet buffer
and the signature array, a line of the flow cache is written while it holds a context, and the words of a table from the
time that its unit is instantiated (R401, R402). -/
def State.sramHolds (s : State) (kind addr : Nat) : Bool :=
  match kind with
  | 0 => s.mem.sramWritten addr
  | 1 => s.mem.sramWritten (0x580000 + addr)
  | 2 => s.pkt.cache.any fun e => e.2.any fun l => 4 * (131072 * l.t + l.b) + l.w == addr
  | _ => (s.tableShape (2 * addr / 0x1000000)).isSome

/-- The words of the tables of a unit that is instantiated hold zeros with valid check bits (R402). -/
def State.tablesFresh (s : State) : State :=
  { s with
    tables := [], tblShadow := []
    mem := { s.mem with sramUpset := sparseDrop (fun k => decide (sramKey 3 0 ≤ k)) s.mem.sramUpset } }

end Sys2Proof.Machine
end

