-- ==== Sys2Proof/Machine/Egress.lean ====
section
/-!
DEFINITION. Who the client of a container is (R17), and the buffers towards the client: a port's egress buffer (R369),
the host-bound buffer (R342) and the egress slip buffer of a Fleam lane (R243).
-/
namespace Sys2Proof.Machine

/-- The client of a container. -/
inductive Client where
  | none
  | ether (port : Nat)
  | carriage (port : Nat)
  | packet
  | fleam (lane : Nat)
  | pass (p : Path) (c : Nat)
  deriving DecidableEq, Repr

/-- Whether an endpoint is container `c` of a path. -/
def Endpoint.isCont (e : Endpoint) (p : Path) (c : Nat) : Bool := e.typ == 3 && e.path == pathNum p && e.num == c

/-- The connection of a container. -/
def ImageCfg.connOf (g : ImageCfg) (p : Path) (c : Nat) : Option Connection :=
  g.conns.find? fun x => x.ends.any fun e => e.isCont p c

/-- The client of a container (R17, connection kinds of R39). -/
def ImageCfg.client (g : ImageCfg) (p : Path) (c : Nat) : Client :=
  match g.connOf p c with
  | .none => .none
  | .some x =>
    if x.kind = 3 then .packet
    else match x.ends.find? (fun e => !e.isCont p c) with
      | .none => .none
      | .some e =>
        match x.kind with
        | 1 => .ether e.num
        | 2 => .carriage e.num
        | 4 => .fleam e.num
        | 5 => .pass (pathOf e.path) e.num
        | _ => .none

def State.client (s : State) (p : Path) (c : Nat) : Client := s.rte.cfg.client p c

/-- The container of a port or lane: endpoint type and number. -/
def ImageCfg.contOf (g : ImageCfg) (typ num : Nat) : Option (Path × Nat) :=
  match g.conns.find? (fun x => x.ends.any fun e => e.typ == typ && e.num == num) with
  | .none => .none
  | .some x => match x.ends.find? (fun e => e.typ == 3) with
    | .some e => .some (pathOf e.path, e.num)
    | .none => .none

/-- The record of a host port. -/
def ImageCfg.port (g : ImageCfg) (f : Nat) : Option HostPort := g.ports.find? fun r => r.num == f

/-- Whether a host port is in a terminated packet connection. -/
def ImageCfg.packetPort (g : ImageCfg) (f : Nat) : Bool :=
  g.conns.any fun x => x.kind == 3 && x.ends.any fun e => e.typ == 0 && e.num == f

/-! ### The egress buffer of a port (R236, R369, R375) -/

/-- Capacity of a port's egress buffer, and the fill at which it is centred (log 28). -/
def HostPort.egressCap (r : HostPort) : Nat := if r.coding = 1 then 8192 * r.width else 32768

def HostPort.egressMid (r : HostPort) : Nat := if r.coding = 1 then 2048 * r.width else 16384

/-- A fault of a port's egress buffer: it is recentred, with event 198 for its container. What the buffer holds after
it is not stated: free bytes (log 28). -/
def State.egressFault (s : State) (f : Nat) (r : HostPort) : State :=
  let s := s.updPort f fun x => { x with egress := (List.range r.egressMid).map fun i => Config.freeByte s.freeCtr i }
  match s.rte.cfg.contOf 0 f with
  | some (p, c) => s.raiseItem 198 1 (contKey p c) 0 0
  | none => s

/-- Container AIS towards a port: carriage idle with its AIS indication, or the local fault sequence (R247, R375). -/
def State.egressAis (s : State) (f : Nat) : State :=
  s.updPort f fun x => { x with egress := [], arrive := [], txPart := [], txBits := [], egressRun := false, egressAis := true }

/-- The client rate of an Ethernet port in 100 Gb/s, its bytes per frame (R235), and the parity symbols of its code
(R370). -/
def HostPort.etherRate (r : HostPort) : Nat := r.width * 2 ^ r.rate / 4
def HostPort.etherBytes (r : HostPort) : Nat := 12850 * r.etherRate
def HostPort.parity (r : HostPort) : Nat := if r.modul = 1 then 14 else 30

/-- Bytes that leave the egress buffer of a transparent Ethernet port: their blocks are sent in code words with alignment
markers and parity regenerated (R236, R370). -/
def State.etherSend (s : State) (f : Nat) (r : HostPort) (b : Bytes) : State :=
  let x := s.port f
  let bits := x.txPart ++ wireBits b
  let n := bits.length / 257
  let out := (bitPieces 257 n bits).foldl (sendBlock r.etherRate) (x.txBits, x.txBlocks)
  let s := s.updPort f fun x =>
    { x with txPart := bits.drop (257 * n), txBits := out.1.drop (5140 * (out.1.length / 5140)), txBlocks := out.2 }
  (sendWords r.parity out.1).foldl (fun s w => s.emit (.client f w)) s

/-- What the transmitter of a transparent Ethernet port takes while its container delivers a frame: its synthesiser
stays within 200 ppm and holds the buffer at half fill, from which it starts (R369). -/
def State.etherTake (s : State) (f : Nat) (r : HostPort) : State :=
  let x := s.port f
  let want := x.egress.length - r.egressMid
  if !x.egressRun && decide (x.egress.length < r.egressMid) then s
  else
    let nominal := r.etherBytes
    let d := nominal / 5000
    let n := if x.egressRun then max (nominal - d) (min (nominal + d) want) else min (nominal + d) want
    let ppm : Int := if x.egressRun then ((n : Int) - nominal) * 100000000 / (max 1 nominal : Nat) else x.ppm
    if x.egress.length < n ∨ r.egressCap < x.egress.length - n then (s.updPort f fun x => { x with egressRun := true }).egressFault f r
    else (s.updPort f fun x => { x with egress := x.egress.drop n, ppm := ppm, egressRun := true }).etherSend f r (x.egress.take n)

/-- The bytes of a line frame that a container delivers to a port. They come and go evenly over the frame period: a
carriage port's enter its buffer frame set by frame set, and the last have entered when the next line frame follows (log
142). -/
def State.egressPush (s : State) (f : Nat) (b : Bytes) : State :=
  match s.rte.cfg.port f with
  | none => s
  | some r =>
    if r.coding = 1 then
      let s := s.updPort f fun x => { x with egress := x.egress ++ x.arrive, arrive := b, egressAis := false }
      if r.egressCap < (s.port f).egress.length then s.egressFault f r else s
    else (s.updPort f fun x => { x with egress := x.egress ++ b, egressAis := false, quiet := 0 }).etherTake f r

/-- One frame period of a transparent Ethernet port: under container AIS it sends the local fault sequence (R247), and with
nothing delivered in three frame periods its buffer has run empty (R369, log 142). -/
def State.etherEgress (s : State) (f : Nat) (r : HostPort) : State :=
  let x := s.port f
  if x.egressAis then s.emit (.localFault f)
  else if !x.egressRun then s
  else if x.quiet < 2 then s.updPort f fun x => { x with quiet := x.quiet + 1 }
  else (s.updPort f fun x => { x with quiet := 0 }).egressFault f r

/-! ### Host-bound steering (R342) -/

def State.hbLost (s : State) : State := ({ s with hbDrop := wrapTo 32 (s.hbDrop + 1) }).raiseOnce 240 0 0 0 0

/-- A packet of class `cls` that a container delivers goes to the host port of the host-bound map, or is dropped. -/
def State.hostBound (s : State) (p : Path) (c cls : Nat) (frame : Bytes) : State :=
  let e := if s.entryOk 0x0D02 (contKey p c) 1 then s.tblWord 0x0D02 (contKey p c) else 0
  let s := s.noteEntry 0x0D02 (contKey p c) 1
  let f := fieldOf e 4 0
  let here := match s.rte.cfg.connOf p c with
    | some x => x.kind == 3 && x.ends.any fun e => e.typ == 0 && e.num == f
    | none => false
  if !flagOf e 15 || !here || decide (262144 < (s.port f).boundBytes + frame.length) then s.hbLost
  else s.updPort f fun x => { x with boundQ := x.boundQ ++ [(cls, frame)], boundBytes := x.boundBytes + frame.length }

/-! ### Slip buffers (R242, R243) -/

def State.fleam (s : State) (l : Nat) : Fleam := sparseGet (fun _ => freshFleam) s.cnt.lanes l

def State.updFleam (s : State) (l : Nat) (g : Fleam → Fleam) : State :=
  { s with cnt := { s.cnt with lanes := sparseSet (fun _ => freshFleam) l (g (s.fleam l)) s.cnt.lanes } }

/-- Rate multiple of a legacy lane: 20 on a ring lane without a record (R389). -/
def State.laneRate (s : State) (l : Nat) : Nat :=
  match s.rte.cfg.lanes.find? (fun r => r.1 == l) with | some r => r.2 | none => 20

/-- A slip: event 196, at most once per lane and second. -/
def State.slipEvent (s : State) (l : Nat) (egress : Bool) : State := s.raiseItem 196 (b2n egress) l 0 0

/-- A tributary frame enters the egress slip buffer; a fourth one drops the oldest (R243). -/
def State.fleamOut (s : State) (l : Nat) (b : Bytes) : State :=
  let x := s.fleam l
  let w := x.outWait ++ [b]
  if w.length ≤ 3 then s.updFleam l fun x => { x with outWait := w, outPrimed := x.outPrimed || decide (2 ≤ w.length) }
  else (s.updFleam l fun x => { x with outWait := w.drop 1, outDrop := wrapTo 8 (x.outDrop + 1) }).slipEvent l true

/-- A Fleam AIS frame: a frame start, which byte 0 holds as 0xBC, and bytes of 0xFF (R243). -/
def fleamAis (n : Nat) : Bytes := 0xBC :: List.replicate (128 * n - 1) 0xFF

/-- A complete tributary frame of a lane that is locked enters the ingress slip buffer, or is discarded as bad
(R242). -/
def State.fleamIn (s : State) (l : Nat) (frame : Bytes) (bad : Bool) : State :=
  if bad || frame.length != 128 * s.laneRate l then
    (s.updFleam l fun x => { x with bad := wrapTo 16 (x.bad + 1) }).raise 199 0 l 0 0
  else
    let x := s.fleam l
    let w := x.inWait ++ [frame]
    if w.length ≤ 3 then s.updFleam l fun x => { x with inWait := w, inPrimed := x.inPrimed || decide (2 ≤ w.length) }
    else (s.updFleam l fun x => { x with inWait := w.drop 1, inDrop := wrapTo 8 (x.inDrop + 1) }).slipEvent l false

/-- The mapper's read of the ingress slip buffer, 8 frames apart (R242). -/
def State.fleamRead (s : State) (l : Nat) : State :=
  let x := s.fleam l
  if !x.inPrimed then s
  else match x.inWait, x.inCur with
    | b :: rest, _ => s.updFleam l fun x => { x with inWait := rest, inCur := some b }
    | [], some _ => (s.updFleam l fun x => { x with inRepeat := wrapTo 8 (x.inRepeat + 1) }).slipEvent l false
    | [], none => s

/-- Sends code groups on a legacy lane, at the running disparity that the groups before left (R377); `TX_INV` inverts
them. -/
def State.sendGroups (s : State) (l : Nat) (gs : List Group) : State :=
  let (codes, rd) := codeGroups (s.lane l).rd gs
  let codes := if flagOf (s.regI Reg.HSL_LANE_CTRL l) 1 then codes.map (1023 - ·) else codes
  (s.updLane l fun x => { x with rd := rd }).emit (.lane l gs codes)

/-- The lane transmitter's read of the egress slip buffer (R243): the frame it sends. -/
def State.fleamSend (s : State) (l : Nat) : State :=
  let x := s.fleam l
  if !x.outPrimed then s
  else match x.outWait, x.outLast with
    | b :: rest, _ => (s.updFleam l fun x => { x with outWait := rest, outLast := some b }).sendGroups l (fleamGroups b)
    | [], some b =>
      ((s.updFleam l fun x => { x with outRepeat := wrapTo 8 (x.outRepeat + 1) }).slipEvent l true).sendGroups l (fleamGroups b)
    | [], none => s

/-- `FLEAM_EGRESS_READ`: the lane transmitter reads a tributary frame (R243). -/
def execFleamEgressRead (lane : BitVec 4) : State → Host.Outcome State Fault Refusal :=
  complete fun s => if (s.lane lane.toNat).state = 4 then s.fleamSend lane.toNat else s

end Sys2Proof.Machine
end

