-- ==== Sys2Proof/Machine/Containers.lean ====
section
/-!
DEFINITION. Containers (10_containers.md) and the enciphering of their bytes (11_line_encryption.md, R253 to R264): slot
tables, the transmit mapper, the demapper, container defects, packet delineation, segments and keys.
-/
namespace Sys2Proof.Machine

/-! ### Reaching containers, slot tables and keys -/

def State.pcnt (s : State) (p : Path) : PathCnt := (s.path p).cnt

def State.updPcnt (s : State) (p : Path) (f : PathCnt → PathCnt) : State := s.updPath p fun x => { x with cnt := f x.cnt }

def State.cry (s : State) (p : Path) : CryState := (s.path p).cry

def State.updCry (s : State) (p : Path) (f : CryState → CryState) : State := s.updPath p fun x => { x with cry := f x.cry }

/-- The slots of a table that hold container `c` of path `q` (R222). -/
def slotsIn (table : List Nat) (q : Path) (c : Nat) : List Nat :=
  (List.range table.length).filter fun i => table.getD i 0 == 0x8000 + contKey q c

/-- The slots of a container in its order: own path first, then the other (R224). -/
def contSlots (own other : List Nat) (p : Path) (c : Nat) : List (Path × Nat) :=
  (slotsIn own p c).map (fun i => (p, i)) ++ (slotsIn other p c).map (fun i => (otherPath p, i))

def State.txSlots (s : State) (p : Path) (c : Nat) : List (Path × Nat) :=
  contSlots (s.pcnt p).tx (s.pcnt (otherPath p)).tx p c

def State.rxSlots (s : State) (p : Path) (c : Nat) : List (Path × Nat) :=
  contSlots (s.pcnt p).rx (s.pcnt (otherPath p)).rx p c

/-- Whether a container holds slots of both paths, or of the other path only. -/
def State.bonded (s : State) (p : Path) (c : Nat) : Bool :=
  s.rte.cfg.conts.any fun r => r.path == p && r.num == c && r.other != 0

/-- The key slot that a direction uses, and the next slot while no direction uses it (R253, R255). -/
def CryState.txKeys (c : CryState) : KeySet := if c.txOne then c.s1 else c.s0

def CryState.rxKeys (c : CryState) : KeySet := if c.rxOne then c.s1 else c.s0

def CryState.nextKeys (c : CryState) : Option KeySet :=
  if c.txOne != c.rxOne then none else some (if c.txOne then c.s0 else c.s1)

def CryState.setNext (c : CryState) (k : KeySet) : CryState := if c.txOne then { c with s0 := k } else { c with s1 := k }

def KeySet.empty (k : KeySet) : Bool := k.tx.all (·.isNone) && k.rx.all (·.isNone)

def State.txKey (s : State) (p : Path) (c : Nat) : Option Bytes := (s.cry p).txKeys.tx.getD c none

def State.rxKey (s : State) (p : Path) (c : Nat) : Option Bytes := (s.cry p).rxKeys.rx.getD c none

/-! ### The container in a frame (R224 to R228) -/

def sMin (c : Nat) : Nat := ceilDiv c 8 + 1

def sMax (c : Nat) : Nat := min (80 * c) 8191

/-- The payload type and parameter of a container's trace word (R228, R244). -/
def State.payload (s : State) (p : Path) (c : Nat) : Nat × Nat :=
  match s.client p c with
  | .ether f => match s.rte.cfg.port f with
    | some r => (1, Nat.log2 (r.width * 2 ^ r.rate / 4))
    | none => (1, 0)
  | .carriage _ => (2, 0)
  | .packet => (3, 0)
  | .fleam l => (4, s.laneRate l)
  | .pass q d => ((s.cont q d).rxType, (s.cont q d).rxParam)
  | .none => (0, 0)

/-- The 64 bytes of a container's windowed trace register. -/
def State.contTrace (s : State) (p : Path) (c off : Nat) : Bytes :=
  (List.range 16).flatMap fun w => beBytes 4 (s.regI off (contKey p c * 16 + w)).toNat

/-- The container trace word of superframe index `x` (R228). -/
def State.traceWord (s : State) (p : Path) (c x : Nat) : Bytes :=
  let t := s.payload p c
  let b := bytesAt (s.contTrace p c Reg.CNT_C_TRACE_TX) (4 * x) 4 ++ beBytes 1 t.1 ++ beBytes 1 t.2
  b ++ beBytes 2 (crc16 b)

/-- An idle unit (R238). -/
def idleUnit : Bytes := let b := List.replicate 6 (0 : Byte); b ++ beBytes 2 (crc16 b)

/-- A packet unit: header, payload, zero padding to whole words (R238). -/
def packetUnit (cls : Nat) (payload : Bytes) : Bytes :=
  let h := beBytes 2 (0x4000 + payload.length) ++ beBytes 1 (cls % 16) ++ [0, 0, 0]
  h ++ beBytes 2 (crc16 h) ++ padTo (ceilDiv payload.length 8 * 8) payload

/-- Words per frame that carry the stream of a terminated packet container (R240). -/
def packetWords (c : Nat) : Nat := 80 * c - sMin c

/-- Whether the client of a container qualifies (R246). -/
def State.qualifies (s : State) (p : Path) (c : Nat) : Bool :=
  match s.client p c with
  | .ether f => (s.port f).state == 5 && (s.port f).aligned
  | .carriage f => (s.port f).state == 5
  | .packet => true
  | .fleam l => (s.lane l).state == 4 && (s.fleam l).inCur.isSome
  | .pass q d => !(s.cont q d).ais
  | .none => false

/-- What a container sends in a frame: the state, S and the container bytes before enciphering. -/
structure Mapped where
  state : Nat
  stuff : Nat
  data  : Bytes
  deriving DecidableEq, Repr

/-- A frame in state 0b001 (R225). -/
def aisFrame (n : Nat) : Mapped := ⟨1, 0, List.replicate (640 * n) 0x55⟩

/-- A frame in state 0b000 with `data` bytes of client data. -/
def State.normalFrame (s : State) (p : Path) (c n : Nat) (data : Bytes) : Mapped :=
  let d := padTo (data.length / 8 * 8) data
  ⟨0, 80 * n - d.length / 8, padTo (640 * n) (d ++ s.traceWord p c (s.txFc % 16))⟩

/-- An overflow of the client buffer of a container of `n` slots, which holds the words of two frames and more: the
newest words are lost, with event 198 (R252; DESIGN CHOICE, log 141). -/
def State.clientOverflow (s : State) (p : Path) (c n : Nat) : State :=
  let room := 8 * (160 * n + Config.mapBuffer)
  let len := (s.cont p c).buf.length
  if len ≤ 1280 * n then s
  else if len ≤ room then s
  else (s.updCont p c fun x => { x with buf := x.buf.take room }).raiseItem 198 2 (contKey p c) 0 0

/-- The mapper of a container of `n` slots whose transmit direction is not blocked (R226, R240, R241, R246). -/
def State.mapClient (s : State) (p : Path) (c n : Nat) : State × Mapped :=
  let q := s.qualifies p c && !flagOf (s.regI Reg.CNT_C_CTRL (contKey p c)) 7
  let was := (s.cont p c).qual
  let s := s.updCont p c fun x => { x with qual := q, buf := if q && was then x.buf else if s.client p c = .packet then x.buf else [] }
  if !q then (s, aisFrame n)
  else match s.client p c with
    | .fleam l =>
      let k := 16 * s.laneRate l
      let b := ((s.fleam l).inCur.getD []).drop (s.txFc % 8 * k)
      (s, s.normalFrame p c n (padTo k b))
    | .packet =>
      let k := 8 * packetWords n
      let buf := (s.cont p c).buf
      let idle := (List.range (ceilDiv (k - buf.length) 8)).flatMap fun _ => idleUnit
      let b := (buf ++ idle).take k
      (s.updCont p c fun x => { x with buf := x.buf.drop k }, s.normalFrame p c n b)
    | _ =>
      let s := s.clientOverflow p c n
      let w := (s.cont p c).buf.length / 8
      let lo := 80 * n - sMax n
      if w < lo then (s.raiseItem 198 0 (contKey p c) 0 0, aisFrame n)
      else
        let d := max lo (min (80 * n - sMin n) (w - s.fld Reg.CNT_CTRL 15 8))
        let b := (s.cont p c).buf.take (8 * d)
        (s.updCont p c fun x => { x with buf := x.buf.drop (8 * d) }, s.normalFrame p c n b)

/-! ### Segments (R257, R258) -/

/-- The IV of a segment: salt, counter of its first frame, index. -/
def Seg.iv (g : Seg) : Bytes := (g.key.drop 32).take 4 ++ beBytes 6 g.fc ++ beBytes 2 g.idx

/-- The additional data of a segment of container `c`. -/
def Seg.aad (g : Seg) (c : Nat) : Bytes := beBytes 1 c ++ beBytes 1 g.idx ++ beBytes 2 g.epoch ++ g.jws

def Seg.tag (g : Seg) (c : Nat) : Bytes := gcmTag (g.key.take 32) g.iv (g.aad c) g.data

/-- The segment that a frame continues, or a new one: the earlier segments and the one in use. -/
def takeSeg (segs : List Seg) (key : Bytes) (epoch fc : Nat) : List Seg × Seg :=
  match segs.reverse with
  | g :: rest =>
    if g.live && g.key == key then (rest.reverse, g)
    else (segs.map fun g => { g with live := false }, ⟨key, fc, segs.length, epoch, [], [], true, true⟩)
  | [] => ([], ⟨key, fc, 0, epoch, [], [], true, true⟩)

/-- The bytes of a tag position: one full tag, two halves, or none (R258). -/
def tagField (tags : List Bytes) : Option Bytes :=
  match tags with
  | [] => none
  | [t] => some (padTo 16 t)
  | t :: u :: _ => some (t.take 8 ++ u.take 8)

/-- `n` bytes of fill with segment value `v` in the frame with counter `fc` (R259). -/
def State.fillBytes (s : State) (p : Path) (fc v n : Nat) : Bytes :=
  let k := (s.cry p).fill
  (List.range n).map fun i => Config.aesCtr (k.take 32) ((k.drop 32).take 4 ++ beBytes 6 fc ++ beBytes 2 v) i

/-- The fill of a slot: enciphered fill on an encrypted path, zeros otherwise (R229, R259). -/
def State.slotFill (s : State) (p : Path) (i : Nat) : Bytes :=
  if s.encrypted p then s.fillBytes p s.txFc (0x8000 + i) 640 else List.replicate 640 0

/-- A justification word (R225). -/
def jwOf (state stuff : Nat) : Nat := state * 8192 + stuff

/-- Enciphers a container's bytes of a frame under its transmit key. -/
def State.encipher (s : State) (p : Path) (c : Nat) (key : Bytes) (m : Mapped) : State × Bytes :=
  let (old, g) := takeSeg (s.cont p c).txSegs key (s.cry p).txKeys.txEpoch.toNat s.txFc
  let e := ctrXor (key.take 32) g.iv g.data.length m.data
  let g := { g with jws := g.jws ++ beBytes 2 (jwOf m.state m.stuff), data := g.data ++ e }
  (s.updCont p c fun x => { x with txSegs := old ++ [g] }, e)

/-- One container at a transmit frame boundary: its justification word, and its bytes, or none where its slots carry
fill (R226, R257, R260). A container without slots sends the unassigned word, blocked or not (R225, log 112). -/
def State.mapCont (s : State) (p : Path) (c : Nat) : State × Nat × Option Bytes :=
  let n := (s.txSlots p c).length
  let key := s.txKey p c
  let blocked := s.encrypted p && key.isNone
  let was := (s.cont p c).blocked
  let s := s.updCont p c fun x => { x with blocked := blocked }
  let s := if blocked == was then s else s.raiseItem 205 (b2n blocked) (contKey p c) (if blocked then 0 else cleared 0) 0
  if n = 0 then
    (s.updCont p c fun x =>
      { x with txAis := false, qual := false, txSegs := x.txSegs.map fun g => { g with live := false } }, 0x6000, none)
  else
    if blocked then
      (s.updCont p c fun x =>
        { x with txAis := false, qual := false, txSegs := x.txSegs.map fun g => { g with live := false } },
        jwOf 2 0, none)
    else
      let (s, m) := s.mapClient p c n
      let s := s.updCont p c fun x => { x with txAis := m.state == 1 }
      match key, s.encrypted p with
      | some k, true =>
        let (s, e) := s.encipher p c k m
        (s, jwOf m.state m.stuff, some e)
      | _, _ => (s, jwOf m.state m.stuff, some m.data)

/-- At the start of a transmit superframe the tags of the previous one are computed (R258). -/
def State.contSuperframe (s : State) (p : Path) (c : Nat) : State :=
  s.updCont p c fun x => { x with txTags := x.txSegs.map fun g => g.tag c, txSegs := [] }

/-- The transmitted part of a path's frame that containers give: the 256 justification words, and the slots. -/
structure TxPart where
  jw    : List (Nat × Nat)
  slots : List (Nat × Bytes)
  deriving DecidableEq, Repr

/-- Maps all containers of both paths in the frame with counter `txFc` (R224 to R229). -/
def State.mapFrame (s : State) : State × TxPart × TxPart :=
  let lanes := s.rte.cfg.conns.filterMap fun x =>
    if x.kind = 4 then (x.ends.find? fun e => e.typ == 1).map fun e => e.num else none
  let s := if s.txFc % 8 = 0 then
    lanes.foldl (fun s l => if (s.lane l).state = 4 then s.fleamRead l else s) s else s
  let all := (s.contsOf .a).map (fun c => (Path.a, c)) ++ (s.contsOf .b).map (fun c => (Path.b, c))
  let s := if s.txFc % 16 = 0 then all.foldl (fun s x => s.contSuperframe x.1 x.2) s else s
  let fillOf (s : State) (x : Path × Nat) : Bytes := s.slotFill x.1 x.2
  let step (acc : State × TxPart × TxPart) (x : Path × Nat) : State × TxPart × TxPart :=
    let (s, a, b) := acc
    let slots := s.txSlots x.1 x.2
    let (s, jw, bytes) := s.mapCont x.1 x.2
    let put : List (Path × Nat × Bytes) := (List.range slots.length).map fun i =>
      let t := slots.getD i (.a, 0)
      (t.1, t.2, match bytes with | some b => bytesAt b (640 * i) 640 | none => fillOf s t)
    let mine (q : Path) : List (Nat × Bytes) := (put.filter fun t => t.1 == q).map fun t => t.2
    let a := { a with slots := a.slots ++ mine .a }
    let b := { b with slots := b.slots ++ mine .b }
    match x.1 with
    | .a => (s, { a with jw := a.jw ++ [(x.2, jw)] }, b)
    | .b => (s, a, { b with jw := b.jw ++ [(x.2, jw)] })
  all.foldl step (s, ⟨[], []⟩, ⟨[], []⟩)

/-- The slots of a frame in order, the unassigned ones with their fill (R229). -/
def State.frameSlots (s : State) (p : Path) (t : TxPart) : List (Nat × Bytes) :=
  (List.range (s.pcnt p).tx.length).map fun i =>
    (i, match t.slots.find? (fun x => x.1 == i) with | some x => x.2 | none => s.slotFill p i)

/-- The justification words, overhead bytes 128 to 639 (R196, R229). -/
def jwBytes (t : TxPart) : Bytes :=
  (List.range 256).flatMap fun c => beBytes 2 (match t.jw.find? (fun x => x.1 == c) with | some x => x.2 | none => 0x6000)

/-- The authentication tags of a frame, overhead bytes 640 to 895 (R258, R259). -/
def State.tagBytes (s : State) (p : Path) : Bytes :=
  if !s.encrypted p then List.replicate 256 0
  else (List.range 16).flatMap fun i =>
    let c := 16 * (s.txFc % 16) + i
    match tagField (s.cont p c).txTags with
    | some t => t
    | none => s.fillBytes p s.txFc (0xC000 + i) 16

/-- Whether every container of the path that holds slots is sending container AIS, and there is one (R206). -/
def State.allAis (s : State) (p : Path) : Bool :=
  let l := (s.contsOf p).filter fun c => (s.txSlots p c).length != 0
  !l.isEmpty && l.all fun c => (s.cont p c).txAis

def State.paisTx (s : State) (p : Path) : Bool := s.pflag p Reg.PA_LFR_CTRL 0 || s.allAis p

/-! ### Container defects (R207, R248, R249, R262) -/

/-- The reported container defects: the highest raw one, none while the path delivers container AIS. -/
def contReported (raw : BitVec 4) (pathAis : Bool) : BitVec 4 :=
  if pathAis then 0
  else match (List.range 4).find? (fun d => raw.getLsbD d) with
    | some d => BitVec.ofNat 4 (2 ^ d)
    | none => 0

/-- Event sources of the container defects CAIS, CKEY, CAUTH, CTIM. -/
def contDefectSrc (d : Nat) : Nat := match d with | 0 => 192 | 1 => 206 | 2 => 207 | _ => 193

/-- Judges the reported defects of a container, with their events. -/
def State.contJudge (s : State) (p : Path) (c : Nat) : State :=
  let x := s.cont p c
  let new := contReported x.raw (s.pathAis p)
  if new = x.rep then s
  else
    let s := s.updCont p c fun x => { x with rep := new }
    (List.range 4).foldl (fun s d =>
      if new.getLsbD d == x.rep.getLsbD d then s
      else s.raise (contDefectSrc d) (b2n (new.getLsbD d)) (contKey p c) (if new.getLsbD d then 0 else cleared 0) 0) s

def State.contJudgeAll (s : State) (p : Path) : State := (s.contsOf p).foldl (fun s c => s.contJudge p c) s

def State.contRaw (s : State) (p : Path) (c d : Nat) (v : Bool) : State :=
  let bit := BitVec.ofNat 4 (2 ^ d)
  s.updCont p c fun x => { x with raw := if v then x.raw ||| bit else x.raw &&& ~~~bit }

/-- Conditions that hold CAIS whatever is received: a slot table mismatch, and a bonded skew (R81, R248). -/
def State.caisLocal (s : State) (p : Path) (c : Nat) : Bool :=
  (s.mstPath p).mismatch.getLsbD 0 || (s.cnt.skew && s.bonded p c)

/-- Conditions that hold CKEY: no receive key, and a key mismatch (R262, R263). -/
def State.ckeyLocal (s : State) (p : Path) (c : Nat) : Bool :=
  s.encrypted p && ((s.rxKey p c).isNone || (s.mstPath p).mismatch.getLsbD 1)

/-- Follows the conditions that enter a defect at once, for every container of a path. -/
def State.contLocals (s : State) (p : Path) : State :=
  (s.contsOf p).foldl (fun s c =>
    let s := if s.caisLocal p c then (s.contRaw p c 0 true).updCont p c fun x => { x with clrRun := 0 } else s
    let s := if s.ckeyLocal p c then (s.contRaw p c 1 true).updCont p c fun x => { x with keyClr := 0 } else s
    s.contJudge p c) s

/-- The runs of readable justification words that enter and clear CAIS and CKEY. -/
def State.jwRuns (s : State) (p : Path) (c state : Nat) : State :=
  let ais := state == 1 || state == 3
  let clr := (state == 0 || state == 2) && !s.caisLocal p c
  let key := state == 2
  let keyClr := (state == 0 || state == 1) && !s.ckeyLocal p c
  let s := s.updCont p c fun x =>
    { x with aisRun := if ais then x.aisRun + 1 else 0, clrRun := if clr then x.clrRun + 1 else 0,
             keyRun := if key then x.keyRun + 1 else 0, keyClr := if keyClr then x.keyClr + 1 else 0 }
  let x := s.cont p c
  let s := if 3 ≤ x.aisRun then s.contRaw p c 0 true else if 3 ≤ x.clrRun then s.contRaw p c 0 false else s
  if !s.encrypted p then s
  else if 3 ≤ x.keyRun then s.contRaw p c 1 true else if 3 ≤ x.keyClr then s.contRaw p c 1 false else s

/-- Judges CTIM from the accepted trace and the type check (R249). -/
def State.ctimJudge (s : State) (p : Path) (c : Nat) : State :=
  let w := s.regI Reg.CNT_C_CTRL (contKey p c)
  let r := timRange (fieldOf w 2 0)
  let x := s.cont p c
  let trace := match x.accepted with
    | none => false
    | some t => decide (fieldOf w 2 0 ≠ 0)
        && bytesAt t r.1 r.2 != bytesAt (s.contTrace p c Reg.CNT_C_TRACE_RX) r.1 r.2
  s.contRaw p c 3 (trace || (flagOf w 5 && x.typeBad))

/-- The payload type and parameter of a readable trace word, and the type check (R228, R249). -/
def State.contType (s : State) (p : Path) (c : Nat) (w : Bytes) : State :=
  let ty := (beAt w 4 1, beAt w 5 1)
  let pass := match s.client p c with | .pass _ _ => true | _ => false
  let differs := !pass && ty != s.payload p c
  s.updCont p c fun y =>
    let run := if differs == y.typeBad then 0 else y.typeRun + 1
    { y with rxType := ty.1, rxParam := ty.2, typeRun := if 3 ≤ run then 0 else run,
             typeBad := if 3 ≤ run then differs else y.typeBad }

/-- A readable trace word, or an unreadable one, in superframe index `x`: the container trace is assembled (R249). -/
def State.contAssemble (s : State) (p : Path) (c x : Nat) (w : Option Bytes) : State :=
  let s := s.updCont p c fun y =>
    let y := if x = 0 then { y with asm := some [] } else y
    { y with asm := match y.asm, w with
      | some b, some w => if b.length = 4 * x then some (b ++ w.take 4) else none
      | _, _ => none }
  if x ≠ 15 then s
  else match (s.cont p c).asm with
    | none => s.updCont p c fun y => if y.accepted.isNone then { y with asmCount := 0, lastAsm := none } else y
    | some t =>
      let s := s.updCont p c fun y =>
        { y with asmCount := if y.lastAsm = some t then y.asmCount + 1 else 1, lastAsm := some t }
      let y := s.cont p c
      if 3 ≤ y.asmCount ∧ y.accepted ≠ some t then
        (s.updCont p c fun y => { y with accepted := some t }).raise 194 0 (contKey p c) 0 0
      else s

/-- Out of superframe no trace is assembled, and the superframes that give the first accepted one must follow one another
(R209, R249). -/
def ContState.dropSf (y : ContState) : ContState :=
  let y := { y with asm := none }
  if y.accepted.isNone then { y with lastAsm := none, asmCount := 0 } else y

/-- The bonded containers of a path. -/
def State.bondedOf (s : State) (p : Path) : List Nat := (s.contsOf p).filter fun c => s.bonded p c

/-- The superframes of the bonded containers no longer follow one another: frames of them have been lost. -/
def State.bondBreak (s : State) : State :=
  [Path.a, Path.b].foldl (fun s p => (s.bondedOf p).foldl (fun s c => s.updCont p c ContState.dropSf) s) s

/-- Out of superframe, the containers of the path and the bonded ones. -/
def State.contsAlign (s : State) (p : Path) : State :=
  if (s.lfr p).inSf then s
  else ((s.contsOf p).foldl (fun s c => s.updCont p c ContState.dropSf) s).bondBreak

/-! ### Packet delineation (R239) -/

/-- The kind, length and class that a word gives as a unit header, if it passes the tests of R239. -/
def unitHeader (w : Bytes) : Option (Nat × Nat × Nat) :=
  let h := beAt w 0 2
  let kind := h / 16384
  let len := h % 16384
  if crcOk w 0 6 && decide (kind ≤ 1) && beAt w 3 3 == 0 then some (kind, len, beAt w 2 1 % 16)
  else none

/-- Works through the words at hand; `fuel` bounds the number of steps. Packets that lie wholly within sync go to the
host-bound map. -/
def State.delineate (s : State) (p : Path) (c : Nat) : Nat → State
  | 0 => s
  | fuel + 1 =>
    let x := s.cont p c
    match x.stream with
    | [] => s
    | w :: rest =>
      match x.delin, unitHeader w.1 with
      | 0, none => (s.updCont p c fun x => { x with stream := rest }).delineate p c fuel
      | 0, some _ => (s.updCont p c fun x => { x with delin := 1 }).delineate p c fuel
      | 1, none => (s.updCont p c fun x => { x with delin := 0, stream := rest }).delineate p c fuel
      | 1, some (_, len, _) =>
        let next := 1 + ceilDiv len 8
        match x.stream.drop next with
        | [] => s
        | v :: _ =>
          if (unitHeader v.1).isSome then
            let s := s.updCont p c fun x => { x with delin := 2, stream := x.stream.drop next, delinLost := false }
            let s := if x.delinLost then s.raiseItem 197 1 (contKey p c) (cleared 0) 0 else s
            s.delineate p c fuel
          else (s.updCont p c fun x => { x with delin := 0, stream := rest }).delineate p c fuel
      | _, none =>
        ((s.updCont p c fun x =>
          { x with delin := 0, delinLost := true, stream := rest, unitErr := satTo 16 (x.unitErr + 1) }).raiseItem
            197 0 (contKey p c) 0 0).delineate p c fuel
      | _, some (kind, len, cls) =>
        let words := 1 + ceilDiv len 8
        if x.stream.length < words then s
        else
          let unit := x.stream.take words
          let s := s.updCont p c fun x => { x with stream := x.stream.drop words }
          let s := if kind = 0 then s
            else if unit.any (·.2) then s.updCont p c fun x => { x with unitErr := satTo 16 (x.unitErr + 1) }
            else (s.count 6 (contKey p c) 1).hostBound p c cls ((unit.drop 1).flatMap (·.1) |>.take len)
          s.delineate p c fuel

/-! ### Delivery downstream (R236 to R247) -/

/-- Whether the client is a legacy lane. -/
def State.isFleam (s : State) (p : Path) (c : Nat) : Bool := match s.client p c with | .fleam _ => true | _ => false

/-- Container AIS towards the client, in a frame whose expected counter is `fc` (R247). -/
def State.deliverAis (s : State) (p : Path) (c fc : Nat) : State :=
  match s.client p c with
  | .ether f => s.egressAis f
  | .carriage f => s.egressAis f
  | .packet => s.delinHunt p c
  | .fleam l =>
    let s := s.updFleam l fun x => { x with outPart := [] }
    if fc % 8 = 7 then s.fleamOut l (fleamAis (s.laneRate l)) else s
  | .pass _ _ => s
  | .none => s

/-- Client data towards the client: the data words of a frame with the marks of their code words. -/
def State.deliverData (s : State) (p : Path) (c fc : Nat) (words : List (Bytes × Bool)) : State :=
  let bytes := words.flatMap (·.1)
  match s.client p c with
  | .ether f => s.egressPush f bytes
  | .carriage f => s.egressPush f bytes
  | .packet =>
    let s := s.updCont p c fun x => { x with stream := x.stream ++ words }
    s.delineate p c (3 * (s.cont p c).stream.length + 2)
  | .fleam l =>
    let part := if fc % 8 = 0 then bytes else (s.fleam l).outPart ++ bytes
    let s := s.updFleam l fun x => { x with outPart := part }
    if fc % 8 = 7 ∧ part.length = 128 * s.laneRate l then
      (s.updFleam l fun x => { x with outPart := [] }).fleamOut l part
    else s
  | .pass q d => s.updCont q d fun x => if x.qual then { x with buf := x.buf ++ bytes } else x
  | .none => s

/-! ### Received segments (R261) -/

/-- Deciphers the bytes of a frame and keeps its segment. A segment for which no key is held keeps its place in the
superframe, and is not checked. -/
def State.decipher (s : State) (p : Path) (c fc jw : Nat) (key : Option Bytes) (epoch : Nat) (b : Bytes) (ok : Bool) :
    State × Bytes :=
  let (old, g) := takeSeg (s.cont p c).rxSegs (key.getD []) epoch fc
  let plain := match key with | some k => ctrXor (k.take 32) g.iv g.data.length b | none => b
  let g := { g with jws := g.jws ++ beBytes 2 jw, data := g.data ++ b, ok := g.ok && ok && key.isSome }
  (s.updCont p c fun x => { x with rxSegs := old ++ [g] }, plain)

/-- Ends the run of a container's segment: the next frame starts a new one. -/
def State.breakSeg (s : State) (p : Path) (c : Nat) : State :=
  s.updCont p c fun x => { x with rxSegs := x.rxSegs.map fun g => { g with live := false } }

/-- Checks the segments of the superframe before the one of frame `fc` against their tag field (R258, R261, R262). `usable`
tells that the tag's frame allows a check. -/
def State.checkTags (s : State) (p : Path) (c : Nat) (field : Bytes) (usable : Bool) (fc : Nat) : State :=
  let segs := (s.cont p c).rxPrev
  let two := decide (2 ≤ segs.length)
  let mism := (s.mstPath p).mismatch.getLsbD 1
  let verdict (i : Nat) (g : Seg) : Option Bool :=
    if !(usable && g.ok && !mism && (g.fc / 16 + 1) % 2 ^ 44 == fc / 16) then none
    else some (if two then bytesAt field (8 * i) 8 == (g.tag c).take 8 else field == g.tag c)
  let vs := (List.range segs.length).map fun i => verdict i (segs.getD i ⟨[], 0, 0, 0, [], [], false, false⟩)
  let good := (vs.filter fun v => v == some true).length
  let bad := (vs.filter fun v => v == some false).length
  let s := s.updCont p c fun x =>
    { x with rxPrev := [], authOk := wrapTo 16 (x.authOk + good), authFail := wrapTo 16 (x.authFail + bad),
             unchecked := wrapTo 32 (x.unchecked + (segs.length - good - bad)),
             authBad := if good + bad = 0 then x.authBad else if 0 < bad then x.authBad + 1 else 0,
             authGood := if good + bad = 0 then x.authGood else if 0 < bad then 0 else x.authGood + 1 }
  let s := if 0 < bad then s.raiseItem 210 0 (contKey p c) 0 0 else s
  let x := s.cont p c
  if 3 ≤ x.authBad then s.contRaw p c 2 true else if 3 ≤ x.authGood then s.contRaw p c 2 false else s

/-- Whether the container's segments in progress belong to another superframe than frame `fc`. -/
def ContState.otherSuperframe (x : ContState) (fc : Nat) : Bool := x.rxSegs.any fun g => g.fc / 16 != fc / 16

/-- The start of a received superframe: segments that were never checked count as unchecked, and the finished ones
await their tags. -/
def State.segSuperframe (s : State) (p : Path) (c : Nat) : State :=
  s.updCont p c fun x =>
    { x with unchecked := wrapTo 32 (x.unchecked + x.rxPrev.length), rxPrev := x.rxSegs, rxSegs := [] }

/-! ### One container of a received frame -/

/-- A slot table swap of path `q` is overdue at frame `fc`, and the slots that container `c` of path `p` holds on it differ
between the two copies (R234). -/
def State.lateOn (s : State) (q p : Path) (c fc : Nat) : Bool :=
  let m := s.mstPath q
  let due := m.announced.any fun a => a.state == 1 && a.kinds.testBit 0 && decide (a.gens.slot ≠ m.rx.slot)
    && decide ((fc + 2 ^ 48 - a.target) % 2 ^ 48 < 2 ^ 47)
  let other := if m.tx.slot ≠ m.rx.slot then (s.pcnt q).tx else (s.pcnt q).next
  due && slotsIn (s.pcnt q).rx p c != slotsIn other p c

/-- The path state that asks for container AIS (R207): of both paths for a bonded container. -/
def State.aisOf (s : State) (p : Path) (c : Nat) : Bool := s.pathAis p || (s.bonded p c && s.pathAis (otherPath p))

/-- One container of a received frame: `bytes` are its container bytes, slot by slot, with whether the slot's code word
is uncorrectable, and `late` tells that a slot table swap is overdue for it (R227, R234, R239, R247, R261). -/
def State.contRx (s : State) (p : Path) (c : Nat) (ctx : RxCtx) (bytes : List (Bytes × Bool)) (late : Bool) : State :=
  let n := bytes.length
  let jw := beAt ctx.ov (128 + 2 * c) 2
  let st := jw / 8192
  let stuff := jw % 8192
  let readable := ctx.word0 && (st != 0 || (decide (sMin n ≤ stuff) && decide (stuff ≤ sMax n)))
  let reserved := decide (4 ≤ st)
  let s := s.updCont p c fun x =>
    { x with rxState := if readable then st else x.rxState, rxS := if readable then stuff else x.rxS,
             jwUnread := if readable && !reserved then x.jwUnread else satTo 16 (x.jwUnread + 1) }
  let x := s.cont p c
  let eff := if 4 ≤ x.rxState then 1 else x.rxState
  let s := if readable then s.jwRuns p c eff else s
  let anyBad := bytes.any (·.2)
  let raw := bytes.flatMap (·.1)
  let sfx := ctx.fc % 16
  let s := if (ctx.inSf && sfx == 0) || (s.cont p c).otherSuperframe ctx.fc then s.segSuperframe p c else s
  let sent := if !ctx.word0 then eff else if 4 ≤ st then 1 else st
  let (s, plain) :=
    if !s.encrypted p then (s, raw)
    else if sent = 0 ∨ sent = 1 then
      s.decipher p c ctx.fc jw (ctx.keys.rx.getD c none) ctx.keys.rxEpoch.toNat raw
        (ctx.inSf && ctx.word0 && !anyBad && !(s.mstPath p).mismatch.getLsbD 1)
    else (s.breakSeg p c, raw)
  let s := if s.encrypted p ∧ ctx.inSf ∧ sfx = c / 16 then
      s.checkTags p c (bytesAt ctx.ov (640 + 16 * (c % 16)) 16) ctx.word0 ctx.fc
    else s
  let data := 80 * n - x.rxS
  let tw := bytesAt plain (8 * data) 8
  let twOk := ctx.inFrame && eff == 0 && decide (data < 80 * n) && !(bytes.getD (data / 80) ([], true)).2 && crcOk tw 0 6
  let s := if twOk then s.contType p c tw else s
  let s := if ctx.inSf then s.contAssemble p c sfx (if twOk then some tw else none) else s
  let s := if s.ckeyLocal p c then (s.contRaw p c 1 true).updCont p c fun x => { x with keyClr := 0 } else s
  let s := (s.ctimJudge p c).contJudge p c
  let rep := (s.cont p c).rep
  let w := s.regI Reg.CNT_C_CTRL (contKey p c)
  let ais := s.aisOf p c || rep.getLsbD 0 || rep.getLsbD 1
    || (rep.getLsbD 2 && flagOf (s.regI Reg.CRY_C_CTRL (contKey p c)) 0) || (rep.getLsbD 3 && flagOf w 6)
    || eff != 0 || late
  let s := if late then s.raiseItem 195 0 (contKey p c) 0 0 else s
  let s := s.updCont p c fun x =>
    { x with ais := ais, aisFrames := if ais then wrapTo 32 (x.aisFrames + 1) else x.aisFrames
             errored := !readable || anyBad }
  if ais || (s.isFleam p c && !ctx.inSf) then s.deliverAis p c (if ctx.inSf then ctx.fc else s.txFc)
  else
    let words := (List.range data).map fun i =>
      (bytesAt plain (8 * i) 8, !readable || (bytes.getD (i / 80) ([], true)).2)
    s.deliverData p c ctx.fc words

/-- The bytes of a slot of a received frame, with whether its code word is uncorrectable (R180, R195). -/
def rxSlot (f : RxFrame) (i : Nat) : Bytes × Bool :=
  (padTo 640 (match f.slots.find? (fun x => x.1 == i) with | some x => x.2 | none => []), f.uncorr.contains (1 + i / 5))

/-- The containers of a path that are not bonded, of a received frame: those without slots in the table in force have their
justification word all the same. -/
def State.contsRx (s : State) (p : Path) (f : RxFrame) (ctx : RxCtx) : State :=
  ((s.contsOf p).filter fun c => !s.bonded p c).foldl (fun s c =>
    s.contRx p c ctx ((s.rxSlots p c).map fun t => rxSlot f t.2) (s.lateOn p p c ctx.fc)) s

/-- A frame of container AIS that no received frame brings. -/
def State.silentAis (s : State) (p : Path) (c : Nat) : State :=
  (s.updCont p c fun x => { x with ais := true, aisFrames := wrapTo 32 (x.aisFrames + 1) }).deliverAis p c s.txFc

/-- The containers of a path whose decoder delivers no frames: container AIS where the path's state asks for it (R207),
and Fleam AIS frames out of superframe (R243). -/
def State.contsSilent (s : State) (p : Path) : State :=
  ((s.contsOf p).filter fun c => !s.bonded p c).foldl (fun s c =>
    if s.pathAis p then s.silentAis p c
    else if s.isFleam p c then s.deliverAis p c s.txFc
    else s) s

/-! ### Bonded containers (R22, R245) -/

/-- The bonded containers of both paths for which a slot table swap of path `p` is overdue at frame `fc`. -/
def State.bondLate (s : State) (p : Path) (fc : Nat) : List Nat :=
  [Path.a, Path.b].flatMap fun q => ((s.bondedOf q).filter fun c => s.lateOn p q c fc).map (contKey q)

/-- What a received frame of path `p` gives for the bonded containers of both paths. -/
def State.bondParts (s : State) (p : Path) (f : RxFrame) : List (Nat × List (Bytes × Bool)) :=
  [Path.a, Path.b].flatMap fun q => (s.bondedOf q).map fun c =>
    (contKey q c, (slotsIn (s.pcnt p).rx q c).map fun i => rxSlot f i)

def BondFrame.part (b : BondFrame) (key : Nat) : List (Bytes × Bool) :=
  match b.parts.find? (fun x => x.1 == key) with | some x => x.2 | none => []

/-- Both paths' frames of one counter are present: the bonded containers of path `p` are demapped with its overhead, the
slots of the owning path first (R224, R245). -/
def State.bondedRx (s : State) (p : Path) (own other : BondFrame) : State :=
  (s.bondedOf p).foldl (fun s c =>
    let key := contKey p c
    s.contRx p c own.ctx (own.part key ++ other.part key) (own.late.contains key || other.late.contains key)) s

/-- The bonded-skew condition begins, with its event, or ends at a superframe boundary: the bonded containers enter or
leave CAIS at once (R22, R248). The event's source is not numbered (log 84). -/
def State.setSkew (s : State) (v : Bool) : State :=
  if v == s.cnt.skew then s
  else
    let s := { s with cnt := { s.cnt with skew := v } }.bondBreak
    let s := if v then s.raise (Config.bondSkewSource % 304) 0 0 0 0 else s
    [Path.a, Path.b].foldl (fun s p =>
      let s := if v then s else (s.bondedOf p).foldl (fun s c =>
        if s.caisLocal p c then s else (s.contRaw p c 0 false).updCont p c fun x => { x with aisRun := 0 }) s
      s.contLocals p) s

/-- A path declares a defect at or above LOF (R22). -/
def State.bondDefect (s : State) : Bool := [Path.a, Path.b].any fun p => decide ((s.lfr p).rep &&& 0x07#8 ≠ 0)

/-- Frames of both paths with one counter leave the deskew buffers. While the skew condition holds the containers carry
CAIS; it ends at a superframe boundary without a defect. -/
def State.bondTake (s : State) (a b : BondFrame) : State :=
  let s := if s.cnt.skew && a.ctx.fc % 16 == 0 && !s.bondDefect then s.setSkew false else s
  if s.cnt.skew then s.bondBreak else (s.bondedRx .a a b).bondedRx .b b a

/-- A received frame of path `p` enters its deskew buffer, or meets the other path's frame of the same counter. Frames
before that one have lost their partner. -/
def State.bondRx (s : State) (p : Path) (x : BondFrame) : State :=
  match (s.pcnt (otherPath p)).bond.find? (fun y => y.ctx.fc == x.ctx.fc) with
  | some y =>
    let whole := (s.pcnt p).bond == [] && ((s.pcnt (otherPath p)).bond.head?.any fun z => z.ctx.fc == x.ctx.fc)
    let s := if whole then s else s.bondBreak
    let s := s.updPcnt (otherPath p) fun t =>
      { t with bond := (t.bond.dropWhile fun z => z.ctx.fc != x.ctx.fc).drop 1 }
    let s := s.updPcnt p fun t => { t with bond := [] }
    (match p with | .a => s.bondTake x y | .b => s.bondTake y x)
  | none => s.updPcnt p fun t => { t with bond := t.bond ++ [x] }

/-- The deskew buffers at a local frame boundary: a frame that has waited for more than 128 frames is dropped, and its
age, or a defect of either path, begins the skew condition. The containers then carry CAIS, once in every frame; where
frames are not matched because a path delivers none, its state gives them container AIS, and a Fleam lane receives AIS
frames out of superframe (R207, R243). -/
def State.bondFrame (s : State) : State :=
  let late (x : BondFrame) : Bool := decide (x.upNs + 131072 < s.upNs)
  let tooLate := [Path.a, Path.b].any fun p => (s.pcnt p).bond.any late
  let s := [Path.a, Path.b].foldl (fun s p => s.updPcnt p fun t => { t with bond := t.bond.filter fun x => !late x }) s
  let s := if tooLate || s.bondDefect then s.setSkew true else s
  let silent := [Path.a, Path.b].any fun p => !(s.locked p && (s.lfr p).inSf)
  [Path.a, Path.b].foldl (fun s p => (s.bondedOf p).foldl (fun s c =>
    if s.cnt.skew || (silent && s.aisOf p c) then s.silentAis p c
    else if s.isFleam p c && silent then s.deliverAis p c s.txFc
    else s) s) s

/-! ### Slot table swaps (R232 to R234) -/

/-- Both directions use one copy again: the retired copy is released and takes the contents in force (R232). -/
def State.slotRelease (s : State) (p : Path) : State :=
  if (s.mstPath p).tx.slot = (s.mstPath p).rx.slot then
    (s.updPcnt p fun x => { x with next := x.tx }).setFld (Reg.CNT_SLOT_GEN_A + 4 * pathNum p) 15 0
      (s.mstPath p).tx.slot.toNat
  else s

/-- The transmit direction takes the next copy with generation `g`. -/
def State.slotTxSwap (s : State) (p : Path) (g : BitVec 16) : State :=
  let s := s.updPcnt p fun x => { x with tx := x.next }
  (s.updMstPath p fun m => { m with tx := m.tx.set 0 g, staged := unstage m.staged 0 }).slotRelease p

/-- The receive direction takes its next copy with generation `g`. -/
def State.slotRxSwap (s : State) (p : Path) (g : BitVec 16) : State :=
  let m := s.mstPath p
  let s := s.updPcnt p fun x => { x with rx := if m.tx.slot ≠ m.rx.slot then x.tx else x.next }
  (s.updMstPath p fun m => { m with rx := m.rx.set 0 g, rxStaged := unstage m.rxStaged 0 }).slotRelease p

/-! ### Key slots (R255, R264, R269) -/

/-- A slot that both directions have left is zeroised and becomes the empty next slot (R255). -/
def State.keyRelease (s : State) (p : Path) : State :=
  if (s.cry p).txOne == (s.cry p).rxOne then s.updCry p fun c => c.setNext emptyKeys else s

/-- The transmit direction moves to the next slot. -/
def State.keyTxMove (s : State) (p : Path) (g : BitVec 16) : State :=
  let s := s.updCry p fun c => { c with txOne := !c.txOne, txAge := 0, txLast := none, rekeyRun := false }
  (s.updMstPath p fun m => { m with tx := m.tx.set 1 g, staged := unstage m.staged 1 }).keyRelease p

/-- The receive direction moves to its next slot. -/
def State.keyRxMove (s : State) (p : Path) (g : BitVec 16) : State :=
  let s := s.updCry p fun c => { c with rxOne := !c.rxOne, rxAge := 0, rxLast := none }
  ((s.updMstPath p fun m => { m with rx := m.rx.set 1 g, rxStaged := unstage m.rxStaged 1 }).keyRelease p).contLocals p

/-- Replaces the slot that a direction uses. -/
def CryState.setSlot (c : CryState) (one : Bool) (f : KeySet → KeySet) : CryState :=
  if one then { c with s1 := f c.s1 } else { c with s0 := f c.s0 }

/-- Whether any half is held. -/
def anyKey (l : List (Option Bytes)) : Bool := l.any (·.isSome)

/-- Retires the transmit half of a path, or the receive half (R264). -/
def State.retireTx (s : State) (p : Path) : State :=
  if anyKey (s.cry p).txKeys.tx then
    (s.updCry p fun c => { c.setSlot c.txOne fun k => { k with txEpoch := 0, tx := List.replicate 256 none } with
      rekeyRun := false }).raise 208 0 (contKey p 0) 0 0
  else s

def State.retireRx (s : State) (p : Path) : State :=
  if anyKey (s.cry p).rxKeys.rx then
    ((s.updCry p fun c => c.setSlot c.rxOne fun k =>
      { k with rxEpoch := 0, rx := List.replicate 256 none }).raise 208 1 (contKey p 0) 0 0).contLocals p
  else s

/-- The counter has passed its wrap to 0 since frame `last`, at frame `fc` (R264). -/
def wrapPassed (last : Option Nat) (fc : Nat) : Bool :=
  match last with
  | some l => decide (fc < l) && decide ((fc + 2 ^ 48 - l) % 2 ^ 48 < 2 ^ 47)
  | none => false

/-- `ERASE` of a container's slots in use, or of its next slot (R269). -/
def State.eraseKeys (s : State) (p : Path) (c : Nat) (next : Bool) : State :=
  let wipe (k : KeySet) : KeySet := { k with tx := modifyAt (fun _ => none) c k.tx, rx := modifyAt (fun _ => none) c k.rx }
  let s := s.updCry p fun y =>
    if next then (match y.nextKeys with | some k => y.setNext (wipe k) | none => y)
    else (y.setSlot y.txOne wipe).setSlot y.rxOne wipe
  (s.raise 209 0 (contKey p c) 0 0).contLocals p

/-- `ERASE_ALL` of a path (R269). -/
def State.eraseAllKeys (s : State) (p : Path) : State :=
  let wipe (k : KeySet) : KeySet := { k with tx := List.replicate 256 none, rx := List.replicate 256 none }
  ((s.updCry p fun y => { y with s0 := wipe y.s0, s1 := wipe y.s1 }).raise 209 1 (contKey p 0) 0 0).contLocals p

end Sys2Proof.Machine
end

