-- ==== Sys2Proof/Machine/Trust.lean ====
section
/-!
DEFINITION. The trust core (12_trust_and_otp.md): OTP words and generation slots, the lifecycle, the derived keys, the
check of signatures and certificates, the trust core commands, and the tenant pages.
-/
namespace Sys2Proof.Machine

/-! ### OTP words and generation slots (R283 to R291) -/

def TruState.word (t : TruState) (w : Nat) : Nat := (sparseGet (fun _ => (0 : BitVec 64)) t.otp w).toNat

/-- Word 2 of the factory identity (R286): the part code of `TOP_ID`, the die revision, and the units that the factory
settings disable, in the layout of `TOP_UNIT_FUSED`. -/
def State.part (s : State) : Nat := bitsOf (s.tru.word 2) 15 12
def State.dieRev (s : State) : Nat := bitsOf (s.tru.word 2) 11 8
def State.fused (s : State) : Nat := bitsOf (s.tru.word 2) 7 0

/-- `n` words from `base`. -/
def TruState.words (t : TruState) (base n : Nat) : List Nat := (List.range n).map fun i => t.word (base + i)

/-- A check word: the CRC-32 of words, most significant byte first (R285). -/
def checkWord (ws : List Nat) : Nat := crc32 (ws.flatMap fun w => beBytes 8 w)

/-- Whether the last of `n` words from `base` is the check word of those before it. -/
def TruState.checked (t : TruState) (base n : Nat) : Bool := t.word (base + n - 1) == checkWord (t.words base (n - 1))

/-- A region with four generation slots: its first word and the words of a slot (R284). -/
structure Region where
  base : Nat
  len  : Nat
  deriving DecidableEq, Repr

def ownerRegion : Region := ⟨280, 8⟩
def bootRegion : Region := ⟨314, 8⟩
def repairRegion : Region := ⟨144, 34⟩

def Region.slot (r : Region) (g : Nat) : Nat := r.base + g * r.len

def TruState.used (t : TruState) (r : Region) (g : Nat) : Bool := (t.words (r.slot g) r.len).any fun w => w != 0

/-- Reserved bits of a boot profile generation's word 1 (R289). -/
def bootWord1Ok (w : Nat) : Bool :=
  bitsOf w 7 2 == 0 && bitsOf w 23 16 == 0 && bitsOf w 31 26 == 0 && bitsOf w 63 49 == 0

/-- A memory repair entry (R291): its bank, row and spare row. -/
def repairEntry (w : Nat) : Option (Nat × Nat × Nat) :=
  if w.testBit 63 && bitsOf w 62 48 == 0 && bitsOf w 15 5 == 0 then some (bitsOf w 47 40, bitsOf w 39 16, bitsOf w 4 0)
  else none

/-- Header, reserved bits and entries of a repair map of `n` words with a tag (R291). -/
def TruState.repairOk (t : TruState) (base n tag : Nat) : Bool :=
  let h := t.word base
  let cnt := bitsOf h 7 0
  h == tag * 2 ^ 56 + 2 ^ 48 + cnt && decide (cnt ≤ n - 2)
    && ((t.words (base + 1) cnt).all fun w => (repairEntry w).isSome)
    && ((t.words (base + 1 + cnt) (n - 2 - cnt)).all fun w => w == 0) && t.checked base n

/-- Whether a slot of a region is valid (R285, R287, R289, R291). -/
def TruState.valid (t : TruState) (r : Region) (g : Nat) : Bool :=
  let b := r.slot g
  if r.base = 144 then t.repairOk b 34 0xD1
  else if r.base = 280 then
    (t.word b == 0xA001 * 2 ^ 48 || t.word b == 0xA001 * 2 ^ 48 + 2 ^ 40) && t.checked b 8
  else t.word b == 0xB001 * 2 ^ 48 && bootWord1Ok (t.word (b + 1)) && ((t.words (b + 2) 5).all fun w => w == 0)
    && t.checked b 8

/-- The slot in force: the valid one with the highest index (R285). -/
def TruState.inForce (t : TruState) (r : Region) : Option Nat := [3, 2, 1, 0].find? fun g => t.valid r g

/-- The lowest unused slot. -/
def TruState.unused (t : TruState) (r : Region) : Option Nat := [0, 1, 2, 3].find? fun g => !t.used r g

/-- The used slots as four bits. -/
def TruState.usedMask (t : TruState) (r : Region) : Nat := ([0, 1, 2, 3].map fun g => b2n (t.used r g) * 2 ^ g).sum

/-- The mark of a hybrid owner generation (R287). -/
def TruState.hybrid (t : TruState) (g : Nat) : Bool := (t.word (ownerRegion.slot g)).testBit 40

/-- The hash of an owner generation. -/
def TruState.ownerHash (t : TruState) (g : Nat) : Bytes := (t.words (ownerRegion.slot g + 1) 6).flatMap fun w => beBytes 8 w

/-- Consecutive programmed bits from bit `i` upward; `fuel` bounds the count. -/
def runOfOnes (n : Nat) : Nat → Nat → Nat
  | _, 0 => 0
  | i, fuel + 1 => if n.testBit i then 1 + runOfOnes n (i + 1) fuel else 0

/-- The anti-rollback floor (R288). -/
def TruState.floor (t : TruState) : Nat := runOfOnes (t.word 312 + t.word 313 * 2 ^ 64) 0 127

/-- The words that raise the floor to `v`. -/
def floorWords (v : Nat) : List (Nat × BitVec 64) :=
  [(312, BitVec.ofNat 64 (2 ^ min v 64 - 1)), (313, BitVec.ofNat 64 (2 ^ (v - 64) - 1))]

/-- The lifecycle state that the four copies give (R290). -/
def TruState.copies (t : TruState) : Nat :=
  let in3 (i : Nat) : Bool := decide (3 ≤ ((t.words 346 4).filter fun w => w.testBit i).length)
  if in3 2 then 3 else if in3 1 then 2 else if in3 0 then 1 else 0

/-- The lifecycle state code (R292). Before OTP is released no state is accepted: it reads `FACTORY` (log 31). -/
def TruState.lifecycle (t : TruState) : Nat :=
  if !t.ready then 0 else if t.identBad || t.fault then 7 else t.copies

def State.lifecycle (s : State) : Nat := s.tru.lifecycle

/-- The boot profile (R289): source, flash clock in MHz, time source, ceiling in 0.1 W and the maintenance port. -/
structure BootProfile where
  src   : Nat
  mhz   : Nat
  time  : Nat
  ceil  : Nat
  maint : Bool
  deriving DecidableEq, Repr

def TruState.profile (t : TruState) : BootProfile :=
  match t.inForce bootRegion with
  | none => ⟨0, 25, 0, 300, true⟩
  | some g =>
    let w := t.word (bootRegion.slot g + 1)
    let mhz := bitsOf w 15 8
    let ceil := bitsOf w 47 32
    ⟨bitsOf w 1 0, if mhz = 0 ∨ 134 ≤ mhz then 25 else mhz, bitsOf w 25 24, if ceil = 0 then 300 else ceil, w.testBit 48⟩

/-- Programming sets bits (R283). `took` holds, for a word whose cells took only some bits, the bits that they took. -/
def TruState.program (t : TruState) (ws took : List (Nat × BitVec 64)) : TruState :=
  let otp := ws.foldl (fun otp x =>
    let old := sparseGet (fun _ => (0 : BitVec 64)) otp x.1
    let bits := match took.find? (fun y => y.1 == x.1) with | some y => x.2 &&& y.2 | none => x.2
    sparseSet (fun _ => (0 : BitVec 64)) x.1 (old ||| bits) otp) t.otp
  { t with otp := otp }

/-- The first word of a commit that does not read back as written (R283). -/
def TruState.readBack (t : TruState) (ws : List (Nat × BitVec 64)) : Option Nat :=
  (ws.find? fun x => (sparseGet (fun _ => (0 : BitVec 64)) t.otp x.1) &&& x.2 != x.2).map fun x => x.1

def State.setTru (s : State) (f : TruState → TruState) : State := { s with tru := f s.tru }

/-- A commit asks for its grant and takes the OTP (R283, R486). -/
def State.otpStart (s : State) (c : OtpCommit) : State × RowAnswer :=
  match s.rowAnswer 250 with
  | .granted => ((s.setTru fun t => { t with busy := some { c with waiting := false } }).addGrant 10 250, .granted)
  | .queued => ((s.setTru fun t => { t with busy := some { c with waiting := true } }).enqueue 10 250, .queued)
  | .denied => (s.noteDenied 10, .denied)

/-- Event 265: a commit failed or was refused (R315). -/
def State.otpRefused (s : State) (code region aim : Nat) : State := s.raise 265 code 0 region aim

/-- The value that event 265 holds where no slot is left to aim at: not stated (log 32). -/
def State.noAim (s : State) : Nat := Config.freeNat s.freeCtr 265 % 2 ^ 32

/-! ### Derived keys (R297) -/

/-- The identity seed: words 4 to 11. -/
def TruState.seed (t : TruState) : Bytes := (t.words 4 8).flatMap fun w => beBytes 8 w

/-- The device identifier: words 0 and 1. -/
def TruState.ident (t : TruState) : Bytes := (t.words 0 2).flatMap fun w => beBytes 8 w

def TruState.prk (t : TruState) : Bytes := hkdfExtract (ascii "ARID") t.seed

/-- The order of the group of P-384. -/
def p384Order : Nat :=
  0xffffffffffffffffffffffffffffffffffffffffffffffffc7634d81f4372ddf581a0db248b0a77aecec196accc52973

/-- The ECDSA device key d. -/
def TruState.ecKey (t : TruState) : Bytes :=
  beBytes 48 (beNat (hkdfExpand t.prk (ascii "ARDE") 48) % (p384Order - 1) + 1)

/-- The seed of the ML-DSA-65 device key. -/
def TruState.mlKey (t : TruState) : Bytes := hkdfExpand t.prk (ascii "ARDM") 32

/-- The flash sector key (R302). -/
def TruState.sectorKey (t : TruState) : Bytes := hkdfExpand t.prk (ascii "ARSK") 64

/-- The key of a job slot (R309). -/
def TruState.jobKey (t : TruState) (page typ : Nat) (label : Bytes) : Bytes :=
  let root := hkdfExtract (t.br.getD []) (hkdfExpand t.prk (ascii "ARJR") 48)
  hkdfExpand root (ascii "ARJK" ++ beBytes 1 page ++ beBytes 1 typ ++ padTo 16 label)
    (match typ with | 1 => 32 | 2 => 32 | 3 => 32 | 4 => 48 | _ => 64)

/-! ### Signatures (R42, R43) -/

/-- Why a signature block does not hold: its form with the detail, the owner key, the ML-DSA or the ECDSA part. -/
inductive SigFault where
  | block (detail : Nat)
  | ownerKey (gen : Nat)
  | mlDsa
  | ecdsa
  deriving DecidableEq, Repr

def allZero (b : Bytes) : Bool := b.all fun x => x == 0

/-- The length of the signature block at the end of a file, or the detail of `SIG_BLOCK` (R42). -/
def sigLength (b : Bytes) : Nat ⊕ Nat :=
  let n := b.length
  let is (len : Nat) (flag : Bool) : Bool := decide (len ≤ n) && bytesAt b (n - len) 4 == ascii "ASIG"
    && beAt b (n - len + 4) 4 == len && (beAt b (n - len + 8) 2).testBit 0 == flag
  let magic (len : Nat) : Bool := decide (len ≤ n) && bytesAt b (n - len) 4 == ascii "ASIG"
  if is 256 false then .inr 256 else if is 5520 true then .inr 5520
  else .inl (if magic 256 || magic 5520 then 4 else 0)

/-- The first field of a block that breaks its form, as an offset (R42). -/
def sigForm (g : Bytes) : Option Nat :=
  if beAt g 8 2 / 2 ≠ 0 then some 8
  else if 3 < beAt g 10 1 then some 10
  else if !allZero (bytesAt g 11 5) then some 11
  else if !allZero (bytesAt g 113 15) then some 113
  else if !allZero (bytesAt g 224 32) then some 224
  else if g.length = 5520 ∧ !allZero (bytesAt g 5517 3) then some 5517
  else none

/-- Whether the signature block at the end of a file holds for the bytes before it (R42, R43): nothing, or the first
fault. -/
def TruState.sigCheck (t : TruState) (file : Bytes) : Option SigFault :=
  match sigLength file with
  | .inl d => some (.block d)
  | .inr len =>
    let g := file.drop (file.length - len)
    let signed := file.take (file.length - len)
    match sigForm g with
    | some d => some (.block d)
    | none =>
      let gen := beAt g 10 1
      if t.inForce ownerRegion ≠ some gen then some (.ownerKey gen)
      else
        let hybrid := t.hybrid gen
        if hybrid && decide (len = 256) then some .mlDsa
        else
          let material := bytesAt g 16 97 ++ (if hybrid then bytesAt g 256 1952 else [])
          if sha384 material ≠ t.ownerHash gen then some (.ownerKey gen)
          else if !Config.ecdsaVerify (bytesAt g 16 97) signed (bytesAt g 128 96) then some .ecdsa
          else if hybrid && !Config.mldsaVerify (bytesAt g 256 1952) signed (bytesAt g 2208 3309) then some .mlDsa
          else none

/-! ### Certificates (R298, R299) -/

/-- The form of a certificate of a kind. -/
def certForm (c : Bytes) (kind : Nat) : Bool :=
  c.length == 2596 && c.take 4 == ascii "ACRT" && beAt c 4 1 == 1 && beAt c 5 1 == kind && beAt c 6 2 == 2596
    && allZero (bytesAt c 76 116) && allZero (bytesAt c 289 3)

def certSubject (c : Bytes) : Bytes := bytesAt c 24 16

def certIssuer (c : Bytes) : Bytes := bytesAt c 40 16

/-- Whether a certificate's signature verifies under an ECDSA key. -/
def certSigned (c key : Bytes) : Bool := Config.ecdsaVerify key (c.take 2500) (bytesAt c 2500 96)

/-- The certificates of a CERT body (R272). -/
def chainCerts (b : Bytes) : List Bytes :=
  let one := bytesAt b 6 2596
  let two := bytesAt b 2604 2596
  if !allZero (bytesAt b 1 3) || beAt b 4 2 != 2596 then []
  else match beAt b 0 1, b.length with
    | 1, 2602 => [one]
    | 2, 5200 => if beAt b 2602 2 = 2596 then [one, two] else []
    | _, _ => []

/-- Whether a chain is valid for an identifier (R299). -/
def chainValid (b ident : Bytes) : Bool :=
  match chainCerts b with
  | [c] => certForm c 1 && certSubject c == ident && certIssuer c == Config.rootId && certSigned c Config.rootKey
  | [c, i] =>
    certForm c 1 && certForm i 2 && certSubject c == ident && certSubject i == certIssuer c
      && certSigned i Config.rootKey && certSigned c (bytesAt i 192 97)
  | _ => false

/-- The two public keys of a chain's device certificate. -/
def chainKeys (b : Bytes) : Bytes × Bytes := (bytesAt b 198 97, bytesAt b 298 1952)

/-! ### Trust core commands (R292 to R296, R312) -/

/-- Result codes of R312. -/
def truBusy : Nat := 1
def truLifecycle : Nat := 2
def truExhausted : Nat := 7
def truRowDenied : Nat := 8
def truProgram : Nat := 9

/-- Sets `TRU_RESULT`. -/
def State.truResult (s : State) (op code detail : Nat) : State :=
  s.setTru fun t => { t with result := code, resOp := op, detail := detail }

/-- The input of a command: `TRU_IN_LEN` bytes of the input buffer, lowest byte number in bits [31:24]. -/
def State.truInput (s : State) : Bytes :=
  ((List.range 2048).flatMap fun i => beBytes 4 (s.reg (Reg.TRU_INBUF + 4 * i)).toNat).take (s.fld Reg.TRU_IN_LEN 13 0)

/-- Starts a commit of a trust core command; a denial ends it (R312). -/
def State.truCommit (s : State) (c : OtpCommit) : State :=
  match s.otpStart c with
  | (s, .denied) => (s.truResult c.op truRowDenied 0).otpRefused truRowDenied c.region c.aim
  | (s, _) => s

/-- The commit of the lifecycle copies to a state. -/
def lifecycleCommit (op st : Nat) : OtpCommit :=
  { asker := 0, op := op, region := 346, aim := st, waiting := false, next := false,
    words := (List.range 4).map fun i => (346 + i, BitVec.ofNat 64 (2 ^ (st - 1))) }

/-- The words of a slot that holds `head` words, zeros and the check word. -/
def slotWords (base len : Nat) (head : List Nat) : List (Nat × BitVec 64) :=
  let body := head ++ List.replicate (len - 1 - head.length) 0
  ((body ++ [checkWord body]).mapIdx fun i w => (base + i, BitVec.ofNat 64 w))

/-- The words of an owner generation (R287). -/
def ownerWords (g : Nat) (hash : Bytes) (hybrid : Bool) : List (Nat × BitVec 64) :=
  slotWords (ownerRegion.slot g) 8
    ((0xA001 * 2 ^ 48 + b2n hybrid * 2 ^ 40) :: (List.range 6).map fun i => beAt hash (8 * i) 8)

def ownerCommit (op g : Nat) (material : Bytes) (next : Bool) : OtpCommit :=
  { asker := 0, op := op, region := 280, aim := g, waiting := false, next := next,
    words := ownerWords g (sha384 material) (decide (material.length = 2049)) }

/-- Whether a state accepts a command (R292). -/
def truAccepts (st op : Nat) : Bool := (st == 1 && (op == 1 || op == 5)) || (st == 2 && op != 1)

/-- The region and slot that a command's commit would aim at. -/
def State.truAim (s : State) (op : Nat) : Nat × Nat :=
  let slot (r : Region) : Nat := match s.tru.unused r with | some g => g | none => s.noAim
  match op with
  | 1 => (280, slot ownerRegion)
  | 2 => (280, slot ownerRegion)
  | 3 => (346, 3)
  | _ => (314, slot bootRegion)

/-- Refuses a command with a code; a refused commit is also reported by event 265. -/
def State.truRefuse (s : State) (op code : Nat) : State :=
  let s := s.truResult op code 0
  let aim := s.truAim op
  if op ≠ 5 ∧ (code = truBusy ∨ code = truExhausted) then s.otpRefused code aim.1 aim.2 else s

/-- `BUSY` and the lifecycle state come before everything else (R312). -/
def State.truGate (s : State) (op : Nat) (run : State → State) : State :=
  if s.tru.busy.isSome then s.truRefuse op truBusy
  else if !truAccepts s.lifecycle op then s.truRefuse op truLifecycle
  else run s

/-- `PROVISION` (R293). -/
def State.provision (s : State) : State :=
  s.truGate 1 fun s =>
    let m := s.truInput
    if m.length ≠ 97 ∧ m.length ≠ 2049 then s.truRefuse 1 3
    else match s.tru.inForce ownerRegion with
      | some g =>
        if sha384 m ≠ s.tru.ownerHash g then s.truRefuse 1 0x0C else s.truCommit (lifecycleCommit 1 2)
      | none => match s.tru.unused ownerRegion with
        | some g => s.truCommit (ownerCommit 1 g m true)
        | none => s.truRefuse 1 truExhausted

/-- The form of an owner blob for an action (R294, R295). -/
def blobForm (b : Bytes) (action : Nat) : Bool :=
  let len := beAt b 28 4
  let padded := 8 * ceilDiv len 8
  let flags := beAt b 24 1
  b.take 4 == ascii "AOWN" && beAt b 4 2 == 1 && beAt b 6 1 == action && flags / 2 == 0 && allZero (bytesAt b 25 3)
    && (if action = 1 then len == 97 || len == 2049 else len == 0)
    && (flags == 1) == (len == 2049)
    && allZero (bytesAt b (32 + len) (padded - len))
    && (b.length == 32 + padded + 256 || b.length == 32 + padded + 5520)

/-- The check of an owner blob: the code that refuses it, or 0. The first condition of R295 that applies gives the code;
the last one is not limited to a transfer (log 33). A signature block that R42 refuses fails with `SIGNATURE` (log 33).
-/
def State.blobCheck (s : State) (b : Bytes) (action : Nat) : Nat :=
  if !blobForm b action then 4
  else if bytesAt b 8 16 ≠ s.tru.ident then 5
  else if s.tru.sigCheck b ≠ none then 6
  else if action = 1 ∧ s.tru.unused ownerRegion ≠ some (beAt b 7 1) then 0x0B
  else if s.tru.unused ownerRegion = none then truExhausted
  else 0

/-- `TRANSFER` (R294, R295). -/
def State.transfer (s : State) : State :=
  s.truGate 2 fun s =>
    let b := s.truInput
    match s.blobCheck b 1 with
    | 0 => s.truCommit (ownerCommit 2 (beAt b 7 1) (bytesAt b 32 (beAt b 28 4)) false)
    | code => s.truRefuse 2 code

/-- Word 1 of a boot profile generation (R289), from `TRU_BP0` and `TRU_BP1`. -/
def State.bootWord (s : State) : Nat :=
  s.fld Reg.TRU_BP0 1 0 + s.fld Reg.TRU_BP0 15 8 * 2 ^ 8 + s.fld Reg.TRU_BP0 25 24 * 2 ^ 24
    + s.fld Reg.TRU_BP1 15 0 * 2 ^ 32 + s.fld Reg.TRU_BP1 16 16 * 2 ^ 48

/-- `BOOT_PROFILE` (R312). -/
def State.bootProfile (s : State) : State :=
  s.truGate 4 fun s =>
    match s.tru.unused bootRegion with
    | none => s.truRefuse 4 truExhausted
    | some g =>
      s.truCommit { asker := 0, op := 4, region := 314, aim := g, waiting := false, next := false,
                    words := slotWords (bootRegion.slot g) 8 [0xB001 * 2 ^ 48, s.bootWord] }

/-- `CERT_LOAD` (R299). -/
def State.certLoad (s : State) : State :=
  s.truGate 5 fun s =>
    let b := s.truInput
    if chainValid b s.tru.ident && chainKeys b == (Config.ecPublic s.tru.ecKey, Config.mldsaPublic s.tru.mlKey) then
      ((s.setTru fun t => { t with chain := some b }).truResult 5 0 0).raise 269 0 0 0 0
    else (s.truResult 5 0x0A 0).raise 269 1 0 0 0

/-- What a completed trust core command reports, and the lifecycle commit that follows `PROVISION`'s first. -/
def State.truCommitEnd (s : State) (c : OtpCommit) (bad : Option Nat) : State :=
  match bad with
  | some w => s.truResult c.op truProgram w
  | none => if c.next then s.truCommit (lifecycleCommit c.op 2) else s.truResult c.op 0 0

/-! ### The random generator (R300, R301) -/

/-- A window of 1,024 samples of the oscillators' jitter: free values. -/
def noiseWindow (ctr k : Nat) : Bytes := randomBytes ctr (1024 * k) 1024

/-- The repetition count test: no sample occurs 41 times in a row. -/
def repetitionOk (l : Bytes) : Bool :=
  (l.foldl (fun (x : Option Byte × Nat × Bool) b =>
    let n := if x.1 = some b then x.2.1 + 1 else 1
    (some b, n, x.2.2 && decide (n < 41))) (none, 0, true)).2.2

/-- The adaptive proportion test of a window: its first sample occurs fewer than 589 times. -/
def proportionOk (l : Bytes) : Bool := decide ((l.filter (· == l.headD 0)).length < 589)

/-- The first window that passes both tests, conditioned into a seed of 384 bits. -/
def noiseSeed (ctr : Nat) : Bytes :=
  sha384 (((List.range 64).map (noiseWindow ctr)).find? (fun l => repetitionOk l && proportionOk l) |>.getD [])

/-- The next block of the generator's output. -/
def Drbg.block (d : Drbg) : Drbg × Bytes :=
  let v := beBytes 16 (beNat d.v + 1)
  ({ d with v := v }, padTo 16 (Config.aesBlock d.key v))

/-- `n` blocks. -/
def Drbg.blocks (d : Drbg) : Nat → Drbg × Bytes
  | 0 => (d, [])
  | n + 1 => let x := d.block; let y := x.1.blocks n; (y.1, x.2 ++ y.2)

/-- The update of key and counter block with 48 bytes. -/
def Drbg.update (d : Drbg) (seed : Bytes) : Drbg :=
  let t := List.zipWith (· ^^^ ·) (d.blocks 3).2 (padTo 48 seed)
  ⟨t.take 32, t.drop 32⟩

/-- `n` random bytes. -/
def State.draw (s : State) (n : Nat) : State × Bytes :=
  let x := s.tru.drbg.blocks (ceilDiv n 16)
  (s.setTru fun t => { t with drbg := x.1.update [] }, x.2.take n)

/-- The generator is seeded anew. -/
def State.reseed (s : State) : State := s.setTru fun t => { t with drbg := t.drbg.update (noiseSeed s.freeCtr) }

/-- With OTP released and the start-up test passed, the generator supplies B_r, P_j and the fill keys, once (R259, R300,
R301, R307). -/
def State.rngSupply (s : State) : State :=
  if s.tru.testing || s.tru.rngFail || !s.tru.ready || s.tru.br.isSome || s.tru.fault then s
  else
    let (s, br) := (s.setTru fun t => { t with drbg := ⟨List.replicate 32 0, List.replicate 16 0⟩ }).reseed.draw 48
    let (s, pj) := s.draw 4
    let (s, fa) := s.draw 36
    let (s, fb) := s.draw 36
    let s := s.setTru fun t => { t with br := some br, pj := pj, jobCtr := 0 }
    (s.updCry .a fun c => { c with fill := fa }).updCry .b fun c => { c with fill := fb }

/-- `RNG_STARTUP_PASSED`: the start-up test has passed, before or after OTP is released (R301). -/
def execRngStartupPassed : State → Host.Outcome State Fault Refusal :=
  complete fun s =>
    if !s.tru.testing || s.tru.rngFail then s else (s.setTru fun t => { t with testing := false }).rngSupply

/-- `RNG_STARTUP_TIMEOUT` (R301). -/
def execRngStartupTimeout : State → Host.Outcome State Fault Refusal :=
  complete fun s =>
    if s.tru.ready && s.tru.br.isNone && !s.tru.fault then
      let old := s.lifecycle
      let s := s.setTru fun t => { t with fault := true }
      if s.lifecycle = old then s else s.raise 266 0 0 0 0
    else s

/-- `RNG_HEALTH_FAILURE`: the start-up test runs again; the third failure within a milestone second latches `RNG_FAIL`
(R301). -/
def execRngHealthFailure : State → Host.Outcome State Fault Refusal :=
  complete fun s =>
    let n := s.tru.rngFails + 1
    let latch := decide (3 ≤ n) && !s.tru.rngFail
    (s.setTru fun t => { t with testing := true, rngFails := n, rngFail := t.rngFail || decide (3 ≤ n) }).raise 268
      (b2n latch) 0 0 0

/-! ### Tenant pages (R303 to R311) -/

def State.page (s : State) (p : Nat) : Page := sparseGet (fun _ => freshPage) s.tru.pages p

def State.updPage (s : State) (p : Nat) (f : Page → Page) : State :=
  s.setTru fun t => { t with pages := sparseSet (fun _ => freshPage) p (f (s.page p)) t.pages }

def State.pageEn (s : State) (p : Nat) : Bool := flagOf (s.regI Reg.TRU_PAGE_CTRL p) 0

/-- The page's window [`BASE`, `LIMIT`). -/
def State.pageWindow (s : State) (p : Nat) : Nat × Nat :=
  ((s.regI Reg.TRU_PAGE_BASE_HI p).toNat * 2 ^ 32 + s.fldI Reg.TRU_PAGE_BASE_LO p 31 12 * 4096,
   (s.regI Reg.TRU_PAGE_LIMIT_HI p).toNat * 2 ^ 32 + s.fldI Reg.TRU_PAGE_LIMIT_LO p 31 12 * 4096)

/-- Free entries of the completion ring. -/
def Page.cqFree (x : Page) : Nat := 16 - (x.cqTail + 16 - x.cqHead) % 16

/-- Slots that hold a key. -/
def Page.held (x : Page) : Nat := (x.keys.map fun k => b2n k.isSome).sum

/-- A job descriptor (R305). -/
structure Desc where
  op    : Nat
  slot  : Nat
  irq   : Bool
  tag   : Word
  len   : Nat
  aad   : Nat
  src   : Nat
  dst   : Nat
  aadAt : Nat
  iv    : Bytes
  form  : Bool                        -- reserved bits are zero
  deriving DecidableEq, Repr

/-- Operations that use the 16 bytes of words 10 to 13. -/
def usesIv (op : Nat) : Bool := op == 2 || op == 4 || op == 9 || op == 10 || op == 16

def Page.desc (x : Page) (i : Nat) : Desc :=
  let w (k : Nat) : Nat := (sparseGet (fun _ => (0 : Word)) x.sq (16 * i + k)).toNat
  let iv := (List.range 4).flatMap fun k => beBytes 4 (w (10 + k))
  let op := bitsOf (w 0) 31 24
  let ivOk := if op = 2 then allZero (iv.drop 12) else if usesIv op then true else allZero iv
  let form := bitsOf (w 0) 23 19 == 0 && bitsOf (w 0) 15 1 == 0 && bitsOf (w 3) 31 17 == 0 && ivOk && w 14 == 0 && w 15 == 0
  { op := op, slot := bitsOf (w 0) 18 16, irq := (w 0).testBit 0, tag := BitVec.ofNat 32 (w 1), len := w 2,
    aad := bitsOf (w 3) 16 0, src := w 4 * 2 ^ 32 + w 5, dst := w 6 * 2 ^ 32 + w 7, aadAt := w 8 * 2 ^ 32 + w 9,
    iv := iv, form := form }

/-- Key type of an operation (R306); 0 where the slot's type does not matter. -/
def opType (op : Nat) : Nat :=
  match op with
  | 1 => 1 | 2 => 1 | 3 => 2 | 4 => 2 | 5 => 3 | 6 => 3 | 7 => 4 | 8 => 4 | 9 => 5 | 10 => 5 | _ => 0

def knownOp (op : Nat) : Bool := decide (1 ≤ op ∧ op ≤ 10) || op == 16 || op == 17

/-- Bytes of input, and of the whole output (R306). -/
def Desc.extents (d : Desc) : Nat × Nat :=
  match d.op with
  | 1 => (d.len, d.len + 16)
  | 2 => (d.len, d.len - 16)
  | 3 => (d.len, 16 * (d.len / 16 + 1))
  | 4 => (d.len, d.len)
  | 5 => (d.len, 16)
  | 6 => (d.len, 0)
  | 7 => (d.len, 48)
  | 8 => (d.len, 0)
  | 9 => (d.len, d.len)
  | 10 => (d.len, d.len)
  | _ => (0, 0)

/-- `LEN` and `AAD_LEN` are inside R306. -/
def Desc.lengthOk (d : Desc) : Bool :=
  (if d.op = 1 ∨ d.op = 2 then decide (d.aad ≤ 65536) else d.aad == 0) &&
  match d.op with
  | 1 => decide (d.len ≤ 262128)
  | 2 => decide (16 ≤ d.len ∧ d.len ≤ 262144)
  | 3 => decide (d.len ≤ 262128)
  | 4 => decide (16 ≤ d.len ∧ d.len ≤ 262144 ∧ d.len % 16 = 0)
  | 5 => decide (d.len ≤ 262144)
  | 6 => decide (16 ≤ d.len ∧ d.len ≤ 262144)
  | 7 => decide (d.len ≤ 262144)
  | 8 => decide (48 ≤ d.len ∧ d.len ≤ 262144)
  | 9 => decide (16 ≤ d.len ∧ d.len ≤ 262144)
  | 10 => decide (16 ≤ d.len ∧ d.len ≤ 262144)
  | 16 => decide (1 ≤ d.len ∧ d.len ≤ 5)
  | _ => d.len == 0

/-- Every byte of `n` from `a` lies inside the window. -/
def insideWindow (win : Nat × Nat) (a n : Nat) : Bool := n == 0 || decide (win.1 ≤ a ∧ a + n ≤ win.2)

/-- The ranges that a job moves lie inside the window, and source and destination are equal or apart (R308). -/
def Desc.rangeOk (d : Desc) (win : Nat × Nat) : Bool :=
  let e := d.extents
  let aad := if d.op = 1 ∨ d.op = 2 then d.aad else 0
  insideWindow win d.src e.1 && insideWindow win d.dst e.2 && insideWindow win d.aadAt aad
    && (e.1 == 0 || e.2 == 0 || d.src == d.dst || decide (d.src + e.1 ≤ d.dst) || decide (d.dst + e.2 ≤ d.src))

/-- The check of a job before any data moves: the status, 0 where none applies (R308). -/
def State.jobCheck (s : State) (p : Nat) (d : Desc) : Nat :=
  if !knownOp d.op || !d.form then 0x0A
  else if s.lifecycle ≠ 2 then 0x0C
  else if !d.lengthOk then 0x03
  else if !d.rangeOk (s.pageWindow p) then 0x06
  else if opType d.op = 0 then 0
  else match (s.page p).keys.getD d.slot none with
    | none => 0x04
    | some k => if k.1 = opType d.op then 0 else 0x05

/-- Whether the page can start the descriptor at its head (R304). Jobs of an owned part wait until the random generator has
supplied B_r. -/
def State.jobReady (s : State) (p : Nat) : Bool :=
  let x := s.page p
  s.pageEn p && x.run.isNone && x.sqHead != x.sqTail && decide (2 ≤ x.cqFree)
    && (s.tru.br.isSome || (s.tru.ready && s.lifecycle != 2))

/-- The job that a descriptor becomes, before its data is worked out. -/
def Desc.job (d : Desc) (idx status : Nat) (key : Bytes) : Job :=
  { op := d.op, idx := idx, tag := d.tag, irq := d.irq, status := status, data := [], dst := d.dst,
    extent := d.extents.2, opens := d.op == 2 || d.op == 4 || d.op == 10, iv := [], key := key, erased := false }

/-- Starts the descriptor at the head when its operation is `op`; `work` fills in what the operation computes. -/
def State.jobStart (s : State) (p op : Nat) (work : State → Desc → Job → State × Job) : State :=
  let x := s.page p
  let d := x.desc x.sqHead
  if !s.jobReady p || d.op != op then s
  else
    let status := s.jobCheck p d
    let key := match x.keys.getD d.slot none with | some k => k.2 | none => []
    let s := s.updPage p fun x => { x with sqHead := (x.sqHead + 1) % 16 }
    let j := d.job x.sqHead status (if status = 0 ∧ opType op ≠ 0 then key else [])
    if status ≠ 0 then s.updPage p fun x => { x with run := some j }
    else
      let r := work s d j
      r.1.updPage p fun x => { x with run := some r.2 }

/-- The next encryption counter (R307). -/
def State.takeJobCtr (s : State) : State × Bytes :=
  (s.setTru fun t => { t with jobCtr := wrapTo 64 (t.jobCtr + 1) }, padTo 4 s.tru.pj ++ beBytes 8 s.tru.jobCtr)

/-- A job that opens or verifies ends with a status and its output. -/
def Job.ends (j : Job) (status : Nat) (data : Bytes) : Job := { j with status := status, data := data }

def execGcmSeal (page : BitVec 5) (src aad : Bytes) : State → Host.Outcome State Fault Refusal :=
  complete fun s => s.jobStart page.toNat 1 fun s d j =>
    let (s, iv) := s.takeJobCtr
    let c := ctrXor j.key iv 0 (padTo d.len src)
    (s, { j with iv := iv, data := c ++ gcmTag j.key iv (padTo d.aad aad) c })

def execGcmOpen (page : BitVec 5) (src aad : Bytes) : State → Host.Outcome State Fault Refusal :=
  complete fun s => s.jobStart page.toNat 2 fun s d j =>
    let iv := d.iv.take 12
    let c := padTo (d.len - 16) src
    let tag := bytesAt src (d.len - 16) 16
    (s, if gcmTag j.key iv (padTo d.aad aad) c = tag then j.ends 0 (ctrXor j.key iv 0 c)
        else j.ends 1 (List.replicate j.extent 0))

def execCbcEnc (page : BitVec 5) (src : Bytes) : State → Host.Outcome State Fault Refusal :=
  complete fun s => s.jobStart page.toNat 3 fun s d j =>
    let (s, n) := s.takeJobCtr
    let iv := padTo 16 (Config.aesBlock j.key (n ++ [0, 0, 0, 0]))
    let b := pkcsPad (padTo d.len src)
    (s, { j with iv := iv, data := cbcEncrypt j.key (b.length / 16) iv b })

def execCbcDec (page : BitVec 5) (src : Bytes) : State → Host.Outcome State Fault Refusal :=
  complete fun s => s.jobStart page.toNat 4 fun s d j =>
    (s, match pkcsUnpad (cbcDecrypt j.key (d.len / 16) d.iv (padTo d.len src)) with
      | some m => j.ends 0 m
      | none => j.ends 2 (List.replicate d.len 0))

def execCmacGen (page : BitVec 5) (src : Bytes) : State → Host.Outcome State Fault Refusal :=
  complete fun s => s.jobStart page.toNat 5 fun s d j =>
    (s, { j with data := padTo 16 (Config.cmac j.key (padTo d.len src)) })

def execCmacVer (page : BitVec 5) (src : Bytes) : State → Host.Outcome State Fault Refusal :=
  complete fun s => s.jobStart page.toNat 6 fun s d j =>
    (s, j.ends (if padTo 16 (Config.cmac j.key (padTo (d.len - 16) src)) = bytesAt src (d.len - 16) 16 then 0 else 1) [])

def execHmacGen (page : BitVec 5) (src : Bytes) : State → Host.Outcome State Fault Refusal :=
  complete fun s => s.jobStart page.toNat 7 fun s d j => (s, { j with data := hmac384 j.key (padTo d.len src) })

def execHmacVer (page : BitVec 5) (src : Bytes) : State → Host.Outcome State Fault Refusal :=
  complete fun s => s.jobStart page.toNat 8 fun s d j =>
    (s, j.ends (if hmac384 j.key (padTo (d.len - 48) src) = bytesAt src (d.len - 48) 48 then 0 else 1) [])

def execXtsEnc (page : BitVec 5) (src : Bytes) : State → Host.Outcome State Fault Refusal :=
  complete fun s => s.jobStart page.toNat 9 fun s d j =>
    (s, { j with data := padTo d.len (Config.xtsEnc j.key d.iv (padTo d.len src)) })

def execXtsDec (page : BitVec 5) (src : Bytes) : State → Host.Outcome State Fault Refusal :=
  complete fun s => s.jobStart page.toNat 10 fun s d j =>
    (s, { j with data := padTo d.len (Config.xtsDec j.key d.iv (padTo d.len src)) })

def Page.setKey (x : Page) (slot : Nat) (k : Option (Nat × Bytes)) : Page :=
  { x with keys := modifyAt (fun _ => k) slot x.keys }

/-- `DERIVE` loads the slot (R309). -/
def execDerive (page : BitVec 5) : State → Host.Outcome State Fault Refusal :=
  complete fun s => s.jobStart page.toNat 16 fun s d j =>
    (s.updPage page.toNat fun x => x.setKey d.slot (some (d.len, s.tru.jobKey page.toNat d.len d.iv)), j)

/-- `ERASE` zeroises the slot (R310). -/
def execJobErase (page : BitVec 5) : State → Host.Outcome State Fault Refusal :=
  complete fun s => s.jobStart page.toNat 17 fun s d j =>
    ((s.updPage page.toNat fun x => x.setKey d.slot none).raise 270 0 page.toNat d.slot 0, j)

/-- Writes a completion record (R305) and signals it (R304). Output bytes and record leave by DMA and in the ring. -/
def State.jobRecord (s : State) (p : Nat) (j : Job) (outLen : Nat) : State :=
  let x := s.page p
  let iv := padTo 16 j.iv
  let rec8 : List Word :=
    [BitVec.ofNat 32 (j.status * 2 ^ 24 + j.op * 2 ^ 16 + j.idx), j.tag, BitVec.ofNat 32 outLen, 0]
      ++ (List.range 4).map fun i => BitVec.ofNat 32 (beAt iv (4 * i) 4)
  let fault := j.status = 6 ∨ j.status = 7
  let s := s.updPage p fun x => { x with
    cq := sparseSetList (fun _ => 0) (8 * x.cqTail) rec8 x.cq
    cqTail := (x.cqTail + 1) % 16
    run := none
    jobs := wrapTo 16 (x.jobs + 1)
    faults := if fault then satTo 8 (x.faults + 1) else x.faults }
  let s := if fault then s.raiseItem 271 0 p 0 0 else s
  if j.irq && x.irqEn then s.signal (s.fldI Reg.TRU_PAGE_CTRL p 13 8) else s

/-- The output length of a record: 0 for an operation without output (R306); where another gave none it is not stated
(log 34). -/
def State.outLen (s : State) (j : Job) : Nat :=
  if j.status = 0 then j.data.length
  else if knownOp j.op && j.extent == 0 then 0
  else Config.freeNat s.freeCtr 34 % 2 ^ 32

/-- Ends a page's running job with a status; an opening job that ends so has its whole output zeroed (R308). -/
def State.jobAbort (s : State) (p : Nat) (j : Job) (status : Nat) : State :=
  let j := { j with status := status }
  let s := if j.opens && decide (status = 7 ∨ status = 8) then s.emit (.dma j.dst (List.replicate j.extent 0)) else s
  s.jobRecord p j (s.outLen j)

/-- `JOB_COMPLETE`: the job completes, by itself or because its DMA failed. A descriptor with an unknown operation, which
no other command runs, completes with `FORMAT` (R308, log 35). -/
def execJobComplete (page : BitVec 5) (dmaError : Bool) : State → Host.Outcome State Fault Refusal :=
  complete fun s =>
    let p := page.toNat
    let x := s.page p
    match x.run with
    | some j =>
      if dmaError && decide (j.status ≤ 2) && (j.op != 16 && j.op != 17) then s.jobAbort p j 7
      else (if j.data = [] then s else s.emit (.dma j.dst j.data)).jobRecord p j (s.outLen j)
    | none =>
      let d := x.desc x.sqHead
      if !s.jobReady p || knownOp d.op then s
      else
        let s := s.updPage p fun x => { x with sqHead := (x.sqHead + 1) % 16 }
        let j := d.job x.sqHead 0x0A []
        s.jobRecord p j (s.outLen j)

/-- `ERASED_ABORT`: a job that still uses an erased key is aborted (R310). -/
def execErasedAbort (page : BitVec 5) : State → Host.Outcome State Fault Refusal :=
  complete fun s =>
    match (s.page page.toNat).run with
    | some j => if j.erased then s.jobAbort page.toNat j 8 else s
    | none => s

/-- Erases slots of a page, each reported by event 270. -/
def State.eraseSlots (s : State) (p : Nat) : State :=
  (List.range 8).foldl (fun s i =>
    if ((s.page p).keys.getD i none).isSome then (s.updPage p fun x => x.setKey i none).raise 270 0 p i 0 else s) s

/-- The reset of a page (R311): `stays` tells that it stays enabled, so that it receives the aborted job's record. -/
def State.pageReset (s : State) (p : Nat) (stays : Bool) : State :=
  let s := match (s.page p).run with
    | some j => if stays then s.jobAbort p j 0x0B else s.updPage p fun x => { x with run := none }
    | none => s
  (s.eraseSlots p).updPage p fun x => { x with sqHead := 0, sqTail := 0, cqHead := 0, cqTail := 0 }

/-- Every job key slot is zeroised; running jobs keep their snapshots for at most 64 us (R296, R310). -/
def State.eraseJobKeys (s : State) : State :=
  (List.range 32).foldl (fun s p =>
    let running := (s.page p).run
    let held := (s.page p).held
    let s := s.eraseSlots p
    match running with
    | some j => if held = 0 then s else s.updPage p fun x => { x with run := some { j with erased := true } }
    | none => s) s

/-- A write of a page register or ring at a page offset (R304, R314). A disabled page ignores it (R303). -/
def State.pageWrite (s : State) (p off : Nat) (val : Word) : State :=
  if !s.pageEn p then s
  else if off = 0x004 then s.updPage p fun x => { x with sqTail := fieldOf val 3 0 }
  else if off = 0x008 then s.updPage p fun x => { x with cqHead := fieldOf val 3 0 }
  else if off = 0x010 then s.updPage p fun x => { x with irqEn := flagOf val 0 }
  else if 0x400 ≤ off ∧ off < 0x800 then
    s.updPage p fun x => { x with sq := sparseSet (fun _ => 0) ((off - 0x400) / 4) val x.sq }
  else s

/-- A read of a page register or ring (R304, R305, R314); the counter view is the reader's matter. -/
def State.pageRead (s : State) (p off : Nat) : Word :=
  let x := s.page p
  if !s.pageEn p then 0
  else if off = 0 then BitVec.ofNat 32 (b2n x.run.isSome * 256 + ((List.range 8).map fun i =>
    b2n (x.keys.getD i none).isSome * 2 ^ i).sum)
  else if off = 0x004 then BitVec.ofNat 32 (x.sqHead * 65536 + x.sqTail)
  else if off = 0x008 then BitVec.ofNat 32 (x.cqTail * 65536 + x.cqHead)
  else if off = 0x00C then BitVec.ofNat 32 ((List.range 8).map fun i =>
    (match x.keys.getD i none with | some k => k.1 | none => 0) * 16 ^ i).sum
  else if off = 0x010 then BitVec.ofNat 32 (b2n x.irqEn)
  else if 0x400 ≤ off ∧ off < 0x800 then sparseGet (fun _ => 0) x.sq ((off - 0x400) / 4)
  else if 0x800 ≤ off ∧ off < 0xA00 then sparseGet (fun _ => 0) x.cq ((off - 0x800) / 4)
  else 0

/-- `SQ_TAIL_WRITE`: advancing `TAIL` submits descriptors (R304). -/
def execSqTailWrite (page : BitVec 5) (tail : BitVec 4) : State → Host.Outcome State Fault Refusal :=
  complete fun s => s.pageWrite page.toNat 4 (BitVec.ofNat 32 tail.toNat)

/-! ### Register reads (R313) -/

/-- `TRU_GEN`. -/
def TruState.gen (t : TruState) : Nat :=
  let part (r : Region) : Nat := t.usedMask r * 16 + b2n (t.inForce r).isSome * 8 + (t.inForce r).getD 0
  let hybrid := match t.inForce ownerRegion with | some g => b2n (t.hybrid g) | none => 0
  part repairRegion * 2 ^ 24 + part bootRegion * 2 ^ 16 + (part ownerRegion + hybrid * 4) * 2 ^ 8

/-- The trust core's read-only registers: the value of a register that is computed, none for the others. -/
def State.truRead (s : State) (off : Nat) : Option Nat :=
  let t := s.tru
  let sel := s.fld Reg.TRU_OTP_SEL 8 0
  let word := if 4 ≤ sel ∧ sel ≤ 11 ∨ !t.ready then 0 else t.word sel
  let page := s.page (s.fld Reg.TRU_PAGE_SEL 4 0)
  if off = Reg.TRU_STATUS then
    some (b2n t.rngFail * 2 ^ 15 + b2n t.chain.isSome * 2 ^ 14 + b2n t.busy.isSome * 2 ^ 13 + b2n t.identBad * 2 ^ 12
      + b2n t.ready * 2 ^ 4 + t.lifecycle)
  else if off = Reg.TRU_RESULT then some (t.result * 2 ^ 24 + t.resOp * 2 ^ 16 + t.detail)
  else if Reg.TRU_ID0 ≤ off ∧ off < Reg.TRU_ID0 + 16 then
    some (if t.ready then beAt t.ident (off - Reg.TRU_ID0) 4 else 0)
  else if off = Reg.TRU_OTP_HI then some (word / 2 ^ 32)
  else if off = Reg.TRU_OTP_LO then some (word % 2 ^ 32)
  else if off = Reg.TRU_GEN then some (if t.ready then t.gen else 0)
  else if off = Reg.TRU_PAGE_STAT then
    some (page.jobs * 2 ^ 16 + page.faults * 2 ^ 8 + ((List.range 8).map fun i =>
      b2n (page.keys.getD i none).isSome * 2 ^ i).sum)
  else none

end Sys2Proof.Machine
end

