-- ==== Sys2Proof/Machine/Varrum.lean ====
section
/-!
DEFINITION. The Varrum channel of an encrypted path (R265 to R279): chunks and messages, the agreement, the derived keys,
NAKs, backoff and quarantine, and the commands that start agreements and erase keys.
-/
namespace Sys2Proof.Machine

/-! ### Messages (R271, R272) -/

/-- States of R276. -/
def vOff : Nat := 0
def vHello : Nat := 1
def vIKex : Nat := 2
def vIAuth : Nat := 3
def vRKex : Nat := 4
def vRAuth : Nat := 5
def vRDone : Nat := 6
def vEst : Nat := 7
def vBackoff : Nat := 8
def vQuar : Nat := 9

/-- A message with its header. -/
def vMsg (typ seq : Nat) (body : Bytes) : Bytes :=
  beBytes 1 typ ++ [1, 0, 0] ++ beBytes 2 seq ++ beBytes 2 body.length ++ body

def vType (m : Bytes) : Nat := beAt m 0 1

def vSeq (m : Bytes) : Nat := beAt m 4 2

def vBody (m : Bytes) : Bytes := m.drop 8

/-- Body length and reserved bytes of a message type (R272). -/
def vBodyOk (typ : Nat) (b : Bytes) : Bool :=
  let n := b.length
  match typ with
  | 1 => n == 56 && beAt b 0 1 / 4 == 0 && allZero (bytesAt b 1 3)
  | 2 => !(chainCerts b).isEmpty
  | 3 => n == 1285 && allZero (bytesAt b 2 2)
  | 4 => n == 1189 && allZero (bytesAt b 2 2)
  | 5 => n == 3453
  | 6 => n == 4 && allZero (bytesAt b 2 2)
  | 7 => n == 4
  | 8 => n == 4 && allZero (bytesAt b 2 2)
  | _ => false

/-- The form of a message apart from its version field (R278). -/
def vFormOk (m : Bytes) : Bool :=
  decide (8 ≤ m.length) && allZero (bytesAt m 2 2) && beAt m 6 2 + 8 == m.length && vBodyOk (vType m) (vBody m)

def State.vSend (s : State) (p : Path) (ms : List Bytes) : State :=
  ms.foldl (fun s m => (s.updCry p fun c => { c with txQ := c.txQ ++ [(m, true)] }).emit (.varrum p m)) s

/-! ### Conditions -/

/-- The channel is up, and a chain is installed (R276, R299). -/
def State.vUp (s : State) (p : Path) : Bool :=
  s.encrypted p && (s.lfr p).inSf && (s.path p).txd.running && s.tru.chain.isSome

/-- Whether the path has a transmit key in force. -/
def State.keyed (s : State) (p : Path) : Bool := anyKey (s.cry p).txKeys.tx

/-- Every next slot of the path is empty (R256). -/
def State.nextFree (s : State) (p : Path) : Bool := match (s.cry p).nextKeys with | some k => k.empty | none => false

/-- The device identifier in a HELLO. -/
def helloId (m : Bytes) : Bytes := bytesAt m 12 16

/-- Whether this end asks for an agreement (R273). -/
def State.vAgree (s : State) (p : Path) : Bool := !s.keyed p || (s.cry p).want

/-- This end's HELLO with a given random value (R272). -/
def State.vHelloMsg (s : State) (p : Path) (random : Bytes) : Bytes :=
  vMsg 1 0 (beBytes 1 (b2n (s.vAgree p) + 2 * b2n (s.keyed p)) ++ [0, 0, 0] ++ s.tru.ident ++ padTo 32 random
    ++ beBytes 2 (s.mstPath p).tx.key.toNat ++ beBytes 2 (s.mstPath p).rx.key.toNat)

/-- The new epoch of an agreement: one above the larger transmit epoch, skipping 0 (R273). -/
def nextEpoch (own peer : Nat) : Nat := let e := max own peer + 1; if 65536 ≤ e then 1 else e

def rowIdx (p : Path) : Nat := 7 + pathNum p

/-- Whether an attempt is in progress: it has its grant or its request, or it exchanges keys. -/
def State.attempting (s : State) (p : Path) : Bool :=
  let c := s.cry p
  decide (2 ≤ c.state ∧ c.state ≤ 6) || c.rowWait || s.grantOf (rowIdx p) != 0

/-! ### Starting and ending an attempt (R268, R273, R276) -/

/-- The secrets of an attempt are zeroised, and its grant or request returned (R268, R274). -/
def State.vWipe (s : State) (p : Path) : State :=
  let s := s.updCry p fun c => { c with
    ecdhKey := [], kemSeed := [], prk := [], th := [], reply := none, resends := 0, rxNext := 0, rowWait := false,
    certOwn := [], certPeer := [], kexInit := [], kexResp := [] }
  (s.rowWithdraw (rowIdx p)).setGrant (rowIdx p) 0

/-- The attempt in progress, if any, is abandoned with event 201 (R276, R279). -/
def State.vAbandon (s : State) (p : Path) (reason : Nat) : State :=
  let s := if s.attempting p then
    (s.updCry p fun c => { c with failCnt := wrapTo 16 (c.failCnt + 1) }).raise 201 0 (contKey p 0) reason 0 else s
  s.vWipe p

/-- A failed attempt backs off for `RETRY` s, or 60 s after the long reasons; `extra` ms come on top (R276, R279). -/
def State.vFail (s : State) (p : Path) (reason extra : Nat) : State :=
  let retry := 1000 * s.fldI Reg.CRY_POLICY (pathNum p) 15 12
  let long := 4 ≤ reason ∧ reason ≤ 6
  let s := (s.updCry p fun c => { c with failCnt := wrapTo 16 (c.failCnt + 1) }).raise 201 0 (contKey p 0) reason 0
  (s.vWipe p).updCry p fun c => { c with state := vBackoff, backoff := (if long then 60000 else retry) + extra }

/-- State 1 is entered with a fresh random value, and HELLO is sent (R273, R276). -/
def State.vEnterHello (s : State) (p : Path) (held : Option Bytes) : State :=
  let (s, random) := (s.vWipe p).draw 32
  let h := s.vHelloMsg p random
  let s := s.updCry p fun c => { c with state := vHello, hello := h, peerHello := held, lastSent := [h], sent := [h] }
  s.vSend p [h]

/-- The initiator's offer is prepared (R273). -/
def State.vOffer (s : State) (p : Path) (peer : Bytes) : State :=
  let e := nextEpoch (s.mstPath p).tx.key.toNat (beAt peer 60 2)
  let (s, priv) := s.draw 48
  let (s, seed) := s.draw 64
  let cert := vMsg 2 1 (s.tru.chain.getD [])
  let kex := vMsg 3 2 (beBytes 2 e ++ [0, 0] ++ padTo 97 (Config.ecPublic priv) ++ padTo 1184 (Config.kemPublic seed))
  s.updCry p fun c => { c with
    responder := false, peerOk := false, epoch := e, ecdhKey := priv, kemSeed := seed, certOwn := cert, kexInit := kex
    rxNext := 1, resends := 0, reply := some ([cert, kex], vIKex) }

/-- Sends a NAK of a message (R278). -/
def State.vNak (s : State) (p : Path) (reason : Nat) (m : Bytes) : State :=
  (s.updCry p fun c => { c with nakTx := reason }).vSend p
    [vMsg 7 0xFFFF (beBytes 1 reason ++ beBytes 1 (vType m) ++ beBytes 2 (vSeq m))]

/-- The attempt fails here with a NAK to the peer. -/
def State.vReject (s : State) (p : Path) (reason : Nat) (m : Bytes) : State := (s.vNak p reason m).vFail p reason 0

/-- With the grant held, the attempt begins: the roles are fixed by the identifiers (R273), and `PIN` applies as it stands
(R281). -/
def State.vRoles (s : State) (p : Path) : State :=
  let c := s.cry p
  match c.peerHello with
  | none => s
  | some h =>
    let s := s.updCry p fun c => { c with pin := s.fldI Reg.CRY_POLICY (pathNum p) 8 8 == 1 }
    let own := beNat s.tru.ident
    let peer := beNat (helloId h)
    if c.state ≠ vHello ∨ c.reply.isSome then s
    else if own = peer then s.vReject p 0x05 h
    else if own < peer then s.vOffer p h
    else s.updCry p fun c => { c with state := vRKex, responder := true, peerOk := false, rxNext := 1, resends := 0 }

/-- The request was denied or timed out (R268). -/
def State.vDenied (s : State) (p : Path) : State :=
  let c := s.cry p
  let s := s.raise 204 0 (contKey p 0) 0 0
  let s := match c.peerHello with
    | some h => if (beAt h 8 1).testBit 0 && !s.vAgree p then s.vNak p 0x0A h else s
    | none => s
  s.vFail p 0x0A 0

/-- The attempt asks for its grant (R268); `RNG_FAIL` counts as a denial (R301). -/
def State.vRequest (s : State) (p : Path) : State :=
  if s.grantOf (rowIdx p) ≠ 0 then s.vRoles p
  else if (s.cry p).rowWait then s
  else if s.tru.rngFail then s.vDenied p
  else match s.rowAnswer 150 with
    | .granted => (s.addGrant (rowIdx p) 150).vRoles p
    | .queued => (s.enqueue (rowIdx p) 150).updCry p fun c => { c with rowWait := true }
    | .denied => (s.noteDenied (rowIdx p)).vDenied p

/-- Late answers of the governor. -/
def State.vGranted (s : State) (p : Path) : State :=
  ((s.updCry p fun c => { c with rowWait := false }).addGrant (rowIdx p) 150).vRoles p

def State.vRefused (s : State) (p : Path) : State := (s.updCry p fun c => { c with rowWait := false }).vDenied p

/-- In state 1 with a peer HELLO held, an attempt starts when either HELLO asks for it and every next slot is empty
(R256, R273). -/
def State.vTry (s : State) (p : Path) : State :=
  let c := s.cry p
  match c.peerHello with
  | none => s
  | some h =>
    if c.state = vHello && c.reply.isNone && s.nextFree p && ((beAt h 8 1).testBit 0 || s.vAgree p)
    then s.vRequest p else s

/-- An attempt that this end wants starts at once where it can (R256, R267). -/
def State.vStart (s : State) (p : Path) : State :=
  let s := s.updCry p fun c => { c with want := true }
  if !s.nextFree p then s
  else if (s.cry p).state = vEst then ((s.vEnterHello p none).vRequest p)
  else if (s.cry p).state = vHello then s.vTry p
  else s

/-! ### The channel and the quarantine (R276, R279) -/

/-- Follows the up condition and the quarantine of the peer channel. -/
def State.vFollow (s : State) (p : Path) : State :=
  let c := s.cry p
  if !s.vUp p then
    (if c.state = vOff then s else (s.vAbandon p 0).updCry p fun c => { c with state := vOff, txQ := [] })
  else if (s.lfr p).quarantine then
    (if c.state = vQuar then s else (s.vAbandon p 0).updCry p fun c => { c with state := vQuar })
  else if c.state = vOff ∨ c.state = vQuar then s.vEnterHello p none
  else s

/-! ### Key derivation and loading (R255, R274) -/

/-- The two halves' keys of a role, for all 256 containers. -/
def lineKeys (prk : Bytes) (role e : Nat) : List (Option Bytes) :=
  (List.range 256).map fun c =>
    some (padTo 36 (hkdfExpand prk (ascii "ARLK" ++ beBytes 1 role ++ beBytes 2 e ++ beBytes 1 c) 36))

def roleI : Nat := 0x49
def roleR : Nat := 0x52

/-- The finished value of a role. -/
def finishedValue (prk th : Bytes) (role : Nat) : Bytes :=
  hmac384 (hkdfExpand prk (ascii "ARFK" ++ beBytes 1 role) 48) th

/-- The transcript hash and PRK of an attempt, given the shared secrets. -/
def CryState.derive (c : CryState) (z k : Bytes) : CryState :=
  let peer := c.peerHello.getD []
  let (hi, hr) := if c.responder then (peer, c.hello) else (c.hello, peer)
  let (ci, cr) := if c.responder then (c.certPeer, c.certOwn) else (c.certOwn, c.certPeer)
  let th := sha384 (hi ++ hr ++ ci ++ c.kexInit ++ cr ++ c.kexResp)
  { c with th := th, prk := hkdfExtract th (padTo 48 z ++ padTo 32 k) }

/-- This end's AUTH. -/
def State.vAuthMsg (s : State) (p : Path) : Bytes :=
  let c := s.cry p
  let role := if c.responder then roleR else roleI
  let m := ascii "ARVA" ++ beBytes 1 role ++ c.th
  vMsg 5 3 (padTo 96 (Config.ecdsaSign s.tru.ecKey m s.freeCtr) ++ padTo 3309 (Config.mldsaSign s.tru.mlKey m s.freeCtr)
    ++ finishedValue c.prk c.th role)

/-- The reason to refuse the peer's AUTH, 0 where it verifies (R275, R278). -/
def CryState.authBadness (c : CryState) (b : Bytes) : Nat :=
  let role := if c.responder then roleI else roleR
  let m := ascii "ARVA" ++ beBytes 1 role ++ c.th
  let keys := chainKeys (vBody c.certPeer)
  if !Config.ecdsaVerify keys.1 m (b.take 96) || !Config.mldsaVerify keys.2 m (bytesAt b 96 3309) then 3
  else if bytesAt b 3405 48 ≠ finishedValue c.prk c.th role then 8
  else 0

/-- Loads the next slots, which stages kind 1 with the new epoch (R255). -/
def State.vLoad (s : State) (p : Path) : State :=
  let c := s.cry p
  let (own, peer) := if c.responder then (roleR, roleI) else (roleI, roleR)
  let k : KeySet := ⟨BitVec.ofNat 16 c.epoch, BitVec.ofNat 16 c.epoch, lineKeys c.prk own c.epoch, lineKeys c.prk peer c.epoch⟩
  let s := s.updCry p fun c => { c.setNext k with
    peerOk := true, peerSeen := (match c.peerHello with | some h => helloId h | none => c.peerSeen) }
  s.stage p 1 (BitVec.ofNat 16 c.epoch)

/-- Frames that have been sent under the transmit key before the present one: its age at the present frame's start, since
the count takes in the frame in progress. -/
def State.keyAge (s : State) (p : Path) : Nat := (s.cry p).txAge - b2n (s.path p).txd.running

/-- Frames from the present frame to the due frame of the active transmit key (R265). -/
def State.dueDistance (s : State) (p : Path) : Nat :=
  let interval := 2 ^ s.fldI Reg.CRY_POLICY (pathNum p) 5 0
  min (interval - s.keyAge p) (2 ^ 48 - s.txFc)

/-- Adds the complex's kind 1 entry (R265 to R267). A full queue leaves it without one (log 37). -/
def State.vEntry (s : State) (p : Path) : State :=
  let least := s.now + 4 * superframes64
  let due := ceilDiv (s.boundaryTime + s.dueDistance p * s.mst.period.1 / max 1 s.mst.period.2) oneNs
  let t := if (s.cry p).rekeyRun && s.keyed p then max due least else least
  let n : NewEntry := ⟨t / 1000000000, t % 1000000000, false, p == .a, p == .b, 2, .crypto, 0, none⟩
  (s.addEntry n).1

/-- The agreement is complete at this end: entry, state 7, event 200 (R273). The peer's HELLO has been answered. -/
def State.vDone (s : State) (p : Path) : State :=
  let e := (s.cry p).epoch
  let s := (s.vEntry p).raise 200 0 (contKey p 0) e 0
  (s.vWipe p).updCry p fun c => { c with
    state := vEst, want := false, rekeyRun := false, byAge := false, peerHello := none
    doneCnt := wrapTo 16 (c.doneCnt + 1), rxNext := if c.responder then 5 else 4 }

/-! ### Received messages (R273 to R278) -/

/-- A peer protocol violation with a NAK (R216, R278). -/
def State.vFault (s : State) (p : Path) (code reason : Nat) (m : Bytes) : State := (s.violation p code).vNak p reason m

/-- In state 7 an attempt starts where this end asks for one, or the peer's HELLO does, and every next slot is empty (R256,
R273, R276). One that the far end starts is not the one of the due frame (R267). -/
def State.vAnswer (s : State) (p : Path) : State :=
  let c := s.cry p
  let far := match c.peerHello with | some x => (beAt x 8 1).testBit 0 | none => false
  if (far || s.vAgree p) && s.nextFree p then
    ((s.updCry p fun c => { c with rekeyRun := c.rekeyRun && !far }).vEnterHello p c.peerHello).vRequest p
  else s

/-- A received HELLO (R273, R275): one that differs from the peer last seen raises event 203 and starts an attempt, one
with a new random value restarts it, and a repeat of the peer's last message is answered by the reply already given
(R276). -/
def State.vOnHello (s : State) (p : Path) (m : Bytes) : State :=
  let c := s.cry p
  let id := helloId m
  let s := if id == c.peerSeen then s
    else (s.raise 203 0 (contKey p 0) 0 0).updCry p fun c => { c with want := true, byAge := false }
  let newRandom := match c.peerHello with | some h => bytesAt h 28 32 != bytesAt m 28 32 | none => true
  if c.state = vHello && c.reply.isNone then (s.updCry p fun c => { c with peerHello := some m }).vTry p
  else if c.state = vEst then (s.updCry p fun c => { c with peerHello := some m }).vAnswer p
  else if newRandom then (((s.vAbandon p 0).vEnterHello p (some m)).vTry p)
  else if c.rxNext = 1 ∧ c.reply.isNone ∧ 2 ≤ c.state ∧ c.state ≤ 6 then s.vSend p c.lastSent
  else s

/-- A received CERT: the certificate and the pin (R275). -/
def State.vOnCert (s : State) (p : Path) (m : Bytes) : State :=
  let c := s.cry p
  let id := match c.peerHello with | some h => helloId h | none => []
  let pin := (List.range 4).flatMap fun i => beBytes 4 (s.regI (Reg.CRY_PEER_PIN0 + 4 * i) (pathNum p)).toNat
  if !chainValid (vBody m) id then (s.violation p 8).vReject p 4 m
  else if c.pin ∧ id ≠ pin then s.vReject p 5 m
  else s.updCry p fun c => { c with certPeer := m, rxNext := 2 }

/-- The responder's answer to KEX_INIT (R273). -/
def State.vOnKexInit (s : State) (p : Path) (m : Bytes) : State :=
  let c := s.cry p
  let e := beAt m 8 2
  let want := nextEpoch (s.mstPath p).tx.key.toNat (match c.peerHello with | some h => beAt h 60 2 | none => 0)
  let (s, priv) := s.draw 48
  if e = 0 ∨ e ≠ want then s.vReject p 9 m
  else match Config.ecdh priv (bytesAt m 12 97) with
    | none => (s.violation p 6).vReject p 7 m
    | some z =>
      let (ct, k) := Config.kemEncaps (bytesAt m 109 1184) s.freeCtr
      let cert := vMsg 2 1 (s.tru.chain.getD [])
      let resp := vMsg 4 2 (beBytes 2 e ++ [0, 0] ++ padTo 97 (Config.ecPublic priv) ++ padTo 1088 ct)
      s.updCry p fun c =>
        let c := { c with epoch := e, ecdhKey := priv, certOwn := cert, kexInit := m, kexResp := resp, rxNext := 3 }
        { c.derive z k with reply := some ([cert, resp], vRAuth), resends := 0 }

/-- The initiator's AUTH after KEX_RESP (R273). -/
def State.vOnKexResp (s : State) (p : Path) (m : Bytes) : State :=
  let c := s.cry p
  if beAt m 8 2 ≠ c.epoch then s.vReject p 9 m
  else match Config.ecdh c.ecdhKey (bytesAt m 12 97) with
    | none => (s.violation p 6).vReject p 7 m
    | some z =>
      let s := s.updCry p fun c =>
        { c with kexResp := m, rxNext := 3 }.derive z (Config.kemDecaps c.kemSeed (bytesAt m 109 1088))
      s.updCry p fun c => { c with reply := some ([s.vAuthMsg p], vIAuth), resends := 0 }

/-- A received AUTH: both ends verify it and load their next slots (R273). Slots that have come into use since the start
are not loaded: the attempt then fails (R255; DESIGN CHOICE, log 140). -/
def State.vOnAuth (s : State) (p : Path) (m : Bytes) : State :=
  let c := s.cry p
  match c.authBadness (vBody m) with
  | 0 =>
    if !s.nextFree p then s.vReject p 0x0A m
    else
    let s := s.vLoad p
    let reply := if c.responder then ([s.vAuthMsg p], vRDone) else ([vMsg 6 4 (beBytes 2 c.epoch ++ [0, 0])], vEst)
    s.updCry p fun c => { c with rxNext := 4, reply := some reply, resends := 0 }
  | reason => (s.violation p 8).vReject p reason m

/-- A received DONE: the responder's rollover (R273). -/
def State.vOnDone (s : State) (p : Path) (m : Bytes) : State :=
  if beAt m 8 2 ≠ (s.cry p).epoch then s.vReject p 9 m
  else s.vDone p

/-- The state in which a sequenced message of a type is expected, by role (R276). -/
def vExpected (state seq typ : Nat) : Bool :=
  match state, typ with
  | 2, 2 => seq == 1
  | 2, 4 => seq == 2
  | 3, 5 => seq == 3
  | 4, 2 => seq == 1
  | 4, 3 => seq == 2
  | 5, 5 => seq == 3
  | 6, 6 => seq == 4
  | _, _ => false

/-- The sequence number that a message type carries in an attempt (R271). -/
def vTypeSeq (typ : Nat) : Nat := match typ with | 1 => 0 | 2 => 1 | 3 => 2 | 4 => 2 | 5 => 3 | _ => 4

/-- A received CERT, KEX_INIT, KEX_RESP, AUTH or DONE. A repeat is no violation; a repeat of the last one is answered by
the reply already given, which is none for a DONE (R276). -/
def State.vSequenced (s : State) (p : Path) (m : Bytes) : State :=
  let c := s.cry p
  let typ := vType m
  let seq := vSeq m
  if seq < c.rxNext ∧ seq = vTypeSeq typ ∧ 2 ≤ c.state ∧ c.state ≤ 7 then
    (if c.reply.isSome || seq + 1 != c.rxNext || typ == 6 then s else s.vSend p c.lastSent)
  else if seq ≠ c.rxNext || !vExpected c.state seq typ || c.reply.isSome then s.vFault p 7 2 m
  else match typ with
    | 2 => s.vOnCert p m
    | 3 => s.vOnKexInit p m
    | 4 => s.vOnKexResp p m
    | 5 => s.vOnAuth p m
    | _ => s.vOnDone p m

/-- A received NAK: reasons 1 and 2 have the message that it names sent again (R278). -/
def State.vOnNak (s : State) (p : Path) (m : Bytes) : State :=
  let reason := beAt m 8 1
  let c := s.cry p
  let s := (s.updCry p fun c => { c with nakRx := reason }).raise 202 0 (contKey p 0) reason 0
  if reason = 1 ∨ reason = 2 then
    s.vSend p (c.sent.filter fun x => vType x == beAt m 9 1 && vSeq x == beAt m 10 2)
  else if s.attempting p || c.state == vHello then s.vFail p reason 0
  else s

/-- A received QUARANTINE (R279). -/
def State.vOnQuarantine (s : State) (p : Path) (m : Bytes) : State :=
  if s.attempting p || (s.cry p).state == vHello then s.vFail p 0 (beAt m 8 2) else s

/-- The quarantine notice with the remaining time in ms (R279). -/
def State.vQuarNotice (s : State) (p : Path) : Bytes :=
  let gone := (s.upNs - (s.lfr p).quarAt) / 1000000
  vMsg 8 0xFFFF (beBytes 2 (1000 - gone) ++ [0, 0])

/-- The violation that a message is where the state expects none: malformed, or out of order, which every sequenced message
then is (R216, R278). A HELLO with another version is none. -/
def State.vUnexpected (s : State) (p : Path) (m : Bytes) : State :=
  let typ := vType m
  let ver := beAt m 1 1 = 1
  if !(vFormOk m && (ver || typ == 1)) then s.violation p vMalformed
  else if (2 ≤ typ ∧ typ ≤ 6) ∨ (typ = 1 ∧ vSeq m ≠ 0) then s.violation p vOrder
  else s

/-- A complete message of the peer. States 0 and 8 send nothing but idle chunks, and state 9 answers with QUARANTINE
(R276). -/
def State.varrumMsg (s : State) (p : Path) (m : Bytes) : State :=
  let s := s.vFollow p
  let c := s.cry p
  let typ := vType m
  let ver := beAt m 1 1 = 1
  let form := vFormOk m
  let act : State → State := fun s =>
    if c.state = vOff ∨ c.state = vBackoff then s.vUnexpected p m
    else if c.state = vQuar then (s.vUnexpected p m).vSend p [s.vQuarNotice p]
    else if typ = 7 then (if ver && form then s.vOnNak p m else s.violation p 6)
    else if !ver && typ == 1 then
      (if s.attempting p || c.state == vHello then s.vReject p 6 m else s.vNak p 6 m)
    else if !ver || !form then s.vFault p 6 1 m
    else if typ = 8 then s.vOnQuarantine p m
    else if typ = 1 then (if vSeq m = 0 then s.vOnHello p m else s.vFault p 7 2 m)
    else s.vSequenced p m
  (act s).vFollow p

/-- A message of one type arrives: the commands name the type. -/
def State.vReceive (s : State) (p : Path) (typ : Nat) (m : Bytes) : State := if vType m = typ then s.varrumMsg p m else s

/-- One received chunk (R270, R214). -/
def State.varrumRx (s : State) (p : Path) (ov : Bytes) (frameOk : Bool) : State :=
  let chunk := bytesAt ov 896 256
  let h := beAt chunk 0 1
  let n := beAt chunk 2 2
  let data := h.testBit 7
  let ok := frameOk && crcOk chunk 0 254 && !(data && (n == 0 || decide (250 < n)))
  let drop (s : State) : State := s.updCry p fun c => { c with rxMsg := none }
  if !ok then drop s
  else if !data then s
  else
    let old := if h.testBit 6 then some [] else (s.cry p).rxMsg
    match old with
    | none => s
    | some m =>
      let m := m ++ bytesAt chunk 4 n
      if 16384 < m.length then drop s
      else if h.testBit 5 then (drop s).varrumMsg p m
      else s.updCry p fun c => { c with rxMsg := some m }

/-- The chunk of the next transmitted frame (R270). -/
def State.varrumTx (s : State) (p : Path) : State × Bytes :=
  let chunk (flags n : Nat) (data : Bytes) : Bytes :=
    let b := beBytes 1 flags ++ [0] ++ beBytes 2 n ++ padTo 250 data
    b ++ beBytes 2 (crc16 b)
  match (s.cry p).txQ with
  | [] => (s, chunk 0 0 [])
  | (m, first) :: rest =>
    let last := decide (m.length ≤ 250)
    (s.updCry p fun c => { c with txQ := if last then rest else (m.drop 250, false) :: rest },
     chunk (128 + 64 * b2n first + 32 * b2n last) (min 250 m.length) (m.take 250))

/-! ### The commands -/

def execHello (p : Path) (msg : Bytes) : State → Host.Outcome State Fault Refusal := complete fun s => s.vReceive p 1 msg

def execCert (p : Path) (msg : Bytes) : State → Host.Outcome State Fault Refusal := complete fun s => s.vReceive p 2 msg

def execKexInit (p : Path) (msg : Bytes) : State → Host.Outcome State Fault Refusal :=
  complete fun s => s.vReceive p 3 msg

def execKexResp (p : Path) (msg : Bytes) : State → Host.Outcome State Fault Refusal :=
  complete fun s => s.vReceive p 4 msg

def execAuth (p : Path) (msg : Bytes) : State → Host.Outcome State Fault Refusal := complete fun s => s.vReceive p 5 msg

def execDone (p : Path) (msg : Bytes) : State → Host.Outcome State Fault Refusal := complete fun s => s.vReceive p 6 msg

def execNak (p : Path) (msg : Bytes) : State → Host.Outcome State Fault Refusal := complete fun s => s.vReceive p 7 msg

def execQuarantine (p : Path) (msg : Bytes) : State → Host.Outcome State Fault Refusal :=
  complete fun s => s.vReceive p 8 msg

/-- `VARRUM_REPLY_READY`: the prepared messages are sent, and the state that sending them enters is taken (R276, R277). -/
def execVarrumReplyReady (p : Path) : State → Host.Outcome State Fault Refusal :=
  complete fun s =>
    let s := s.vFollow p
    match (s.cry p).reply with
    | none => s
    | some (ms, next) =>
      let s := (s.vSend p ms).updCry p fun c =>
        { c with reply := none, lastSent := ms, sent := c.sent ++ ms, state := next }
      if next = vEst then s.vDone p else s

/-- `HELLO_TIMER`: HELLO is sent again, and a held request that can now be answered is (R256, R276). -/
def execHelloTimer (p : Path) : State → Host.Outcome State Fault Refusal :=
  complete fun s =>
    let s := s.vFollow p
    let c := s.cry p
    if (c.state = vHello ∧ c.reply.isNone) ∨ c.state = vEst then
      let h := s.vHelloMsg p (bytesAt c.hello 28 32)
      let s := (s.updCry p fun c => { c with
        hello := h, lastSent := if c.state = vHello then [h] else c.lastSent
        sent := h :: c.sent.filter fun x => vType x != 1 }).vSend p [h]
      if c.state = vHello then s.vTry p
      else s.vAnswer p
    else s

/-- `T_RESP_EXPIRY`: the last messages are sent again, at most three times (R276). -/
def execTRespExpiry (p : Path) : State → Host.Outcome State Fault Refusal :=
  complete fun s =>
    let s := s.vFollow p
    let c := s.cry p
    if c.state < 2 || decide (6 < c.state) || c.reply.isSome then s
    else if c.resends < 3 then (s.updCry p fun c => { c with resends := c.resends + 1 }).vSend p c.lastSent
    else (s.updCry p fun c => { c with nakRx := 0x0B }).vFail p 0x0B 0

/-- `BACKOFF_END` (R276). -/
def execBackoffEnd (p : Path) : State → Host.Outcome State Fault Refusal :=
  complete fun s =>
    let s := s.vFollow p
    if (s.cry p).state = vBackoff then s.vEnterHello p none else s

/-- `QUARANTINE_END`: 1 s has passed; the channel goes back to HELLO (R217, R279). -/
def execQuarantineEnd (p : Path) : State → Host.Outcome State Fault Refusal :=
  complete fun s => if (s.lfr p).quarantine then (s.quarantineOver p).vFollow p else s

/-- `REKEY_DUE`: 2^22 frames remain before the due frame (R265). -/
def execRekeyDue (p : Path) : State → Host.Outcome State Fault Refusal :=
  complete fun s =>
    if s.encrypted p && s.keyed p && s.nextFree p && !(s.cry p).want && decide (s.dueDistance p ≤ 2 ^ 22) then
      (s.updCry p fun c => { c with rekeyRun := true, byAge := true }).vStart p
    else s

/-- A write of `REKEY_EXP` has changed the due frame (R266): an agreement starts at once, with its entry at staging plus
256 superframes, or one that only the key's age asked for and that has not started is postponed. -/
def State.rekeyExpWritten (s : State) (p : Path) : State :=
  if !(s.encrypted p && s.keyed p) then s
  else if s.dueDistance p ≤ 2 ^ 22 then
    (s.updCry p fun c => { c with rekeyRun := false, byAge := c.byAge || !c.want }).vStart p
  else if (s.cry p).byAge && !s.attempting p then
    s.updCry p fun c => { c with rekeyRun := false, byAge := false, want := false }
  else s

/-- `REKEY_NOW`: its agreement is not the one of the due frame (R267). -/
def State.rekeyNow (s : State) (p : Path) : State :=
  if s.encrypted p then (s.updCry p fun c => { c with rekeyRun := false, byAge := false }).vStart p else s

end Sys2Proof.Machine
end

