-- ==== Sys2Proof/Machine/Scheduler.lean ====
section
/-!
DEFINITION. The scheduler (14_scheduling.md): policers, queues and the packet buffer, shapers and the calendar, the
service of a container, time gates and samples. Times are scheduler time in units of 2^-16 ns.
-/
namespace Sys2Proof.Machine

/-! ### Entries of tables 0x0E00 and 0x0E01 (R348, R354) -/

def polTable : Nat := 0x0E00
def queueTable : Nat := 0x0E01
def gateTable (p : Path) : Nat := 0x0E02 + pathNum p

/-- A policer entry. -/
structure PolEntry where
  valid  : Bool
  fleam  : Bool
  remark : Bool
  excCls : Nat
  burst  : Nat
  rate   : Nat
  deriving DecidableEq, Repr

def polOf (w0 w1 : Word) : PolEntry :=
  ⟨flagOf w0 31, flagOf w0 30, flagOf w0 29, fieldOf w0 27 24, fieldOf w0 23 0, w1.toNat⟩

def State.polEntry (s : State) (i : Nat) : PolEntry :=
  if s.entryOk polTable (4 * i) 4 then polOf (s.tblWord polTable (4 * i)) (s.tblWord polTable (4 * i + 1)) else polOf 0 0

/-- A queue entry. -/
structure QEnt where
  enabled : Bool
  band    : Nat
  weight  : Nat
  limit   : Nat
  byteTime : Nat
  burst   : Nat
  deriving DecidableEq, Repr

def queueOf (w0 w1 w2 : Word) : QEnt :=
  ⟨flagOf w0 31, fieldOf w0 25 24, fieldOf w0 23 16, fieldOf w0 15 0, w1.toNat, fieldOf w2 31 8⟩

def State.queueEnt (s : State) (q : Nat) : QEnt :=
  if s.entryOk queueTable (4 * q) 4 then
    queueOf (s.tblWord queueTable (4 * q)) (s.tblWord queueTable (4 * q + 1)) (s.tblWord queueTable (4 * q + 2))
  else queueOf 0 0 0

def State.setSch (s : State) (f : SchState → SchState) : State := { s with sch := f s.sch }

/-- Scheduler time moves on to `t`; it never runs back. -/
def State.schedAt (s : State) (t : Nat) : State := s.setSch fun x => { x with time := max x.time t }

def State.pol (s : State) (i : Nat) : PolState := sparseGet (fun _ => freshPol) s.sch.pols i

def State.updPol (s : State) (i : Nat) (f : PolState → PolState) : State :=
  s.setSch fun x => { x with pols := sparseSet (fun _ => freshPol) i (f (s.pol i)) x.pols }

def State.queue (s : State) (q : Nat) : QState := sparseGet (fun _ => freshQueue) s.sch.queues q

def State.updSchQueue (s : State) (q : Nat) (f : QState → QState) : State :=
  s.setSch fun x => { x with queues := sparseSet (fun _ => freshQueue) q (f (s.queue q)) x.queues }

/-- Queue number of a container and class (R354). -/
def queueNum (p : Path) (c cls : Nat) : Nat := 4096 * pathNum p + 16 * c + cls % 16

/-! ### Policing (R349 to R353) -/

/-- Scheduler time of one tick: 8,192 ns. -/
def tickTime : Nat := 8192 * 65536

/-- What a policer answers for a packet of `len` bytes that arrived at `t`, and its next state (R350, R351). -/
def police (e : PolEntry) (x : PolState) (t len : Nat) : PolState × Bool :=
  if e.fleam then
    let n := t / tickTime - x.lastTick
    let x := if 0 < n then { x with tokens := min (64 * e.burst) (x.tokens + n * (e.rate % 0x1000000)), lastTick := x.lastTick + n } else x
    if 64 * len ≤ x.tokens then ({ x with tokens := x.tokens - 64 * len }, true) else (x, false)
  else
    let el := max x.tat t
    if e.burst * e.rate < el + len * e.rate - t then (x, false) else ({ x with tat := el + len * e.rate }, true)

/-- A policer starts full when its entry becomes valid or changes mode (R350, R351, R353). -/
def State.polStart (s : State) (e : PolEntry) : PolState :=
  { freshPol with tokens := if e.fleam then 64 * e.burst else 0, lastTick := if e.fleam then s.sch.time / tickTime else 0 }

/-- A policer entry has changed from `old` (R353). -/
def State.polChanged (s : State) (i : Nat) (old : PolEntry) : State :=
  let e := s.polEntry i
  if !e.valid then s
  else if !old.valid || old.fleam != e.fleam then
    let n := s.polStart e
    s.updPol i fun x => { n with conf := x.conf, exc := x.exc }
  else if e.fleam then s.updPol i fun x => { x with tokens := min x.tokens (64 * e.burst) }
  else s

/-! ### The packet buffer and the calendar (R355 to R358) -/

def totalCells : Nat := 180224

/-- Cells of a packet of `len` bytes. -/
def cellsOf (len : Nat) : Nat := ceilDiv (len + 16) 256

def QState.cells (x : QState) : Nat := (x.pkts.map fun k => cellsOf k.data.length).sum

/-- The lowest `n` cells that no queued packet takes (log 147). -/
def State.freeCells (s : State) (n : Nat) : List Nat :=
  let used := s.sch.queues.flatMap fun e => e.2.pkts.flatMap fun k => k.cells
  ((List.range (used.length + n)).filter fun c => !used.contains c).take n

/-- The words of the packet buffer SRAM that a packet takes: its descriptor of 16 bytes and its own (R355). -/
def QPkt.words (k : QPkt) : List (Nat × Nat) :=
  let w := ceilDiv (k.data.length + 16) 8
  (k.cells.zip (List.range k.cells.length)).map fun c => (32 * c.1, min 32 (w - 32 * c.2))

/-- A queued packet's words are written (R355, R402). -/
def State.cellsWrite (s : State) (k : QPkt) : State := k.words.foldl (fun s r => s.sramPut r.1 r.2) s

/-- A packet is read from its cells: its words in error are counted, and whether one is uncorrectable (R403). -/
def State.cellsRead (s : State) (k : QPkt) : State × Bool :=
  let bad := s.mem.sramUpset.filter fun e => k.words.any fun r => decide (r.1 ≤ e.1 ∧ e.1 < r.1 + r.2)
  (bad.foldl (fun s e => s.noteSram 0 e.1 e.2) s, bad.any fun e => decide (2 ≤ e.2))

/-- Bytes of a packet's unit (R357). -/
def unitBytes (len : Nat) : Nat := 8 + 8 * ceilDiv len 8

/-- Width of a calendar bin (R358). -/
def State.binWidth (s : State) : Nat := 4 * 2 ^ s.fld Reg.SCH_CTRL 2 0 * 65536

/-- The calendar begins at the bin that starts at or after scheduler time, as an image takes force (R358). -/
def State.binsStart (s : State) : State := s.setSch fun y => { y with calPos := ceilDiv y.time s.binWidth }

def State.inCalendar (s : State) (q : Nat) : Bool := s.sch.cal.any fun e => e.queue == q

/-- Whether a queue is eligible (R357, R358). -/
def State.eligible (s : State) (q : Nat) : Bool :=
  (s.queueEnt q).byteTime == 0 || (!s.inCalendar q && decide ((s.queue q).elig ≤ s.sch.time))

/-- A backlogged queue that is not eligible enters the calendar, at most once (R358). -/
def State.calEnter (s : State) (q : Nat) : State :=
  let x := s.queue q
  if x.pkts.isEmpty || s.eligible q || s.inCalendar q then s
  else
    let w := s.binWidth
    let bin := min (s.sch.calPos + 65535) (max s.sch.calPos (ceilDiv x.elig w))
    s.setSch fun y => { y with cal := y.cal ++ [⟨q, x.elig, bin⟩] }

/-- One entry of the bin that is processed: the queue becomes eligible, or a distant one enters again. -/
def State.calRelease (s : State) (e : CalEntry) (binStart : Nat) : State :=
  let s := s.setSch fun y => { y with cal := y.cal.filter fun x => x.queue != e.queue }
  if e.elig ≤ binStart then s else s.calEnter e.queue

/-- `CALENDAR_BIN`: the next bin is processed; it releases up to 32 entries, and the others carry (R358). -/
def execCalendarBin : State → Host.Outcome State Fault Refusal :=
  complete fun s =>
    if !s.inst 3 then s
    else
      let w := s.binWidth
      let pos := s.sch.calPos
      let s := s.schedAt (pos * w)
      let due := s.sch.cal.filter fun e => decide (e.bin ≤ pos)
      let rest := due.drop 32
      let s := s.setSch fun y => { y with
        calPos := pos + 1
        carry := wrapTo 16 (y.carry + rest.length)
        cal := y.cal.map fun e => if rest.any (fun r => r.queue == e.queue) then { e with bin := pos + 1 } else e }
      let s := if rest.isEmpty then s else s.raiseOnce 246 0 0 rest.length 0
      (due.take 32).foldl (fun s e => s.calRelease e (pos * w)) s

/-! ### Admission (R354, R356, R360) -/

def State.virtual (s : State) (p : Path) (c band : Nat) : Nat := sparseGet (fun _ => 0) s.sch.virt (contKey p c * 4 + band)

def State.setVirtual (s : State) (p : Path) (c band v : Nat) : State :=
  s.setSch fun x => { x with virt := sparseSet (fun _ => 0) (contKey p c * 4 + band) v x.virt }

/-- The tag that follows `s` for a unit of `len` payload bytes at weight `w`. -/
def nextTag (s len w : Nat) : Nat := wrapTo 32 (s + ceilDiv (unitBytes len * 256) (max 1 w))

/-- A packet reaches its queue: it is admitted or dropped (R354, R356), and an empty queue wakes up (R360). -/
def State.enqueuePacket (s : State) (p : Path) (c cls : Nat) (data : Bytes) : State :=
  let q := queueNum p c cls
  let e := s.queueEnt q
  let n := cellsOf data.length
  let x := s.queue q
  let s := s.noteEntry queueTable (4 * q) 4
  if !e.enabled then ((s.updSchQueue q fun x => { x with disabled := satTo 8 (x.disabled + 1) }).count 3 q 1).raiseItem 248 0 q 0 0
  else if e.limit < x.cells + n ∨ totalCells < s.sch.used + n then
    ((s.updSchQueue q fun x => { x with admDrop := wrapTo 16 (x.admDrop + 1) }).count 3 q 1).raiseItem 244 0 q 0 0
  else
    let tag := s.virtual p c e.band
    let k : QPkt := ⟨data, s.sch.time, s.freeCells n⟩
    let s := (s.cellsWrite k).updSchQueue q fun x =>
      let y := { x with pkts := x.pkts ++ [k] }
      if x.pkts.isEmpty then { y with sTag := tag, fTag := nextTag tag data.length e.weight } else y
    (((s.count 1 q 1).count 2 q data.length).setSch fun y => { y with used := y.used + n }).calEnter q

/-- A packet of `len` bytes that arrived at `t` is policed: the class it is queued in, or none when it is dropped (R349,
R352). -/
def State.policed (s : State) (policer t len cls : Nat) : State × Option Nat :=
  let e := s.polEntry policer
  let s := if policer = 0 then s else s.noteEntry polTable (4 * policer) 4
  if policer = 0 || !e.valid then (s, some cls)
  else
    let (x, ok) := police e (s.pol policer) t len
    if ok then ((s.updPol policer fun _ => { x with conf := wrapTo 32 (x.conf + 1) }).count 0xB policer len, some cls)
    else ((s.updPol policer fun _ => { x with exc := wrapTo 32 (x.exc + 1) }).count 0xC policer len, if e.remark then some e.excCls else none)

/-- The packets of a queue are dropped (R354). -/
def State.flushQueue (s : State) (q : Nat) : State :=
  let x := s.queue q
  if x.pkts.isEmpty then s
  else
    let s := (s.updSchQueue q fun x => { x with pkts := [], flush := satTo 8 (x.flush + x.pkts.length) }).count 3 q x.pkts.length
    (s.setSch fun y => { y with used := y.used - x.cells, cal := y.cal.filter fun e => e.queue != q }).raiseItem 247 0 q 0 0

/-- A queue entry has changed from `old` (R354, R357). -/
def State.queueChanged (s : State) (q : Nat) (old : QEnt) : State :=
  let e := s.queueEnt q
  let s := if e.byteTime ≠ 0 ∧ old.byteTime = 0 then s.updSchQueue q fun x => { x with elig := 0 } else s
  let s := if e.byteTime = 0 then s.setSch fun y => { y with cal := y.cal.filter fun x => x.queue != q } else s
  if old.enabled && !e.enabled then s.flushQueue q else s

/-- The queues of a container that loses its slots or is removed (R354). -/
def State.flushCont (s : State) (p : Path) (c : Nat) : State :=
  (List.range 16).foldl (fun s cls => s.flushQueue (queueNum p c cls)) s

/-! ### Time gates (R362, R363) -/

/-- The entries of a container's gate list in force: mask and interval in bins, up to the first interval 0. An entry that
reads uncorrectable is not valid, and the list ends before it (R403, log 148). -/
def State.gateList (s : State) (p : Path) (c : Nat) : List (Nat × Nat) :=
  ((List.range 64).map fun i =>
    let w := if s.entryOk (gateTable p) (64 * c + i) 1 then s.tblWord (gateTable p) (64 * c + i) else 0
    (fieldOf w 31 16, fieldOf w 15 0)).takeWhile fun e => e.2 != 0

/-- The entries that end a container's gate list are read with it: their words in error are counted (R403). -/
def State.noteGates (s : State) (p : Path) (c : Nat) : State :=
  s.noteEntry (gateTable p) (64 * c) (min 64 ((s.gateList p c).length + 1))

/-- Bins for which a class stays open in a run of entries from its start. -/
def openRun (cls : Nat) : List (Nat × Nat) → Nat
  | [] => 0
  | e :: l => if e.1.testBit cls then e.2 + openRun cls l else 0

/-- The entries from position `pos` of the cycle on. -/
def gateFrom : Nat → List (Nat × Nat) → List (Nat × Nat)
  | _, [] => []
  | pos, e :: l => if pos < e.2 then (e.1, e.2 - pos) :: l else gateFrom (pos - e.2) l

def State.gateStart (s : State) : Path → Nat
  | .a => s.sch.gateA
  | .b => s.sch.gateB

/-- Whether a unit of `words` words of a class may start: its last word is due before the class closes (R362). -/
def State.gateLets (s : State) (p : Path) (c cls words capacity : Nat) : Bool :=
  let l := s.gateList p c
  if l.all fun e => e.1.testBit cls then true
  else
    let w := s.binWidth
    let cycle := (l.map fun e => e.2).sum
    let gone := (s.sch.time - s.gateStart p) % (cycle * w)
    let ahead := openRun cls (gateFrom (gone / w) l ++ l)
    decide (0 < ahead) && decide (words * 1024 * 65536 < (ahead * w - gone % w) * capacity)

/-- The next copy of a path's gate lists takes force: each list begins its cycle as the target frame begins, at scheduler
time `start` (R363). -/
def State.gateApply (s : State) (p : Path) (start : Nat) : State :=
  let t := gateTable p
  let fresh := s.cfg.filter fun e =>
    e.1 % 0x4000000 == Reg.SCH_GATE_DATA && e.1 / 0x4000000 / 16384 == pathNum p
  let kept := s.tables.filter fun e => e.1 / 0x1000000 != t
  let tables := fresh.foldl (fun m e => sparseSet (fun _ => 0) (tblKey t (e.1 / 0x4000000 % 16384)) e.2 m) kept
  let s := { s with tables := tables }
  match p with
  | .a => s.setSch fun x => { x with gateA := start }
  | .b => s.setSch fun x => { x with gateB := start }

/-! ### Serving a container (R359 to R361) -/

/-- `a` precedes `b` by the serial rule (R83). -/
def serialLt (a b : Nat) : Bool := let d := (b + 2 ^ 32 - a) % 2 ^ 32; decide (1 ≤ d ∧ d < 2 ^ 31)

/-- The candidate with the least F; the lowest class on a tie. -/
def State.leastTag (s : State) : List Nat → Option Nat
  | [] => none
  | q :: qs => match s.leastTag qs with
    | some r => if serialLt (s.queue r).fTag (s.queue q).fTag then some r else some q
    | none => some q

/-- The queue that a container's request takes: bands in priority order (R359). -/
def State.pick (s : State) (p : Path) (c capacity : Nat) : Nat → Nat → Option Nat
  | 0, _ => none
  | fuel + 1, band =>
    let cand := ((List.range 16).map fun cls => queueNum p c cls).filter fun q =>
      let x := s.queue q
      match x.pkts with
      | [] => false
      | k :: _ => (s.queueEnt q).band == band && s.eligible q
          && s.gateLets p c (q % 16) (unitBytes k.data.length / 8) capacity
    match s.leastTag cand with
    | some q => some q
    | none => s.pick p c capacity fuel (band + 1)

/-- The head packet of a queue leaves it: tags, virtual time and shaper advance (R357, R359). -/
def State.serve (s : State) (p : Path) (c q : Nat) : State :=
  let x := s.queue q
  let e := s.queueEnt q
  match x.pkts with
  | [] => s
  | k :: rest =>
    let s := s.setVirtual p c e.band x.sTag
    let t := s.sch.time
    let u := unitBytes k.data.length
    let s := s.updSchQueue q fun x =>
      let x := { x with
        pkts := rest
        elig := if e.byteTime = 0 then x.elig else max x.elig (t - e.burst * e.byteTime) + u * e.byteTime }
      match rest with
      | [] => x
      | n :: _ => { x with sTag := x.fTag, fTag := nextTag x.fTag n.data.length e.weight }
    (s.setSch fun y => { y with used := y.used - cellsOf k.data.length }).calEnter q

/-- The head packet of a queue is dropped before its unit starts: no shaper or virtual time moves, and the packet behind it
takes the start tag (R403, log 118). -/
def State.dropHead (s : State) (q : Nat) : State :=
  let w := (s.queueEnt q).weight
  match (s.queue q).pkts with
  | [] => s
  | k :: rest =>
    let s := s.updSchQueue q fun x => match rest with
      | [] => { x with pkts := [] }
      | n :: _ => { x with pkts := rest, fTag := nextTag x.sTag n.data.length w }
    s.setSch fun y => { y with
      used := y.used - cellsOf k.data.length
      cal := if rest.isEmpty then y.cal.filter fun e => e.queue != q else y.cal }

/-- `UNIT_REQUEST`: a container with a free data word and no unit in progress asks for a unit at scheduler time `t`;
`bad` is a written word of the packet buffer that has come to hold two bits in error. A head packet that has an
uncorrectable word is dropped before its unit starts (R359, R403). -/
def execUnitRequest (p : Path) (cont : BitVec 8) (t : Nat) (bad : Option (BitVec 23)) : State → Host.Outcome State Fault Refusal :=
  complete fun s =>
    let c := cont.toNat
    let words := packetWords (s.txSlots p c).length
    if !s.inst 3 || s.client p c != .packet || (s.txSlots p c).isEmpty || decide (8 * words ≤ (s.cont p c).buf.length) then s
    else
      let s := match bad with
        | some w => if s.mem.sramWritten w.toNat then s.setSramErr 0 w.toNat 2 else s
        | none => s
      let s := (s.schedAt t).noteGates p c
      let put (s : State) (b : Bytes) : State :=
        let at_ := contKey p c
        (((s.updCont p c fun x => { x with buf := x.buf ++ b }).count 4 at_ 1).count 5 at_ b.length).emit (.unit p c b)
      match s.pick p c words 4 0 with
      | none => put s idleUnit
      | some q => match (s.queue q).pkts with
        | [] => s
        | k :: _ => match s.cellsRead k with
          | (s, true) => s.dropHead q
          | (s, false) => put (s.serve p c q) (packetUnit (q % 16) k.data)

/-! ### Samples (R364) -/

/-- One sample of a queue at its offset of the period. -/
def State.sampleQueue (s : State) (t q : Nat) : State :=
  let x := s.queue q
  let d := x.cells
  let soj := match x.pkts with
    | [] => 0
    | k :: _ => min 65535 ((t + q * 512000 - k.enq) / 65536000)
  let s := s.updSchQueue q fun x => { x with
    depth := d, soj := soj, depthMax := max x.depthMax d, sojMax := max x.sojMax soj }
  let thr := s.fld Reg.SCH_CTRL 31 16
  if thr ≠ 0 ∧ thr ≤ soj then s.raiseItem 245 0 q soj 0 else s

/-- `QUEUE_SAMPLE`: a period of 64 us begins at scheduler time `t`, and every queue is sampled once in it (R364). -/
def execQueueSample (t : Nat) : State → Host.Outcome State Fault Refusal :=
  complete fun s => if s.inst 3 then
    let s := s.schedAt t
    (s.sch.queues.map fun e => e.1).foldl (fun s q => s.sampleQueue t q) s
  else s

/-- The largest samples of the second that ends are latched (R364). -/
def State.schSecond (s : State) : State :=
  (s.sch.queues.map fun e => e.1).foldl (fun s q =>
    s.updSchQueue q fun x => { x with depthPrev := x.depthMax, sojPrev := x.sojMax, depthMax := 0, sojMax := 0 }) s

/-! ### Register reads (R366) -/

/-- The scheduler's computed registers. -/
def State.schRead (s : State) (off : Nat) : Option Nat :=
  let pol := s.pol (s.fld Reg.SCH_POL_SEL 15 0)
  let q := s.queue (s.fld Reg.SCH_Q_SEL 12 0)
  if off = Reg.SCH_POL_CONF then some (if s.fld Reg.SCH_POL_SEL 15 0 = 0 then 0 else pol.conf)
  else if off = Reg.SCH_POL_EXC then some (if s.fld Reg.SCH_POL_SEL 15 0 = 0 then 0 else pol.exc)
  else if off = Reg.SCH_Q_DEPTH then some (q.depthPrev * 65536 + q.depth)
  else if off = Reg.SCH_Q_SOJ then some (q.sojPrev * 65536 + q.soj)
  else if off = Reg.SCH_Q_DROP then some (q.admDrop * 65536 + q.disabled * 256 + q.flush)
  else if off = Reg.SCH_BUF then some (totalCells - s.sch.used)
  else if off = Reg.SCH_CAL then some s.sch.carry
  else none

end Sys2Proof.Machine
end

