-- ==== Sys2Proof/Machine/Packet.lean ====
section
/-!
DEFINITION. The packet layer (13_packet_path.md): engines and their instructions, the canonical key, the flow table with
its cache, wildcard rules, actions, flow commands and learning, and the MAC of a terminated port.
-/
namespace Sys2Proof.Machine

def State.setPkt (s : State) (f : PktState → PktState) : State := { s with pkt := f s.pkt }

def State.engine (s : State) (e : Nat) : Option Pass := sparseGet (fun _ => none) s.pkt.engines e

def State.setEngine (s : State) (e : Nat) (x : Option Pass) : State :=
  s.setPkt fun k => { k with engines := sparseSet (fun _ => none) e x k.engines }

def State.pktPort (s : State) (f : Nat) : PktPort := sparseGet (fun _ => freshPktPort) s.pkt.ports f

def State.updPktPort (s : State) (f : Nat) (g : PktPort → PktPort) : State :=
  s.setPkt fun k => { k with ports := sparseSet (fun _ => freshPktPort) f (g (s.pktPort f)) k.ports }

def State.updSecond (s : State) (g : PktSecond → PktSecond) : State := s.setPkt fun k => { k with second := g k.second }

/-! ### Tables (R335, R337, R343) -/

def ruleTable : Nat := 0x0D00
def actionTable : Nat := 0x0D01
def hostTable : Nat := 0x0D02
def portTable : Nat := 0x0D04

/-- `n` words of a table entry as bytes. -/
def State.tblBytes (s : State) (t base n : Nat) : Bytes :=
  (List.range n).flatMap fun i => beBytes 4 (s.tblWord t (base + i)).toNat

/-- The indexes of the valid wildcard rules, ascending. -/
def State.validRules (s : State) : List Nat :=
  s.tables.filterMap fun e =>
    let w := e.1 % 0x1000000
    if e.1 / 0x1000000 = ruleTable ∧ w % 28 = 26 ∧ e.2.toNat.testBit 31 ∧ s.entryOk ruleTable (28 * (w / 28)) 28
    then some (w / 28) else none

/-- A rule matches when key AND mask = value AND mask (R335). -/
def State.ruleMatches (s : State) (i : Nat) (key : Bytes) : Bool :=
  let r := s.tblBytes ruleTable (28 * i) 24
  (List.range 48).all fun j => (key.getD j 0 &&& r.getD (48 + j) 0) == (r.getD j 0 &&& r.getD (48 + j) 0)

/-- A rule's result. -/
def State.ruleResult (s : State) (i : Nat) : Bytes := s.tblBytes ruleTable (28 * i + 24) 2

/-- Whether a port's entry is enabled, with its program address and its miss action (R343). -/
def State.portEntry (s : State) (f : Nat) : Bool × Nat × Nat :=
  let w := s.tblWord portTable (2 * f)
  (flagOf w 31 && s.entryOk portTable (2 * f) 2, fieldOf w 13 0, fieldOf (s.tblWord portTable (2 * f + 1)) 29 16)

/-! ### Hash and signature array (R325 to R329) -/

/-- A reflected CRC-32 with the polynomial 0x1EDC_6F41 (R327). -/
def crc32cByte (c : Nat) (x : Byte) : Nat :=
  (List.range 8).foldl (fun c _ => if c % 2 = 1 then (c / 2) ^^^ 0x82F63B78 else c / 2) (c ^^^ x.toNat)

def State.h0 (s : State) (key : Bytes) : Nat := crc32From (s.reg Reg.PKT_HASH_SEED).toNat key

def State.h1 (s : State) (key : Bytes) : Nat :=
  (key.foldl crc32cByte (s.reg Reg.PKT_HASH_SEED).toNat) ^^^ 0xFFFFFFFF

/-- The signature of a key. -/
def State.keySig (s : State) (key : Bytes) : Nat := let g := bitsOf (s.h0 key) 31 17; if g = 0 then 1 else g

/-- The bucket of a key in a table. -/
def State.keyBucket (s : State) (key : Bytes) (t : Nat) : Nat := bitsOf (if t = 0 then s.h0 key else s.h1 key) 16 0

/-- A place of the flow table: table, bucket and way. -/
abbrev Place := Nat × Nat × Nat

/-- Index of a place in the signature array (R329), and address of its context (R328). -/
def sigIndex (x : Place) : Nat := 4 * (131072 * x.1 + x.2.1) + x.2.2

def ctxAddr (x : Place) : Nat := 0x02000000 * x.1 + 256 * x.2.1 + 64 * x.2.2

def State.sigAt (s : State) (x : Place) : Word := sparseGet (fun _ => 0) s.pkt.sig (sigIndex x)

/-- The SRAM word of a signature entry, half of one (R329, R401). -/
def sigWord (x : Place) : Nat := sigIndex x / 2

/-- A write of a signature entry, narrower than its SRAM word (R406). -/
def State.setSig (s : State) (x : Place) (w : Word) : State :=
  (s.setPkt fun k => { k with sig := sparseSet (fun _ => 0) (sigIndex x) w k.sig }).narrowWrite 1 (sigWord x)

/-- The eight places where a key can lie, in lookup order. -/
def State.places (s : State) (key : Bytes) : List Place :=
  [0, 1].flatMap fun t => (List.range 4).map fun w => (t, s.keyBucket key t, w)

/-- Whether a place's signature entry reads as the key's; an uncorrectable entry counts as empty (R403). -/
def State.sigMatches (s : State) (key : Bytes) (x : Place) : Bool :=
  fieldOf (s.sigAt x) 31 17 == s.keySig key && decide (s.sramErr 1 (sigWord x) < 2)

/-! ### The flow cache (R330) -/

def State.cacheSet (s : State) (key : Bytes) : Nat := bitsOf (s.h1 key) 28 17

def State.cacheLines (s : State) (set : Nat) : List Line := sparseGet (fun _ => []) s.pkt.cache set

def State.setCache (s : State) (set : Nat) (l : List Line) : State :=
  s.setPkt fun k => { k with cache := sparseSet (fun _ => []) set l k.cache }

def Line.place (l : Line) : Place := (l.t, l.b, l.w)

/-- The 64 bytes of a context (R328). -/
def Line.context (l : Line) : Bytes := padTo 40 l.key ++ padTo 8 l.result ++ beBytes 5 l.pkts ++ beBytes 7 l.bytes ++ [0, 0, 0, 0]

/-- A context's line. -/
def lineOf (x : Place) (c : Bytes) : Line :=
  ⟨x.1, x.2.1, x.2.2, c.take 40, bytesAt c 40 8, beAt c 48 5, beAt c 53 7, false⟩

/-- A line leaves the cache: its context is written back if its counters have changed. -/
def State.writeBack (s : State) (l : Line) : State := if l.dirty then s.deviceWrite (ctxAddr l.place) l.context else s

/-- The least recently used line leaves: it is read for its write-back, and an uncorrectable one is discarded without
it, its counts lost (R330, R403). -/
def State.evict (s : State) (l : Line) : State :=
  let n := s.sramErr 2 (sigIndex l.place)
  let s := s.setSramErr 2 (sigIndex l.place) 0
  if !l.dirty then s
  else
    let s := s.noteSram 2 (sigIndex l.place) n
    if n < 2 then s.writeBack l else { s with mem := { s.mem with lostLines := satTo 8 (s.mem.lostLines + 1) } }

/-- Puts a line at the front of its set; the least recently used of 17 lines leaves. -/
def State.cacheTouch (s : State) (l : Line) : State :=
  let set := s.cacheSet l.key
  let ls := l :: (s.cacheLines set).filter fun x => x.key != l.key
  (ls.drop 16).foldl (fun s x => s.evict x) (s.setCache set (ls.take 16))

/-- Writes a line whole, at the front of its set. -/
def State.cachePut (s : State) (l : Line) : State := (s.setSramErr 2 (sigIndex l.place) 0).cacheTouch l

/-- The line of a key leaves the cache without write-back. -/
def State.cacheDrop (s : State) (key : Bytes) : State :=
  let set := s.cacheSet key
  let ls := s.cacheLines set
  (ls.filter fun x => x.key == key).foldl (fun s l => s.setSramErr 2 (sigIndex l.place) 0)
    (s.setCache set (ls.filter fun x => x.key != key))

/-- The line of a key in the cache. An uncorrectable line is discarded and its counts are lost (R403). -/
def State.cacheFind (s : State) (key : Bytes) : State × Option Line :=
  match (s.cacheLines (s.cacheSet key)).find? (fun x => x.key == key) with
  | none => (s, none)
  | some l =>
    let n := s.sramErr 2 (sigIndex l.place)
    let s := s.noteSram 2 (sigIndex l.place) n
    if n < 2 then (s, some l)
    else
      let s := s.cacheDrop key
      ({ s with mem := { s.mem with lostLines := satTo 8 (s.mem.lostLines + 1) } }, none)

/-- Where a lookup found its key: 0 in the cache, 1 in a context, 2 nowhere. -/
structure Found where
  how  : Nat
  line : Option Line
  bad  : Option Place                 -- a place whose signature matches and whose context is uncorrectable
  deriving DecidableEq, Repr

/-- Reads the contexts whose signature matches, in lookup order. -/
def State.seek (s : State) (key : Bytes) (bad : Option Place) : List Place → State × Found
  | [] => (s, ⟨2, none, bad⟩)
  | x :: xs =>
    let s := s.noteSram 1 (sigWord x) (s.sramErr 1 (sigWord x))
    if !s.sigMatches key x then s.seek key bad xs
    else
      let uncorrectable := (s.mem.firstBad s.freeCtr (ctxAddr x) 64).isSome
      let c := s.mem.readBytes s.freeCtr (ctxAddr x) 64
      let s := s.noteRead 0 (ctxAddr x) 64
      if uncorrectable then s.seek key (some (bad.getD x)) xs
      else if c.take 40 = key then
        let l := lineOf x c
        (s.cachePut l, ⟨1, some l, bad⟩)
      else s.seek key bad xs

/-- The lookup of R330. -/
def State.flowLookup (s : State) (key : Bytes) : State × Found :=
  match s.cacheFind key with
  | (s, some l) => (s.cacheTouch l, ⟨0, some l, none⟩)
  | (s, none) => s.seek key none (s.places key)

/-! ### Inserting (R331, R332) -/

/-- A free way of a bucket, the lowest. -/
def State.freeWay (s : State) (t b : Nat) : Option Place :=
  match (List.range 4).find? (fun w => s.sigAt (t, b, w) == 0) with | some w => some (t, b, w) | none => none

/-- The bucket to which the context at a place can move. -/
def State.otherBucket (s : State) (x : Place) : Nat × Nat := (1 - x.1, fieldOf (s.sigAt x) 16 0)

/-- One level of the search: the first chain of the frontier whose last context can move to a free way, or the next
frontier, with the number of ways that may still be examined. Chains are held last place first. -/
def State.searchLevel (s : State) (left : Nat) : List (List Place) → List (List Place) × Option (List Place) × Nat
  | [] => ([], none, left)
  | chain :: rest =>
    match chain with
    | [] => s.searchLevel left rest
    | x :: _ =>
      if left < 4 then ([], none, 0)
      else
        let (t, b) := s.otherBucket x
        match s.freeWay t b with
        | some y => ([], some (y :: chain), left - 4)
        | none =>
          let kids := ((List.range 4).map fun w => (t, b, w)).filterMap fun y =>
            if chain.contains y then none else some (y :: chain)
          let (more, hit, left) := s.searchLevel (left - 4) rest
          (kids ++ more, hit, left)

/-- The breadth-first search for a displacement path of at most four contexts (R332). -/
def State.searchPath (s : State) : Nat → Nat → List (List Place) → Option (List Place)
  | 0, _, _ => none
  | depth + 1, left, frontier =>
    match s.searchLevel left frontier with
    | (_, some p, _) => some p
    | (next, none, left) => s.searchPath depth left next

/-- The context at a place: its line in the cache, or else what the memory die holds of it, read at the rank of the
write-back (R403, R414). -/
def State.contextAt (s : State) (x : Place) : State × Line :=
  let fetch (s : State) : State × Line :=
    (s.noteRead 1 (ctxAddr x) 64, lineOf x (s.mem.readBytes s.freeCtr (ctxAddr x) 64))
  match s.pkt.cache.findSome? fun e => e.2.find? fun l => l.place == x with
  | none => fetch s
  | some l => match s.cacheFind l.key with
    | (s, some l) => (s, l)
    | (s, none) => fetch s

/-- Moves the context at `src` to the free way `dst`: it is brought into the cache, and its home is changed there. -/
def State.moveContext (s : State) (src dst : Place) : State :=
  let w := s.sigAt src
  let sig := setField (setField 0 31 17 (fieldOf w 31 17)) 16 0 src.2.1
  let (s, l) := s.contextAt src
  let s := ((s.setSig dst sig).setSig src 0).setSramErr 2 (sigIndex src) 0
  s.cachePut { l with t := dst.1, b := dst.2.1, w := dst.2.2, dirty := true }

/-- Moves along a chain, the end first; the chain is held last place first. -/
def State.moveChain (s : State) : List Place → State
  | y :: x :: rest => (s.moveContext x y).moveChain (x :: rest)
  | _ => s

/-- The place that an insert takes, after the moves it needs, and their number; none where no path is found. -/
def State.makeRoom (s : State) (key : Bytes) : Option (State × Place × Nat) :=
  let b0 := s.keyBucket key 0
  let b1 := s.keyBucket key 1
  match s.freeWay 0 b0, s.freeWay 1 b1 with
  | some x, _ => some (s, x, 0)
  | none, some x => some (s, x, 0)
  | none, none =>
    match s.searchPath 4 (1024 - 8) ((s.places key).map fun x => [x]) with
    | none => none
    | some chain => match chain.getLast? with
      | some first => some (s.moveChain chain, first, chain.length - 1)
      | none => none

/-- Result codes of R346. -/
def fOk : Nat := 0
def fBusy : Nat := 1
def fExists : Nat := 2
def fNotFound : Nat := 3
def fFull : Nat := 4
def fBadResult : Nat := 5

/-- Whether a host may give a result (R331). -/
def resultOk (r : Bytes) : Bool :=
  (r.getD 0 0).toNat / 64 == 0 && bitsOf (r.getD 4 0).toNat 7 6 == 0 && bitsOf (r.getD 4 0).toNat 4 0 == 0
    && allZero (bytesAt r 5 3)

/-- The result with the valid bit, and optionally the learned bit in place of the learn bit (R328, R333). -/
def storedResult (r : Bytes) (learned : Bool) : Bytes :=
  let b := (r.getD 4 0).toNat
  patchBytes (padTo 8 r) 4 [BitVec.ofNat 8 (128 + (if learned then 64 else b % 128))]

/-- Reports where a key lies. -/
def State.reportPlace (s : State) (x : Place) : State :=
  s.setPkt fun k => { k with table := x.1, bucket := x.2.1, way := x.2.2 }

/-- `INSERT` of a key with a result as it is stored, for a host command, a learn insert or a table entry (R332 to R334);
the code, and the moves. -/
def State.insertKey (s : State) (key result : Bytes) : State × Nat × Nat :=
  match s.flowLookup key with
  | (s, ⟨_, some l, _⟩) => (s.reportPlace l.place, fExists, 0)
  | (s, ⟨_, none, _⟩) => match s.makeRoom key with
    | none => (s, fFull, 0)
    | some (s, x, n) =>
      let other := s.keyBucket key (1 - x.1)
      let s := s.setSig x (setField (setField 0 31 17 (s.keySig key)) 16 0 other)
      let s := s.setPkt fun k => { k with moves := n }
      ((s.deviceWrite (ctxAddr x) (Line.context ⟨x.1, x.2.1, x.2.2, key, result, 0, 0, false⟩)).reportPlace x, fOk, n)

/-- The host's key and result registers. -/
def State.flowKey (s : State) : Bytes := (List.range 10).flatMap fun i => beBytes 4 (s.reg (Reg.PKT_FLOW_KEY0 + 4 * i)).toNat

def State.flowRes (s : State) : Bytes :=
  beBytes 4 (s.reg Reg.PKT_FLOW_RES_HI).toNat ++ beBytes 4 (s.reg Reg.PKT_FLOW_RES_LO).toNat

def State.reportCounts (s : State) (pkts bytes : Nat) : State := s.setPkt fun k => { k with pkts := pkts, bytes := bytes }

/-- Removes a key from its place. -/
def State.removeKey (s : State) (key : Bytes) (x : Place) : State := (s.setSig x 0).cacheDrop key

/-- Event 237, at most once per milestone second. -/
def State.fullEvent (s : State) : State := s.raiseOnce 237 0 0 0 0

/-- A host flow command at its commit point: the result code (R331). -/
def State.runFlow (s : State) (op : Nat) : State × Nat :=
  let key := s.flowKey
  let r := s.flowRes
  if (op = 1 ∨ op = 4) ∧ !resultOk r then (s, fBadResult)
  else if op = 1 then
    let (s, code, _) := s.insertKey key (storedResult r false)
    let s := if code = fFull then s.fullEvent else s
    ((if code = fOk then s.reportCounts 0 0 else s), code)
  else match s.flowLookup key with
    | (s, ⟨_, some l, _⟩) =>
      let s := s.reportPlace l.place
      if op = 2 then ((s.removeKey key l.place).reportCounts l.pkts l.bytes, fOk)
      else if op = 3 then
        let s := s.reportCounts l.pkts l.bytes
        ((s.setReg Reg.PKT_FLOW_RES_HI (BitVec.ofNat 32 (beAt l.result 0 4))).setReg Reg.PKT_FLOW_RES_LO
          (BitVec.ofNat 32 (beAt l.result 4 4)), fOk)
      else if op = 4 then (s.cachePut { l with result := storedResult r false, dirty := true }, fOk)
      else ((s.cachePut { l with pkts := 0, bytes := 0, dirty := true }).reportCounts l.pkts l.bytes, fOk)
    | (s, ⟨_, none, some x⟩) =>
      if op = 2 then (((s.removeKey key x).reportPlace x).reportCounts 0 0, fOk) else (s, fNotFound)
    | (s, ⟨_, none, none⟩) => (s, fNotFound)

/-- A host flow command is written: it runs, or is refused while another runs (R331). -/
def State.flowCommand (s : State) (op : Nat) : State :=
  if s.pkt.cmd.isSome then s.setPkt fun k => { k with result := fBusy }
  else if s.inst 2 then s.setPkt fun k => { k with cmd := some op }
  else s

/-! ### Engine instructions (R317 to R323) -/

/-- Sizes of the key fields (R319). -/
def keySizes : List Nat := [16, 16, 2, 2, 1, 3, 4]

/-- Reads `n` window bytes at an address; bytes at or beyond E of pass start read as zero (R323). -/
def Pass.window (x : Pass) (a n : Nat) : Bytes := (List.range n).map fun i => if a + i < x.limit0 then x.pkt.frame.getD (a + i) 0 else 0

/-- A load of `n` bytes at `a`: none where it reaches past the window of a packet that fills it, of which the FCS is
part (R322). Past the end of a shorter packet it reads zeros (R323). -/
def Pass.read (x : Pass) (a n : Nat) : Option (Pass × Bytes) :=
  if 256 < a + n ∧ 256 ≤ x.pkt.frame.length + 4 then none else some ({ x with conflict := x.conflict || decide (x.limit0 < a + n) }, x.window a n)

def Pass.g (x : Pass) (i : Nat) : Word := x.regs.getD i 0

def Pass.setG (x : Pass) (i : Nat) (v : Word) : Pass := { x with regs := modifyAt (fun _ => v) i x.regs }

/-- The instruction at the program counter. -/
def State.fetch (s : State) (x : Pass) : Word := sparseGet (fun _ => 0) s.rte.program x.pc

def opOf (w : Word) : Nat := fieldOf w 31 26

/-- Bytes copied into a key field: IPv4-mapped for four bytes into an address, else right-aligned (R319). -/
def keyCopy (field : Nat) (b : Bytes) : Bytes :=
  let n := keySizes.getD field 0
  if field < 2 ∧ b.length = 4 then List.replicate 10 0 ++ [0xFF, 0xFF] ++ b
  else List.replicate (n - b.length) 0 ++ b

def Pass.setKey (x : Pass) (field : Nat) (b : Bytes) : Pass := { x with keys := modifyAt (fun _ => b) field x.keys }

/-- A pass moves on to the next instruction, having spent `n` cycles. -/
def Pass.next (x : Pass) (n : Nat) : Pass := { x with pc := (x.pc + 1) % 16384, cycles := x.cycles + n }

/-- Condition of `BR`. -/
def Pass.holds (x : Pass) (c : Nat) : Bool :=
  match c with
  | 0 => true
  | 1 => x.eq
  | 2 => !x.eq
  | 3 => x.lt
  | _ => !x.lt

/-- What an instruction does to its pass: it goes on, or the pass is depth-exceeded (R322). -/
inductive StepOut where
  | go (x : Pass)
  | deep
  deriving DecidableEq, Repr

/-- The three-register and immediate operations; shifts use five bits. -/
def aluOf (op : Nat) (u v : Word) : Word :=
  match op with
  | 0 => u + v
  | 1 => u - v
  | 2 => u &&& v
  | 3 => u ||| v
  | 4 => u ^^^ v
  | 5 => u <<< (v.toNat % 32)
  | _ => u >>> (v.toNat % 32)

/-- A load of w bytes into a register. -/
def Pass.load (x : Pass) (w : Word) (a : Nat) : StepOut :=
  match x.read a (2 ^ fieldOf w 9 8) with
  | none => .deep
  | some (x, b) => .go ((x.setG (fieldOf w 25 22) (BitVec.ofNat 32 (beNat b))).next 1)

/-- The 14-bit immediate, sign-extended. -/
def simm14 (w : Word) : Word := BitVec.ofInt 32 (signedOf 14 (fieldOf w 13 0))

def Pass.aluR (x : Pass) (w : Word) (op : Nat) : StepOut :=
  .go ((x.setG (fieldOf w 25 22) (aluOf op (x.g (fieldOf w 21 18)) (x.g (fieldOf w 17 14)))).next 1)

def Pass.aluI (x : Pass) (w : Word) (op : Nat) (imm : Word) : StepOut :=
  .go ((x.setG (fieldOf w 25 22) (aluOf op (x.g (fieldOf w 21 18)) imm)).next 1)

def Pass.compare (x : Pass) (u v : Word) : StepOut := .go ({ x with eq := u == v, lt := decide (u.toNat < v.toNat) }.next 1)

/-! ### Ending a pass (R322 to R324, R336 to R341) -/

/-- The canonical key and `SWAPPED` (R325, R326). -/
def Pass.canonical (x : Pass) : Bytes × Bool :=
  let k (i : Nat) : Bytes := padTo (keySizes.getD i 0) (x.keys.getD i [])
  let a := k 0 ++ k 2
  let b := k 1 ++ k 3
  let swap := decide (beNat b < beNat a)
  let (lo, hi) := if swap then (b, a) else (a, b)
  (lo.take 16 ++ hi.take 16 ++ lo.drop 16 ++ hi.drop 16 ++ k 4 ++ k 5, swap)

/-- The wildcard key (R335). -/
def Pass.wildKey (x : Pass) : Bytes :=
  let (c, swap) := x.canonical
  c ++ [BitVec.ofNat 8 x.pkt.port, BitVec.ofNat 8 x.pkt.num, (if swap then 1 else 0), x.flags] ++ padTo 4 (x.keys.getD 6 [])

/-- Packets released while the head of a port's order has its outcome; `fuel` bounds their number. -/
def State.releaseOrder (s : State) (f : Nat) : Nat → State
  | 0 => s
  | fuel + 1 =>
    match sparseGet (fun _ => []) s.pkt.order f with
    | ⟨_, some o⟩ :: rest =>
      let s := s.setPkt fun k => { k with order := sparseSet (fun _ => []) f rest k.order }
      (s.enqueuePacket o.path o.cont o.cls o.data).releaseOrder f fuel
    | _ => s

/-- A packet's outcome is known: its place in the port's order takes it, or goes when it is dropped (R316). A detoured
packet, which has left the order, takes its place at the end. -/
def State.settle (s : State) (k : PktRef) (o : Option Forward) : State :=
  let l := sparseGet (fun _ => []) s.pkt.order k.port
  let l := match o with
    | none => l.filter fun e => e.id != k.id
    | some _ => if l.any (fun e => e.id == k.id) then l.map fun e => if e.id = k.id then ⟨e.id, o⟩ else e else l ++ [⟨k.id, o⟩]
  (s.setPkt fun x => { x with order := sparseSet (fun _ => []) k.port l x.order }).releaseOrder k.port l.length

def State.actErr (s : State) (k : PktRef) : State :=
  (s.updPktPort k.port fun x => { x with actErr := satTo 8 (x.actErr + 1) }).settle k none

/-- One edit of an action (R338): none where it reaches past the frame end or past offset 255. -/
def applyEdit (action : Bytes) (i : Nat) (frame : Bytes) : Option Bytes :=
  let e := bytesAt action (8 + 6 * i) 6
  let off := beAt e 1 1
  let len := beAt e 2 1
  let data := bytesAt action (32 + beAt e 3 1) len
  let inside := decide (off + len ≤ 256)
  match beAt e 0 1 with
  | 1 => if inside ∧ off + len ≤ frame.length then some (patchBytes frame off data) else none
  | 2 => if inside ∧ off ≤ frame.length then some (frame.take off ++ data ++ frame.drop off) else none
  | 3 => if inside ∧ off + len ≤ frame.length then some (frame.take off ++ frame.drop (off + len)) else none
  | _ => none

/-- The edits of an action, each on the frame that the one before left. -/
def applyEdits (action : Bytes) : List Nat → Bytes → Option Bytes
  | [], f => some f
  | i :: is, f => match applyEdit action i f with
    | some f => applyEdits action is f
    | none => none

/-- A frame with its FCS, which is sent least significant byte first (PRESUMED, IEEE 802.3). -/
def withFcs (frame : Bytes) : Bytes := frame ++ leBytes 4 (crc32 frame)

/-- Whether a container belongs to the terminated packet connection of a port (R340). -/
def State.sameConnection (s : State) (f : Nat) (p : Path) (c : Nat) : Bool :=
  match s.rte.cfg.connOf p c with
  | some x => x.kind == 3 && x.ends.any fun e => e.typ == 0 && e.num == f
  | none => false

/-- A forward of a frame to a queue (R340); it is policed at once, when its last pass is classified (R349, log 117). -/
def State.forwardPacket (s : State) (k : PktRef) (p : Path) (c cls policer : Nat) (frame : Bytes) : State :=
  if !s.sameConnection k.port p c then s.actErr k
  else
    let data := withFcs frame
    let (s, cls) := s.policed policer k.time data.length cls
    s.settle k (cls.map fun cls => ⟨p, c, cls, data⟩)

/-- A further pass of a detoured packet waits (R339). -/
def State.detourPacket (s : State) (k : PktRef) (addr : Nat) (frame : Bytes) : State :=
  let s := s.setPkt fun x => { x with
    waiting := x.waiting ++ [({ k with num := k.num + 1, frame := frame }, addr)]
    order := sparseSet (fun _ => []) k.port
      ((sparseGet (fun _ => []) x.order k.port).filter fun e => e.id != k.id) x.order }
  s.releaseOrder k.port (sparseGet (fun _ => []) s.pkt.order k.port).length

/-- An action on a packet with a policer index (R337 to R340). DESIGN CHOICE (log 144): a reserved kind, which a host
can write, drops the packet. -/
def State.act (s : State) (k : PktRef) (action policer : Nat) : State :=
  let a := s.tblBytes actionTable (16 * action) 16
  let kind := if s.entryOk actionTable (16 * action) 16 then beAt a 0 1 else 0
  let s := s.noteEntry actionTable (16 * action) 16
  if kind = 0 ∨ 3 ≤ kind then s.settle k none
  else if kind = 2 ∧ 2 ≤ k.num then
    let s := s.updPktPort k.port fun x => { x with detour := wrapTo 16 (x.detour + 1) }
    (s.raiseOnce 234 0 0 0 0).settle k none
  else match applyEdits a (List.range (beAt a 4 1)) k.frame with
    | none => s.actErr k
    | some f =>
      let f := if f.length < 60 then padTo 60 f else f
      if 16383 < f.length + 4 then s.actErr k
      else if kind = 1 then
        s.forwardPacket k (pathOf (beAt a 2 1 % 2)) (beAt a 3 1) (beAt a 1 1) policer f
      else s.detourPacket k (beAt a 2 2 % 16384) f

/-- The action and policer of a result. -/
def resultAct (r : Bytes) : Nat × Nat := (beAt r 0 2 % 16384, beAt r 2 2)

/-- Opaque forwarding of a length-conflict packet (R323). -/
def State.forwardOpaque (s : State) (k : PktRef) : State :=
  let i := s.fld Reg.PKT_DEFAULT 29 16
  let a := s.tblBytes actionTable (16 * i) 16
  let ok := s.entryOk actionTable (16 * i) 16
  let s := s.noteEntry actionTable (16 * i) 16
  if ok && beAt a 0 1 == 1 then
    s.forwardPacket k (pathOf (beAt a 2 1 % 2)) (beAt a 3 1) (beAt a 1 1) 0 k.frame
  else s.settle k none

/-- A learn insert is queued, or counted as lost (R333). -/
def State.learn (s : State) (key result : Bytes) : State :=
  if s.pkt.learn.any fun e => e.1 == key then s
  else if s.pkt.learn.length < 1024 then s.setPkt fun x => { x with learn := x.learn ++ [(key, storedResult result true)] }
  else (s.updSecond fun x => { x with learnOvf := satTo 8 (x.learnOvf + 1) }).raiseOnce 238 0 0 0 0

/-- The classification of a pass that ends in `LOOKUP` (R336, R341). -/
def State.classify (s : State) (x : Pass) : State :=
  let key := x.canonical.1
  match s.flowLookup key with
  | (s, ⟨how, some l, _⟩) =>
    let s := s.updSecond fun y => if how = 0 then { y with hits := satTo 32 (y.hits + 1) } else { y with misses := satTo 32 (y.misses + 1) }
    let s := s.cachePut { l with
      pkts := wrapTo 40 (l.pkts + 1), bytes := wrapTo 56 (l.bytes + x.pkt.frame.length + 4), dirty := true }
    let (a, pol) := resultAct l.result
    s.act x.pkt a pol
  | (s, ⟨_, none, _⟩) =>
    let s := (s.updSecond fun y => { y with absent := satTo 32 (y.absent + 1) }).noteEntry ruleTable 0 (28 * 16384)
    match s.validRules.find? (fun i => s.ruleMatches i x.wildKey) with
    | some i =>
      let r := s.ruleResult i
      let s := if flagOf (s.reg Reg.PKT_CTRL) 2 && (r.getD 4 0).getLsbD 5 then s.learn key r else s
      let (a, pol) := resultAct r
      s.act x.pkt a pol
    | none => s.act x.pkt (s.portEntry x.pkt.port).2.2 0

/-- How a pass ends. -/
inductive PassEnd where
  | cycle | deep | drop | lookup
  deriving DecidableEq, Repr

/-- Counts a length-conflict or a depth-exceeded pass, with its event (R324). -/
def State.countLength (s : State) (f : Nat) : State :=
  (s.updPktPort f fun y => { y with length := wrapTo 16 (y.length + 1) }).raiseItem 233 0 f 0 0

def State.countDepth (s : State) (f : Nat) : State :=
  (s.updPktPort f fun y => { y with depth := wrapTo 16 (y.depth + 1) }).raiseItem 232 0 f 0 0

/-- The end of a pass: the first outcome in the order of R324 decides the packet. -/
def State.endPass (s : State) (e : Nat) (x : Pass) (how : PassEnd) : State :=
  let f := x.pkt.port
  let s := s.setEngine e none
  let s := s.updSecond fun y => { y with cycles := y.cycles + x.cycles, passes := y.passes + 1 }
  let s := if x.conflict then s.countLength f else s
  let s := if how = .deep then s.countDepth f else s
  match how with
  | .cycle =>
    ((s.updPktPort f fun y => { y with cycle := satTo 8 (y.cycle + 1) }).raiseOnce 235 0 0 0 0).settle x.pkt none
  | .deep =>
    let i := s.fld Reg.PKT_DEFAULT 13 0
    let s := s.noteEntry ruleTable (28 * i) 28
    if s.validRules.contains i then
      let (a, pol) := resultAct (s.ruleResult i)
      s.act x.pkt a pol
    else s.settle x.pkt none
  | .drop =>
    if x.conflict then (if flagOf (s.reg Reg.PKT_CTRL) 1 then s.forwardOpaque x.pkt else s.settle x.pkt none)
    else (s.updPktPort f fun y => { y with progDrop := wrapTo 16 (y.progDrop + 1) }).settle x.pkt none
  | .lookup =>
    if x.conflict then (if flagOf (s.reg Reg.PKT_CTRL) 1 then s.forwardOpaque x.pkt else s.settle x.pkt none)
    else s.classify x

/-! ### Running an instruction -/

def State.cycMax (s : State) : Nat := s.fld Reg.PKT_CTRL 15 8

/-- `ADD` shares its mnemonic with the milestone queue's command, which has the table's row: an engine runs the `ADD`s
that it meets at once (log 41). `fuel` bounds them by the cycle limit. -/
def State.runAdds (s : State) : Nat → Pass → Pass
  | 0, x => x
  | fuel + 1, x =>
    let w := s.fetch x
    if opOf w = 8 ∧ x.cycles < s.cycMax then
      match x.aluR w 0 with
      | .go y => s.runAdds fuel y
      | .deep => x
    else x

/-- An engine executes its instruction when that is `op` and its pass still has cycles (R319, R321). -/
def State.engineStep (s : State) (engine op : Nat) (f : Pass → Word → StepOut) : State :=
  match s.engine engine with
  | none => s
  | some x =>
    let w := s.fetch x
    if opOf w ≠ op ∨ s.cycMax ≤ x.cycles then s
    else match f x w with
      | .go y => s.setEngine engine (some (s.runAdds 255 y))
      | .deep => s.endPass engine x .deep

/-- An instruction that ends the pass. -/
def State.engineEnd (s : State) (engine op : Nat) (how : PassEnd) : State :=
  match s.engine engine with
  | none => s
  | some x => if opOf (s.fetch x) ≠ op ∨ s.cycMax ≤ x.cycles then s else s.endPass engine { x with cycles := x.cycles + 1 } how

def execDrop (engine : BitVec 6) : State → Host.Outcome State Fault Refusal :=
  complete fun s => s.engineEnd engine.toNat 0x00 .drop

def execNop (engine : BitVec 6) : State → Host.Outcome State Fault Refusal :=
  complete fun s => s.engineStep engine.toNat 0x01 fun x _ => .go (x.next 1)

def execLdf (engine : BitVec 6) : State → Host.Outcome State Fault Refusal :=
  complete fun s => s.engineStep engine.toNat 0x02 fun x w => x.load w (x.cursor + BitVec.ofNat 32 (fieldOf w 7 0)).toNat

def execLdr (engine : BitVec 6) : State → Host.Outcome State Fault Refusal :=
  complete fun s => s.engineStep engine.toNat 0x03 fun x w => x.load w (x.cursor + x.g (fieldOf w 21 18)).toNat

def execMovi (engine : BitVec 6) : State → Host.Outcome State Fault Refusal :=
  complete fun s => s.engineStep engine.toNat 0x04 fun x w =>
    .go ((x.setG (fieldOf w 25 22) (BitVec.ofNat 32 (fieldOf w 15 0))).next 1)

def execMovhi (engine : BitVec 6) : State → Host.Outcome State Fault Refusal :=
  complete fun s => s.engineStep engine.toNat 0x05 fun x w =>
    .go ((x.setG (fieldOf w 25 22) (setField (x.g (fieldOf w 25 22)) 31 16 (fieldOf w 15 0))).next 1)

def execSub (engine : BitVec 6) : State → Host.Outcome State Fault Refusal :=
  complete fun s => s.engineStep engine.toNat 0x09 fun x w => x.aluR w 1

def execAnd (engine : BitVec 6) : State → Host.Outcome State Fault Refusal :=
  complete fun s => s.engineStep engine.toNat 0x0A fun x w => x.aluR w 2

def execOr (engine : BitVec 6) : State → Host.Outcome State Fault Refusal :=
  complete fun s => s.engineStep engine.toNat 0x0B fun x w => x.aluR w 3

def execXor (engine : BitVec 6) : State → Host.Outcome State Fault Refusal :=
  complete fun s => s.engineStep engine.toNat 0x0C fun x w => x.aluR w 4

def execShl (engine : BitVec 6) : State → Host.Outcome State Fault Refusal :=
  complete fun s => s.engineStep engine.toNat 0x0D fun x w => x.aluR w 5

def execShr (engine : BitVec 6) : State → Host.Outcome State Fault Refusal :=
  complete fun s => s.engineStep engine.toNat 0x0E fun x w => x.aluR w 6

def execAddi (engine : BitVec 6) : State → Host.Outcome State Fault Refusal :=
  complete fun s => s.engineStep engine.toNat 0x10 fun x w => x.aluI w 0 (simm14 w)

def execAndi (engine : BitVec 6) : State → Host.Outcome State Fault Refusal :=
  complete fun s => s.engineStep engine.toNat 0x11 fun x w => x.aluI w 2 (BitVec.ofNat 32 (fieldOf w 13 0))

def execOri (engine : BitVec 6) : State → Host.Outcome State Fault Refusal :=
  complete fun s => s.engineStep engine.toNat 0x12 fun x w => x.aluI w 3 (BitVec.ofNat 32 (fieldOf w 13 0))

def execShli (engine : BitVec 6) : State → Host.Outcome State Fault Refusal :=
  complete fun s => s.engineStep engine.toNat 0x13 fun x w => x.aluI w 5 (BitVec.ofNat 32 (fieldOf w 13 0))

def execShri (engine : BitVec 6) : State → Host.Outcome State Fault Refusal :=
  complete fun s => s.engineStep engine.toNat 0x14 fun x w => x.aluI w 6 (BitVec.ofNat 32 (fieldOf w 13 0))

def execCmp (engine : BitVec 6) : State → Host.Outcome State Fault Refusal :=
  complete fun s => s.engineStep engine.toNat 0x18 fun x w => x.compare (x.g (fieldOf w 21 18)) (x.g (fieldOf w 17 14))

def execCmpi (engine : BitVec 6) : State → Host.Outcome State Fault Refusal :=
  complete fun s => s.engineStep engine.toNat 0x19 fun x w =>
    x.compare (x.g (fieldOf w 21 18)) (BitVec.ofNat 32 (fieldOf w 15 0))

def execBr (engine : BitVec 6) : State → Host.Outcome State Fault Refusal :=
  complete fun s => s.engineStep engine.toNat 0x1C fun x w =>
    .go (if x.holds (fieldOf w 25 22) then { x with pc := fieldOf w 13 0, cycles := x.cycles + 2 } else x.next 1)

def execAdv (engine : BitVec 6) : State → Host.Outcome State Fault Refusal :=
  complete fun s => s.engineStep engine.toNat 0x20 fun x w =>
    let n := if flagOf w 16 then x.g (fieldOf w 21 18) else BitVec.ofNat 32 (fieldOf w 7 0)
    if 16 ≤ x.headers then .deep else .go ({ x with cursor := x.cursor + n, headers := x.headers + 1 }.next 1)

def execSetc (engine : BitVec 6) : State → Host.Outcome State Fault Refusal :=
  complete fun s => s.engineStep engine.toNat 0x21 fun x w => .go ({ x with cursor := x.g (fieldOf w 21 18) }.next 1)

def execKey (engine : BitVec 6) : State → Host.Outcome State Fault Refusal :=
  complete fun s => s.engineStep engine.toNat 0x24 fun x w =>
    match x.read (x.cursor + BitVec.ofNat 32 (fieldOf w 7 0)).toNat (fieldOf w 12 8) with
    | none => .deep
    | some (x, b) => .go ((x.setKey (fieldOf w 25 22) (keyCopy (fieldOf w 25 22) b)).next 1)

def execKeyr (engine : BitVec 6) : State → Host.Outcome State Fault Refusal :=
  complete fun s => s.engineStep engine.toNat 0x25 fun x w =>
    let a := fieldOf w 25 22
    let n := if a < 2 then 4 else keySizes.getD a 0
    .go ((x.setKey a (keyCopy a (beBytes n (x.g (fieldOf w 21 18)).toNat))).next 1)

def execChklen (engine : BitVec 6) : State → Host.Outcome State Fault Refusal :=
  complete fun s => s.engineStep engine.toNat 0x28 fun x w =>
    let n := x.cursor.toNat + (x.g (fieldOf w 21 18)).toNat
    .go ((if x.limit < n then { x with conflict := true } else { x with limit := n }).next 1)

def execFlag (engine : BitVec 6) : State → Host.Outcome State Fault Refusal :=
  complete fun s => s.engineStep engine.toNat 0x29 fun x w =>
    .go ({ x with flags := x.flags ||| BitVec.ofNat 8 (fieldOf w 7 0) }.next 1)

/-- `LOOKUP` ends the pass and classifies (R336); `ups` are upsets of the memory die that its reads meet. -/
def execLookup (engine : BitVec 6) (ups : Upsets) : State → Host.Outcome State Fault Refusal :=
  complete fun s => (s.suffer ups).engineEnd engine.toNat 0x30 .lookup

/-- `CYCLE_LIMIT`: a pass that has spent `CYC_MAX` cycles is ended (R321). -/
def execCycleLimit (engine : BitVec 6) : State → Host.Outcome State Fault Refusal :=
  complete fun s => match s.engine engine.toNat with
    | none => s
    | some x => if s.cycMax ≤ x.cycles then s.endPass engine.toNat x .cycle else s

/-- The state of an engine at the start of a pass (R317). -/
def startPass (k : PktRef) (addr : Nat) : Pass :=
  { pkt := k, pc := addr, cycles := 0, cursor := 0, headers := 0,
    regs := List.replicate 14 0 ++ [BitVec.ofNat 32 k.port, BitVec.ofNat 32 k.num], eq := false, lt := false,
    keys := keySizes.map fun n => List.replicate n 0, flags := 0, limit0 := k.frame.length, limit := k.frame.length,
    conflict := false }

/-- `PASS_START`: a free engine takes the next waiting pass (R316). -/
def execPassStart (engine : BitVec 6) : State → Host.Outcome State Fault Refusal :=
  complete fun s =>
    match s.engine engine.toNat, s.pkt.waiting with
    | none, (k, addr) :: rest =>
      ((s.setPkt fun x => { x with waiting := rest }).setEngine engine.toNat (some (s.runAdds 255 (startPass k addr)))).emit
        (.pass engine.toNat)
    | _, _ => s

/-- `MAC_FRAME_RX`: a frame from destination address up to the FCS, whose last byte arrived at scheduler time `t`; `bad`
tells that its FCS is wrong (R316, R343, R371). -/
def execMacFrameRx (port : BitVec 5) (frame : Bytes) (bad : Bool) (t : Nat) : State → Host.Outcome State Fault Refusal :=
  complete fun s =>
    let f := port.toNat
    let n := frame.length + 4
    if !s.inst 2 || !s.rte.cfg.packetPort f || (s.port f).state != 5 then s
    else
      let s := ((s.schedAt t).count 7 f 1).count 8 f n
      if bad || decide (n < 64) || decide (16383 < n) || beAt frame 12 2 == 0x8808 then
        s.updPort f fun x => { x with macDrop := wrapTo 16 (x.macDrop + 1) }
      else
        let (en, addr, _) := s.portEntry f
        let s := s.noteEntry portTable (2 * f) 2
        if !en then s.updPktPort f fun x => { x with progDrop := wrapTo 16 (x.progDrop + 1) }
        else if 256 ≤ (s.pkt.waiting.filter fun w => w.1.port == f && w.1.num == 0).length then
          (s.updPktPort f fun x => { x with parseOvf := wrapTo 16 (x.parseOvf + 1) }).raiseItem 236 0 f 0 0
        else
          let k : PktRef := ⟨s.pkt.nextId, f, 0, t, frame⟩
          let s := s.updPktPort f fun x => { x with parsed := wrapTo 32 (x.parsed + 1) }
          s.setPkt fun x => { x with
            nextId := x.nextId + 1
            waiting := x.waiting ++ [(k, addr)]
            order := sparseSet (fun _ => []) f (sparseGet (fun _ => []) x.order f ++ [⟨k.id, none⟩]) x.order }

/-- `MAC_FRAME_TX`: the MAC sends the next frame of the host-bound buffer (R342, R371). -/
def execMacFrameTx (port : BitVec 5) : State → Host.Outcome State Fault Refusal :=
  complete fun s =>
    let f := port.toNat
    match (s.port f).boundQ with
    | [] => s
    | (_, b) :: rest =>
      if (s.port f).state ≠ 5 then s
      else (((s.updPort f fun x => { x with boundQ := rest, boundBytes := x.boundBytes - b.length }).count 9 f 1).count 0xA f
        b.length).emit (.packet f b)

/-! ### Tenant flow reads (R473) -/

/-- The grants of a page. -/
def State.pageGrants (s : State) (p : Nat) : List TenantGrant := s.rte.cfg.grants.filter fun g => g.page == p

/-- Whether a grant of the page with a bit covers a container. -/
def State.grantCovers (s : State) (page bit : Nat) (p : Path) (c : Nat) : Bool :=
  (s.pageGrants page).any fun g =>
    g.grants.testBit bit && pathOf g.path == p && decide (g.first ≤ c ∧ c < g.first + g.count)

/-- Whether a flow's action is a forward into a container whose flow counters the page may read. An action record that
reads uncorrectable is not valid (R403). -/
def State.flowPermitted (s : State) (page : Nat) (result : Bytes) : Bool :=
  let i := 16 * (resultAct result).1
  let a := s.tblBytes actionTable i 16
  s.entryOk actionTable i 16 && beAt a 0 1 == 1 && s.grantCovers page 1 (pathOf (beAt a 2 1 % 2)) (beAt a 3 1)

/-- The key registers of a page's view. -/
def Page.viewKey (x : Page) : Bytes :=
  (List.range 10).flatMap fun i => beBytes 4 (sparseGet (fun _ => (0 : Word)) x.view (0xB00 + 4 * i)).toNat

/-- `GO` of a page's flow read. -/
def State.tenantGo (s : State) (p : Nat) : State :=
  if (s.page p).flowWait then s.updPage p fun x => { x with flowRes := fBusy }
  else if s.inst 2 then
    (s.updPage p fun x => { x with flowWait := true }).setPkt fun k => { k with tenantQ := k.tenantQ ++ [p] }
  else s

/-- A page's flow read at its commit point. -/
def State.tenantRead (s : State) (p : Nat) : State :=
  let answer (s : State) (code pkts bytes : Nat) : State :=
    s.updPage p fun x => { x with flowWait := false, flowRes := code, flowPkts := pkts, flowBytes := bytes }
  match s.flowLookup (s.page p).viewKey with
  | (s, ⟨_, some l, _⟩) =>
    let s := s.noteEntry actionTable (16 * (resultAct l.result).1) 16
    if s.flowPermitted p l.result then answer s fOk l.pkts l.bytes else answer s 6 0 0
  | (s, ⟨_, none, _⟩) => answer s fNotFound 0 0

/-- `FLOW_COMMAND_COMPLETE`: the host's command, or else the first tenant read that waits, reaches its commit point
(R331, R473). -/
def execFlowCommandComplete : State → Host.Outcome State Fault Refusal :=
  complete fun s =>
    match s.pkt.cmd, s.pkt.tenantQ with
    | some op, _ =>
      let (s, code) := s.runFlow op
      (s.setPkt fun k => { k with cmd := none, result := code }).raise 239 code 0 op 0
    | none, p :: rest => (s.setPkt fun k => { k with tenantQ := rest }).tenantRead p
    | none, [] => s

/-- `LEARN_INSERT`: a queued learn insert runs when no host command waits (R333). -/
def execLearnInsert : State → Host.Outcome State Fault Refusal :=
  complete fun s =>
    match s.pkt.cmd, s.pkt.learn with
    | none, (key, r) :: rest =>
      let (s, code, _) := (s.setPkt fun k => { k with learn := rest }).insertKey key r
      if code = fFull then (s.updSecond fun y => { y with learnFail := satTo 8 (y.learnFail + 1) }).fullEvent
      else if code = fOk then s.updSecond fun y => { y with learned := satTo 16 (y.learned + 1) }
      else s
    | _, _ => s

/-- The counts of the second that ends are latched (R346). -/
def State.pktSecond (s : State) (sec : Nat) : State :=
  s.setPkt fun k => { k with latched := k.second, second := freshPktSecond, latchSec := sec % 2 ^ 32 }

/-- The signature array is the top 4 MiB of the packet buffer SRAM: zeroing it writes its words (R329). -/
def State.sramZero (s : State) : State :=
  let inside (k : Nat) : Bool := decide (sramKey 1 0 ≤ k ∧ k < sramKey 2 0)
  let s := s.sramFill 0x580000 0x80000 (List.replicate 8 0)
  { s with mem := { s.mem with sramUpset := sparseDrop inside s.mem.sramUpset } }

/-- A full load empties the flow table, the signature array and the cache, and the work in progress (R329, R334). -/
def State.pktClear (s : State) : State :=
  (s.setPkt fun k => { k with
    engines := [], waiting := [], order := [], sig := [], cache := [], learn := [], cmd := none, tenantQ := [] }).sramZero

/-! ### Register reads (R346) -/

def State.pktRead (s : State) (off : Nat) : Option Nat :=
  let k := s.pkt
  let f := s.pktPort (s.fld Reg.PKT_PORT_SEL 4 0)
  let l := k.latched
  if off = Reg.PKT_FLOW_STATUS then
    some (k.result * 2 ^ 24 + b2n k.cmd.isSome * 2 ^ 23 + k.moves * 2 ^ 20 + k.table * 2 ^ 19 + k.way * 2 ^ 17 + k.bucket)
  else if off = Reg.PKT_FLOW_PKTS_HI then some (k.pkts / 2 ^ 32)
  else if off = Reg.PKT_FLOW_PKTS_LO then some (k.pkts % 2 ^ 32)
  else if off = Reg.PKT_FLOW_BYTES_HI then some (k.bytes / 2 ^ 32)
  else if off = Reg.PKT_FLOW_BYTES_LO then some (k.bytes % 2 ^ 32)
  else if off = Reg.PKT_FLOW_USED then some k.sig.length
  else if off = Reg.PKT_PORT_CNT0 then some (f.depth * 65536 + f.length)
  else if off = Reg.PKT_PORT_CNT0 + 4 then some (f.detour * 65536 + f.cycle * 256 + f.actErr)
  else if off = Reg.PKT_PORT_CNT0 + 8 then some (f.parseOvf * 65536 + f.progDrop)
  else if off = Reg.PKT_PORT_CNT0 + 12 then some f.parsed
  else if off = Reg.PKT_ST_LATCH then some k.latchSec
  else if off = Reg.PKT_ST_LATCH + 4 then some l.hits
  else if off = Reg.PKT_ST_LATCH + 8 then some l.misses
  else if off = Reg.PKT_ST_LATCH + 12 then some l.absent
  else if off = Reg.PKT_ST_LATCH + 16 then some (l.learned * 65536 + l.learnFail * 256 + l.learnOvf)
  else if off = Reg.PKT_ST_LATCH + 20 then some (min 65535 (if l.passes = 0 then 0 else l.cycles * 256 / l.passes))
  else if off = Reg.PKT_ST_LATCH + 24 then some s.hbDrop
  else none

end Sys2Proof.Machine
end

