-- ==== Sys2Proof/Machine/Lanes.lean ====
section
/-!
DEFINITION. Host lanes and the shelf ring (15_host_lanes.md): the states of fast ports and legacy lanes, training,
carriage coding, peer violations, and the ring's messages and bypass.
-/
namespace Sys2Proof.Machine

/-! ### Ports and their lanes -/

/-- The lanes of a port. -/
def HostPort.lanes (r : HostPort) : List Nat := (List.range r.width).map (r.first + ·)

/-- The port of a fast lane. -/
def ImageCfg.portOfLane (g : ImageCfg) (l : Nat) : Option HostPort :=
  g.ports.find? fun r => decide (r.first ≤ l ∧ l < r.first + r.width)

/-- Whether the ring is enabled (R23). -/
def State.ringOn (s : State) : Bool := s.inst 7

/-- Whether a legacy lane is in use: it has a record, or carries the ring. -/
def State.laneUsed (s : State) (l : Nat) : Bool := s.rte.active && s.rte.cfg.legacyLanes.contains l

/-- Whether a legacy lane carries the ring. -/
def State.ringLane (s : State) (l : Nat) : Bool := s.ringOn && decide (l = 14 ∨ l = 15)

/-- Code groups that a legacy lane receives, after `RX_INV`, decoded at the receiver's running disparity (R377). -/
def State.laneRead (s : State) (l : Nat) (gs : List (BitVec 10)) : State × List (Option Group) :=
  let x := readGroups (s.lane l).rxRd (if flagOf (s.regI Reg.HSL_LANE_CTRL l) 2 then gs.map (~~~ ·) else gs)
  (s.updLane l fun y => { y with rxRd := x.2 }, x.1)

/-- Updates every lane of a port. -/
def State.updPortLanes (s : State) (r : HostPort) (g : FastLane → FastLane) : State :=
  r.lanes.foldl (fun s l => s.updFastLane l g) s

/-! ### Peer violations (R387, R388) -/

/-- Counts a violation of a fast lane. -/
def State.fastViol (s : State) (l code : Nat) : State :=
  let q := (s.fastLane l).quarantine
  let s := s.updFastLane l fun x =>
    { x with viol := wrapTo 16 (x.viol + 1), lastViol := code, secViol := satTo 8 (x.secViol + 1) }
  if q then s
  else
    let s := (s.detail (97 + 2 * l) code l 0 0).raiseItem (97 + 2 * l) code l 0 0
    if 16 ≤ (s.fastLane l).secViol then
      (s.updFastLane l fun x => { x with quarantine := true }).raise (97 + 2 * l) 0x10 l 0 0
    else s

/-- Counts a violation of a legacy lane. -/
def State.laneViol (s : State) (l code : Nat) : State :=
  let q := (s.lane l).quarantine
  let s := s.updLane l fun x =>
    { x with viol := wrapTo 16 (x.viol + 1), lastViol := code, secCv := satTo 8 (x.secCv + 1) }
  if q then s
  else
    let s := (s.detail (161 + 2 * l) code l 0 0).raiseItem (161 + 2 * l) code l 0 0
    if 16 ≤ (s.lane l).secCv then
      (s.updLane l fun x => { x with quarantine := true }).raise (161 + 2 * l) 0x10 l 0 0
    else s

/-- Invalid code groups received on a legacy lane: each one is a violation 0x05. -/
def State.laneInvalid (s : State) (l : Nat) : Nat → State
  | 0 => s
  | n + 1 => ((s.updLane l fun x => { x with cv := wrapTo 16 (x.cv + 1) }).laneViol l 5).laneInvalid l n

/-- `LANE_QUARANTINE_END`: 1 s of quarantine has passed (R388). -/
def execLaneQuarantineEnd (lane : BitVec 6) : State → Host.Outcome State Fault Refusal :=
  complete fun s =>
    let n := lane.toNat
    if n < 32 then
      if !(s.fastLane n).quarantine then s
      else (s.updFastLane n fun x => { x with quarantine := false }).raise (97 + 2 * n) 0x10 n (cleared 0) 0
    else
      let l := n - 32
      if !(s.lane l).quarantine then s
      else (s.updLane l fun x => { x with quarantine := false }).raise (161 + 2 * l) 0x10 l (cleared 0) 0

/-- The limits of a milestone second restart on every lane. -/
def State.lanesSecond (s : State) : State :=
  let s := (List.range 32).foldl (fun s l => s.updFastLane l fun x => { x with secViol := 0 }) s
  (List.range 16).foldl (fun s l => s.updLane l fun x => { x with secCv := 0 }) s

/-! ### States of a fast port (R385) -/

/-- The taps of a preset: c(-2), c(-1), c(1) (R381). -/
def presetTaps : Nat → Int × Int × Int
  | 2 => (0, -8, 0)
  | 3 => (0, -6, -4)
  | 4 => (-2, -10, -4)
  | _ => (0, 0, 0)

def FastLane.setTaps (x : FastLane) (t : Int × Int × Int) : FastLane :=
  { x with cm2 := t.1, cm1 := t.2.1, cp1 := t.2.2 }

/-- The main tap. -/
def mainTap (t : Int × Int × Int) : Int := 64 - t.1.natAbs - t.2.1.natAbs - t.2.2.natAbs

/-- What a lane forgets when its port leaves lock. -/
def FastLane.unlock (x : FastLane) : FastLane :=
  { x with locked := false, goodRun := 0, badRun := 0, rxWait := [] }

/-- The port's state event: the state and the cause. -/
def State.portEvent (s : State) (r : HostPort) (cause : Nat) : State :=
  s.raise (96 + 2 * r.first) 0 r.num (s.port r.num).state cause

/-- Sends bytes on a fast lane of a port (R368); `TX_INV` inverts them. -/
def State.sendFast (s : State) (r : HostPort) (l : Nat) (b : Bytes) : State :=
  s.emit (.fast l b (laneLevels (r.modul == 0) (flagOf (s.regI Reg.HSF_LANE_CTRL l) 0) b))

/-- The training frame that a lane sends (R380). -/
def State.sendTraining (s : State) (r : HostPort) (l : Nat) : State :=
  let x := s.fastLane l
  let b := beBytes 2 x.ownReq ++ beBytes 2 (b2n x.toggle * 32768 + b2n x.ready * 16384 + b2n x.limit * 4096)
  let (st, pat) := prbs13 5360 x.prbs
  (s.updFastLane l fun x => { x with prbs := st }).sendFast r l
    ([0xF0, 0x0F, 0x33, 0xCC] ++ b ++ beBytes 2 (crc16 b) ++ beBytes 670 pat)

/-- A port enters a state; in state 2 its lanes begin to send training frames (R380). -/
def State.portEnter (s : State) (r : HostPort) (st cause : Nat) : State :=
  let was := (s.port r.num).state
  let s := s.updPort r.num fun x =>
    { x with state := st, skewed := false, bySkew := st == 3 && cause == 7,
             capMismatch := x.capMismatch && st != 4, ownSeen := x.ownSeen && st == 4,
             txCount := if was < 3 then 0 else x.txCount }
  let s := if st ≤ 1 then
      (s.updPort r.num fun x => { x with aligned := false, rxAis := false }).updPortLanes r fun x =>
        { x.unlock with
          ready := false, readyRun := 0, lastReq := none, limit := false, ownReq := 0, capRun := 0, farSeen := false }
    else if st = 2 ∨ (st = 3 ∧ was = 1) then
      r.lanes.foldl (fun s l => s.updFastLane l fun x =>
        { x.setTaps (presetTaps (s.fldI Reg.HSF_PORT_CTRL r.num 6 4)) with prbs := (Config.trainSeed l).toNat }) s
    else if st = 3 ∨ st = 4 then s.updPortLanes r fun x => { x with capRun := 0, farSeen := false }
    else s
  let s := if st = 2 then r.lanes.foldl (fun s l => s.sendTraining r l) s else s
  s.portEvent r cause

/-- A port returns to state 1 (R385). -/
def State.portRestart (s : State) (r : HostPort) (cause : Nat) : State :=
  (s.updPort r.num fun x => { x with cause := cause, restarts := wrapTo 16 (x.restarts + 1) }).portEnter r 1 cause

/-- The record of a port by number, while the image is active. -/
def State.portRec (s : State) (f : Nat) : Option HostPort := if s.rte.active then s.rte.cfg.port f else none

/-- Follows `EN` of a port: 0 puts it in state 0, 1 starts it (R385). -/
def State.portEn (s : State) (f : Nat) (v : Bool) : State :=
  match s.portRec f with
  | none => s
  | some r =>
    let st := (s.port f).state
    if v ∧ st = 0 ∧ s.pwr.hostRef then s.portEnter r 1 0
    else if !v ∧ st ≠ 0 then s.portEnter r 0 0
    else s

/-- A port that does not train transmits with the taps of `PRESET`, a later write of it included (R381). -/
def State.presetTaken (s : State) (f : Nat) : State :=
  match s.portRec f with
  | none => s
  | some r =>
    if 3 ≤ (s.port f).state ∧ s.fldI Reg.HSF_PORT_CTRL f 9 8 = 0 then
      s.updPortLanes r fun x => x.setTaps (presetTaps (s.fldI Reg.HSF_PORT_CTRL f 6 4))
    else s

/-- `RESTART` of a port: to state 1 from any state (R385). -/
def State.portRestartCmd (s : State) (f : Nat) : State :=
  match s.portRec f with
  | none => s
  | some r => s.portRestart r 6

/-- A port leaves detect: to train, or to lock when `TRAIN` is 0. -/
def State.portDetected (s : State) (r : HostPort) : State :=
  if (s.port r.num).state = 1 ∧ s.pwr.hostRef then
    s.portEnter r (if s.fldI Reg.HSF_PORT_CTRL r.num 9 8 = 1 then 2 else 3) 0
  else s

/-- `TERMINATION_PROBE` (R385). -/
def execTerminationProbe (port : BitVec 5) (sensed : Bool) : State → Host.Outcome State Fault Refusal :=
  complete fun s => match s.portRec port.toNat with
    | some r => if sensed then s.portDetected r else s
    | none => s

/-- `SIGNAL_DETECTED`: signal on every lane of the port for 1 ms (R385). -/
def execSignalDetected (port : BitVec 5) : State → Host.Outcome State Fault Refusal :=
  complete fun s => match s.portRec port.toNat with
    | some r => (s.updPortLanes r fun x => { x with signal := true }).portDetected r
    | none => s

/-- `SIGNAL_LOST`: signal lost on a lane for 100 us (R385). -/
def execSignalLost (lane : BitVec 5) : State → Host.Outcome State Fault Refusal :=
  complete fun s =>
    let s := s.updFastLane lane.toNat fun x => { x with signal := false }
    match s.rte.cfg.portOfLane lane.toNat with
    | some r => if s.rte.active ∧ 2 ≤ (s.port r.num).state then s.portRestart r 4 else s
    | none => s

/-- `PORT_STATE_TIMEOUT`: the timer of the port's state expires (R385). -/
def execPortStateTimeout (port : BitVec 5) : State → Host.Outcome State Fault Refusal :=
  complete fun s => match s.portRec port.toNat with
    | none => s
    | some r =>
      let x := s.port r.num
      if x.state = 2 then s.portRestart r 1
      else if x.state = 3 then s.portRestart r (if x.skewed || x.bySkew then 7 else 2)
      else if x.state = 4 then s.portRestart r 3
      else s

/-- `ETHERNET_PORT_ALIGNED`: alignment lock on every PCS lane (R370, R385). -/
def execEthernetPortAligned (port : BitVec 5) : State → Host.Outcome State Fault Refusal :=
  complete fun s => match s.portRec port.toNat with
    | none => s
    | some r =>
      if r.coding = 0 ∧ (s.port r.num).state = 3 then
        ((s.updPort r.num fun x => { x with aligned := true }).updPortLanes r fun x => { x with locked := true }).portEnter r 5 0
      else s

/-- `ETHERNET_ALIGNMENT_LOST` (R385). -/
def execEthernetAlignmentLost (port : BitVec 5) : State → Host.Outcome State Fault Refusal :=
  complete fun s => match s.portRec port.toNat with
    | none => s
    | some r =>
      if r.coding = 0 ∧ (s.port r.num).state = 5 then
        ((s.updPort r.num fun x => { x with aligned := false }).updPortLanes r fun x => x.unlock).portEnter r 3 0
      else s

/-! ### Training (R380 to R383) -/

/-- Whether a request field breaks R382: a reserved value, a preset and an action together, a reserved bit. -/
def requestBad (q : Nat) : Bool :=
  decide (5 ≤ bitsOf q 14 12) || bitsOf q 11 10 == 3 || bitsOf q 9 8 == 3 || bitsOf q 7 0 != 0
    || (bitsOf q 14 12 != 0 && bitsOf q 9 8 != 0)

/-- Whether taps lie in the ranges of R381. -/
def tapsOk (t : Int × Int × Int) : Bool :=
  decide (-8 ≤ t.1 ∧ t.1 ≤ 0 ∧ -20 ≤ t.2.1 ∧ t.2.1 ≤ 0 ∧ -16 ≤ t.2.2 ∧ t.2.2 ≤ 0 ∧ 32 ≤ mainTap t)

/-- The taps that a valid request asks for. -/
def requestTaps (q : Nat) (t : Int × Int × Int) : Int × Int × Int :=
  if bitsOf q 14 12 ≠ 0 then presetTaps (bitsOf q 14 12)
  else
    let d : Int := match bitsOf q 9 8 with | 1 => 1 | 2 => -1 | _ => 0
    match bitsOf q 11 10 with
    | 0 => (t.1 + d, t.2.1, t.2.2)
    | 1 => (t.1, t.2.1 + d, t.2.2)
    | _ => (t.1, t.2.1, t.2.2 + d)

def FastLane.taps (x : FastLane) : Int × Int × Int := (x.cm2, x.cm1, x.cp1)

/-- Answers a tap request of a lane (R382, R387, R388). `early` tells that it came before the last answer was sent. -/
def State.tapRequest (s : State) (l q : Nat) (early : Bool) : State :=
  let x := s.fastLane l
  let t := decide (2 ^ 15 ≤ q)
  let answer (s : State) (limit : Bool) : State :=
    s.updFastLane l fun x => { x with toggle := t, lastReq := some q, limit := limit }
  if x.lastReq = some q then s
  else if x.lastReq.isSome ∧ t = x.toggle then
    (if early then answer (s.fastViol l 2) true else s.updFastLane l fun x => { x with lastReq := some q })
  else if requestBad q then answer (s.fastViol l 1) true
  else
    let new := requestTaps q x.taps
    if x.quarantine || !tapsOk new then answer s true
    else answer (s.updFastLane l fun x => x.setTaps new) false

/-- The lane's own next request: once the last one has been acknowledged, what its margin asks for under the inverted
toggle (R382). -/
def FastLane.nextReq (x : FastLane) (acked : Bool) (want : Option (BitVec 7)) : Nat :=
  let n := (want.getD 0).toNat
  let q := (if x.ownReq < 32768 then 32768 else 0) + n * 256
  if n == 0 || !acked || requestBad q then x.ownReq else q

/-- `TRAINING_FRAME`: a received training frame, and the frame that the lane sends next (R380 to R383). Frames go out
back to back, so one follows a frame whose CRC fails too. -/
def execTrainingFrame (lane : BitVec 5) (request status crc : BitVec 16) (want : Option (BitVec 7)) (early : Bool) :
    State → Host.Outcome State Fault Refusal :=
  complete fun s =>
    let l := lane.toNat
    match s.rte.cfg.portOfLane l with
    | none => s
    | some r =>
      if !s.rte.active || (s.port r.num).state != 2 then s
      else if crc16 (beBytes 2 request.toNat ++ beBytes 2 status.toNat) ≠ crc.toNat then s.sendTraining r l
      else
        let s := s.tapRequest l request.toNat early
        let s := s.updFastLane l fun x =>
          { x with
            ready := want.isNone
            readyRun := if want.isNone && status.getLsbD 14 then x.readyRun + 1 else 0
            ownReq := x.nextReq (status.getLsbD 15 == decide (32768 ≤ x.ownReq)) want }
        let s := s.sendTraining r l
        if r.lanes.all fun l => decide (8 ≤ (s.fastLane l).readyRun) then s.portEnter r 3 0 else s

/-! ### Carriage coding (R372 to R376, R386) -/

/-- Stream bytes of a stuff code (R374). -/
def streamBytes : Nat → Nat
  | 1 => 1280
  | 2 => 1272
  | _ => 1276

/-- One lane's scrambled payload area: `n` bytes from state `st` (R373). -/
def scrambleByte (st : Nat) (b : Byte) : Nat × Byte :=
  [7, 6, 5, 4, 3, 2, 1, 0].foldl (fun (x : Nat × Byte) i =>
    let o := x.1.testBit 30 != x.1.testBit 27
    ((x.1 * 2 + b2n o) % 2 ^ 31, if b.getLsbD i != o then x.2 ||| BitVec.ofNat 8 (2 ^ i) else x.2)) (st, 0)

def scrambleFrom (st : Nat) : Bytes → Bytes
  | [] => []
  | b :: bs => let x := scrambleByte st b; x.2 :: scrambleFrom x.1 bs

/-- The scrambler of lane index `i` (R373). -/
def carriageScramble (i : Nat) (b : Bytes) : Bytes := scrambleFrom (0x7FFFFFFF ^^^ (i * 0x01010101)) b

/-- The 1,285 message bytes of a carriage frame (R372). -/
def carriageMessage (i code : Nat) (ais cap : Bool) (count : Nat) (area : Bytes) : Bytes :=
  let h := beBytes 1 (i * 32 + code * 8 + b2n ais * 4 + b2n cap * 2) ++ beBytes 1 count
  [0x6B, 0x2D] ++ h ++ beBytes 1 (crc8 h) ++ carriageScramble i (padTo 1280 area)

/-- The capability record of a port (R386). -/
def State.capRecord (s : State) (r : HostPort) : Bytes :=
  let b := [1] ++ beBytes 1 (r.width * 16 + r.rate * 4 + r.modul * 2 + b2n (s.port r.num).ownSeen)
    ++ bytesAt s.tru.ident 0 8 ++ [0, 0, 0, 0]
  b ++ beBytes 2 (crc16 b)

/-- Sends a frame set. `area` gives each lane's payload area. -/
def State.sendSet (s : State) (r : HostPort) (code : Nat) (ais cap : Bool) (area : Nat → Bytes) : State :=
  let c := (s.port r.num).txCount
  (List.range r.width).foldl (fun s i => s.sendFast r (r.first + i) (carriageBits (carriageMessage i code ais cap c (area i))))
    (s.updPort r.num fun x => { x with txCount := (c + 1) % 256 })

/-- The stuff code for a fill (R375). -/
def stuffCode (w fill : Nat) : Nat :=
  if 2048 * w + 64 * w ≤ fill then 1 else if fill < 2048 * w - 64 * w then 2 else 0

/-- The bytes that have entered the egress payload buffer since the last frame set: those of a nominal one (R374, log
142). -/
def State.carriageArrive (s : State) (r : HostPort) : State :=
  s.updPort r.num fun x =>
    let n := r.width * streamBytes 0
    { x with egress := x.egress ++ x.arrive.take n, arrive := x.arrive.drop n }

/-- `CARRIAGE_FRAME_SET`: the start of a transmit frame set (R375, R385, R386). -/
def execCarriageFrameSet (port : BitVec 5) : State → Host.Outcome State Fault Refusal :=
  complete fun s => match s.portRec port.toNat with
    | none => s
    | some r =>
      let x := s.port r.num
      if r.coding ≠ 1 ∨ !s.pwr.hostRef then s
      else if x.state = 3 ∨ x.state = 4 then s.sendSet r 0 false true fun _ => s.capRecord r
      else if x.state ≠ 5 then s
      else
        let s := s.carriageArrive r
        let x := s.port r.num
        if x.egressAis || (!x.egressRun && decide (x.egress.length < r.egressMid)) then
          s.sendSet r 0 true false fun _ => []
        else
        let s := s.updPort r.num fun x => { x with egressRun := true }
        let need := r.width * streamBytes (stuffCode r.width x.egress.length)
        let s := if x.egress.length < need then s.egressFault r.num r else s
        let x := s.port r.num
        let code := stuffCode r.width x.egress.length
        let n := streamBytes code
        let s := s.updPort r.num fun x =>
          { x with egress := x.egress.drop (r.width * n),
                   stuffNeg := if code = 1 then wrapTo 16 (x.stuffNeg + 1) else x.stuffNeg,
                   stuffPos := if code = 2 then wrapTo 16 (x.stuffPos + 1) else x.stuffPos }
        s.sendSet r code false false fun i => bytesAt x.egress (i * n) n

/-- What the receiver of a lane has of a frame's 10,880 bits, after `RX_INV`: both code words are corrected where they can
be (R372, R376). -/
def carriageRx (inv : Bool) (raw : Bytes) : CarriageRx :=
  let raw := if inv then raw.map (~~~ ·) else raw
  let syms := symbolsOf 1088 raw
  let word0 := rsDecode 30 (syms.take 544)
  let word (w : Option (List Nat)) (l : List Nat) : List Nat := (w.getD l).take 514
  let msg := symbolBytes 1285 (word word0 (syms.take 544) ++ word (rsDecode 30 (syms.drop 544)) (syms.drop 544))
  { wordErrors := onesOf 16 (beAt raw 0 2 ^^^ 0x6B2D), crcRaw := crc8 (bytesAt raw 2 2) == beAt raw 4 1
    header := bytesAt msg 2 3, readable := word0.isSome, stream := msg.drop 5 }

def carriageByte (f : CarriageRx) (i : Nat) : Nat := (f.header.getD i 0).toNat

/-- A readable header: code word 0 is correctable and its CRC checks (R376). -/
def carriageReadable (f : CarriageRx) : Bool := f.readable && crc8 (f.header.take 2) == carriageByte f 2

def carriageStuff (f : CarriageRx) : Nat := bitsOf (carriageByte f 0) 4 3

/-- Alignment of a lane on a received frame (R376). A frame whose header cannot be read continues the frame count. -/
def FastLane.carriage (x : FastLane) (f : CarriageRx) : FastLane :=
  let pass := decide (f.wordErrors ≤ 2) && f.crcRaw
  let x := { x with rxCount := if carriageReadable f then carriageByte f 1 else (x.rxCount + 1) % 256 }
  if x.locked then
    if pass then { x with badRun := 0 }
    else if 4 ≤ x.badRun + 1 then x.unlock
    else { x with badRun := x.badRun + 1 }
  else if pass then
    if 2 ≤ x.goodRun + 1 then { x with locked := true, goodRun := 0, badRun := 0 } else { x with goodRun := x.goodRun + 1 }
  else { x with goodRun := 0 }

/-- Distance of two frame counts, mod 256. -/
def countGap (a b : Nat) : Nat := min ((a + 256 - b) % 256) ((b + 256 - a) % 256)

/-- Whether the frame counts of the port's aligned lanes differ by more than 4 frames (R376). -/
def State.portSkewed (s : State) (r : HostPort) : Bool :=
  let l := (r.lanes.filter fun l => (s.fastLane l).locked).map fun l => (s.fastLane l).rxCount
  l.any fun a => l.any fun b => decide (4 < countGap a b)

/-- A received capability record on a lane (R386, R387). -/
def State.capReceive (s : State) (r : HostPort) (l : Nat) (f : CarriageRx) : State :=
  let b := bytesAt f.stream 0 16
  let crcGood := crc16 (b.take 14) == beAt b 14 2
  if (s.fastLane l).quarantine || !carriageReadable f || !(carriageByte f 0).testBit 1 then s
  else if crcGood && (beAt b 0 1 != 1 || beAt b 10 4 != 0) then s.fastViol l 3
  else if crcGood && beAt b 1 1 / 2 == r.width * 8 + r.rate * 2 + r.modul then
    s.updFastLane l fun x => { x with capRun := x.capRun + 1, farSeen := (beAt b 1 1) % 2 == 1 }
  else
    ((s.updFastLane l fun x => { x with capRun := 0, farSeen := false }).updPort r.num fun x =>
      { x with capMismatch := true }).raise (96 + 2 * r.first) 1 r.num 0 0

/-- The capability exchange of a port in state 4 (R386). -/
def State.capStep (s : State) (r : HostPort) (fs : List (Nat × CarriageRx)) : State :=
  let s := fs.foldl (fun s e => s.capReceive r e.1 e.2) s
  let s := if r.lanes.all fun l => decide (2 ≤ (s.fastLane l).capRun)
    then s.updPort r.num fun x => { x with ownSeen := true } else s
  let x := s.port r.num
  if x.ownSeen && !x.capMismatch && r.lanes.any (fun l => (s.fastLane l).farSeen) then s.portEnter r 5 0 else s

/-- A readable header with a reserved stuff code or bit 0 set (R387). -/
def carriageBad (f : CarriageRx) : Bool := carriageReadable f && (carriageStuff f == 3 || (carriageByte f 0).testBit 0)

/-- The headers of one set that may be used, and the lanes whose stuff code is another than that of the lowest usable lane
(R387). -/
def setHeaders (fs : List (Nat × CarriageRx)) : List (Nat × CarriageRx) × List Nat :=
  let ok := fs.filter fun e => carriageReadable e.2 && !carriageBad e.2
  let code := match ok with | e :: _ => carriageStuff e.2 | [] => 0
  (ok.filter fun e => carriageStuff e.2 == code, (ok.filter fun e => carriageStuff e.2 != code).map (·.1))

/-- A complete received frame set (R374, R376). Without a readable header its stream bytes are marked errored. -/
def State.frameSet (s : State) (r : HostPort) (fs : List (Nat × CarriageRx)) : State :=
  let h := setHeaders fs
  let s := h.2.foldl (fun s l => s.fastViol l 4) s
  let s := if (s.port r.num).state = 4 then s.capStep r fs else s
  let (s, code, cap) : State × Nat × Bool := match h.1 with
    | e :: _ => (s.updPort r.num fun x => { x with rxAis := (carriageByte e.2 0).testBit 2, rxErrored := false },
        carriageStuff e.2, (carriageByte e.2 0).testBit 1)
    | [] => (s.updPort r.num fun x => { x with hdrErr := wrapTo 16 (x.hdrErr + 1), rxErrored := true }, 0, false)
  if (s.port r.num).state ≠ 5 ∨ cap then s
  else
    let b := fs.flatMap fun e => padTo (streamBytes code) e.2.stream
    match s.rte.cfg.contOf 0 r.num with
    | some (p, c) => s.updCont p c fun x => if x.qual then { x with buf := x.buf ++ b } else x
    | none => s

/-- Takes complete frame sets from the deskew buffers: a lane whose oldest frame is behind the others' drops it; `fuel`
bounds the number of steps (R376). -/
def State.deskew (s : State) (r : HostPort) : Nat → State
  | 0 => s
  | fuel + 1 =>
    let heads := r.lanes.map fun l => (l, ((s.fastLane l).rxWait.head?), (s.fastLane l).rxCount + 257 - (s.fastLane l).rxWait.length)
    if heads.any fun h => h.2.1.isNone then s
    else
      let counts := heads.map fun h => h.2.2 % 256
      let first := counts.headD 0
      if counts.all (· == first) then
        let fs := heads.filterMap fun h => h.2.1.map fun f => (h.1, f)
        let s := s.updPortLanes r fun x => { x with rxWait := x.rxWait.drop 1 }
        (s.frameSet r fs).deskew r fuel
      else
        let behind (c : Nat) : Bool := counts.any fun d => d != c && decide ((d + 256 - c) % 256 < 128)
        let s := heads.foldl (fun s h =>
          if behind (h.2.2 % 256) then s.updFastLane h.1 fun x => { x with rxWait := x.rxWait.drop 1 } else s) s
        s.deskew r fuel

/-- `CARRIAGE_FRAME`: a received frame of every lane of the port, whose payload areas are descrambled (R373, R376). A port
in state 4 or 5 with a lane that has lost alignment returns to state 3 (log 129). -/
def execCarriageFrame (port : BitVec 5) (frames : List Bytes) : State → Host.Outcome State Fault Refusal :=
  complete fun s => match s.portRec port.toNat with
    | none => s
    | some r =>
      if r.coding ≠ 1 ∨ (s.port r.num).state < 3 then s
      else
        let plain := (r.lanes.zip frames).zipIdx.map fun e =>
          let f := carriageRx (flagOf (s.regI Reg.HSF_LANE_CTRL e.1.1) 1) e.1.2
          (e.1.1, { f with stream := carriageScramble e.2 f.stream })
        let s := plain.foldl (fun s e =>
          let s := s.updFastLane e.1 fun x =>
            let x := x.carriage e.2
            if x.locked then { x with rxWait := (x.rxWait ++ [e.2]).drop (x.rxWait.length - 5) } else { x with rxWait := [] }
          if (s.fastLane e.1).locked && carriageBad e.2 then s.fastViol e.1 4 else s) s
        let all := r.lanes.all fun l => (s.fastLane l).locked
        let skew := s.portSkewed r
        let st := (s.port r.num).state
        let s :=
          if skew ∧ 4 ≤ st then s.portEnter r 3 7
          else if !all ∧ 4 ≤ st then s.portEnter r 3 0
          else s.updPort r.num fun x => { x with skewed := skew }
        if skew || !all then s
        else
          let s := if (s.port r.num).state = 3 then s.portEnter r 4 0 else s
          s.deskew r 16

/-! ### Legacy lanes (R379) and the bypass (R393, R394) -/

/-- The bypass closes (R393). Only the causes of the second list have a code. -/
def State.bypassClosed (s : State) (cause : Nat) : State :=
  if !s.hsl.bypassOpen then s
  else
    let s := { s with hsl := { s.hsl with
      bypassOpen := false, timeDue := false, closeCause := if cause = 0 then s.hsl.closeCause else cause } }
    ((s.raise 188 2 14 cause 0).raise 190 2 15 cause 0)

/-- A closing cause of the second list, which acts while the ring is enabled. -/
def State.ringClose (s : State) (cause : Nat) : State := if s.ringOn then s.bypassClosed cause else s

/-- A legacy lane enters a state, with its event. -/
def State.laneEnter (s : State) (l st : Nat) : State :=
  let was := (s.lane l).state
  let s := (s.updLane l fun x => { x with state := st, badLen := 0, cvAgo := [] }).raise (160 + 2 * l) 0 l st 0
  if s.ringLane l ∧ was = 4 then (s.ringClose 1).resetSessions fun n => decide (256 ≤ n)
  else if st = 4 ∧ !s.ringLane l then
    s.updFleam l fun x => { x with inWait := [], inPrimed := false, inCur := none }
  else s

/-- Follows `EN` of a legacy lane. -/
def State.laneEn (s : State) (l : Nat) (v : Bool) : State :=
  if !s.laneUsed l then s
  else if v ∧ (s.lane l).state = 0 ∧ s.pwr.hostRef then s.laneEnter l 1
  else if !v ∧ (s.lane l).state ≠ 0 then s.laneEnter l 0
  else s

/-- `RESTART` of a legacy lane: to state 1 from any state (R379). -/
def State.laneRestartCmd (s : State) (l : Nat) : State := if s.laneUsed l then s.laneEnter l 1 else s

/-- `LANE_STATE_ADVANCE`: the condition that leaves states 1, 2 or 3 is met (R379). -/
def execLaneStateAdvance (lane : BitVec 4) : State → Host.Outcome State Fault Refusal :=
  complete fun s =>
    let st := (s.lane lane.toNat).state
    if s.laneUsed lane.toNat ∧ s.pwr.hostRef ∧ 1 ≤ st ∧ st ≤ 3 then s.laneEnter lane.toNat (st + 1) else s

/-- `LANE_STATE_TIMEOUT`: 20 ms since state 1 was entered (R379). -/
def execLaneStateTimeout (lane : BitVec 4) : State → Host.Outcome State Fault Refusal :=
  complete fun s =>
    let st := (s.lane lane.toNat).state
    if s.laneUsed lane.toNat ∧ 1 ≤ st ∧ st ≤ 3 then s.laneEnter lane.toNat 1 else s

/-- `LANE_LOCK_LOST`: a condition that takes a legacy lane out of state 4 (R379, R393, R451). -/
def execLaneLockLost (lane : BitVec 4) : State → Host.Outcome State Fault Refusal :=
  complete fun s => if (s.lane lane.toNat).state = 4 then s.laneEnter lane.toNat 1 else s

/-- `LANE_ADAPTATION_UPDATE`: one update of the peaking (R384). -/
def execLaneAdaptationUpdate (lane : BitVec 6) (want : Int) : State → Host.Outcome State Fault Refusal :=
  complete fun s =>
    let n := lane.toNat
    let id := laneLoopId n
    let on := if n < 32 then
        (match s.rte.cfg.portOfLane n with | some r => s.rte.active && decide (2 ≤ (s.port r.num).state) | none => false)
      else decide (n < 48 ∧ 2 ≤ (s.lane (n - 32)).state)
    if !on || (s.rail id).freeze then s
    else
      let (s, out) := s.railUpdate id (s.rail id).out want
      s.setOut id out

/-- What a Fleam lane receives outside a frame: every invalid or special code group is a violation (R387). -/
def outsideBad (l : List (Option Group)) : Nat := (l.filter fun g => (dataByte g).isNone).length

/-- A frame as received: its bytes, byte 0 being that of /FS/, and how many of its code groups are out of place. -/
def fleamRead (l : List (Option Group)) : Bytes × Nat :=
  match l with
  | some (.k 0xBC) :: rest => (0xBC :: rest.map fun g => (dataByte g).getD 0, outsideBad rest)
  | l => (l.map fun g => (dataByte g).getD 0, max 1 (outsideBad l))

/-- `FLEAM_FRAME`: a complete tributary frame of a lane (R242, R387). Four in a row of another length end the lock of the
lane (R379). -/
def execFleamFrame (lane : BitVec 4) (frame before : List (BitVec 10)) : State → Host.Outcome State Fault Refusal :=
  complete fun s =>
    let l := lane.toNat
    if (s.lane l).state ≠ 4 ∨ s.ringLane l then s
    else
      let (s, out) := s.laneRead l before
      let (s, groups) := s.laneRead l frame
      let (bytes, bad) := fleamRead groups
      let s := (s.laneInvalid l (outsideBad out + bad)).fleamIn l bytes (bad != 0)
      let wrong := bytes.length != 128 * s.laneRate l
      let s := s.updLane l fun x => { x with badLen := if wrong then x.badLen + 1 else 0 }
      if 4 ≤ (s.lane l).badLen then s.laneEnter l 1 else s

/-- `HOST_REFERENCE_LOST`: every host transmitter is muted, the ports return to state 1 and the lanes lose lock (R29,
R385, R393). -/
def execHostReferenceLost : State → Host.Outcome State Fault Refusal :=
  complete fun s =>
    let s := { s with pwr := { s.pwr with hostRef := false } }
    let s := s.ringClose 2
    let s := if !s.rte.active then s else s.rte.cfg.ports.foldl (fun s r => s.portRestart r 5) s
    (List.range 16).foldl (fun s l => if 2 ≤ (s.lane l).state then s.laneEnter l 1 else s) s

/-- `HOST_REFERENCE_RETURNED`: each port whose `EN` is 1 restarts at state 1 (R385). -/
def execHostReferenceReturned : State → Host.Outcome State Fault Refusal :=
  complete fun s =>
    let s := { s with pwr := { s.pwr with hostRef := true } }
    let s := if !s.rte.active then s else s.rte.cfg.ports.foldl (fun s r =>
      if flagOf (s.regI Reg.HSF_PORT_CTRL r.num) 0 ∧ (s.port r.num).state = 0 then s.portEnter r 1 0 else s) s
    (List.range 16).foldl (fun s l =>
      if s.laneUsed l ∧ flagOf (s.regI Reg.HSL_LANE_CTRL l) 0 ∧ (s.lane l).state = 0 then s.laneEnter l 1 else s) s

/-- `BYPASS_CLOSE`: a closing cause of R393. -/
def execBypassClose (cause : BitVec 4) : State → Host.Outcome State Fault Refusal :=
  complete fun s => if 1 ≤ cause.toNat ∧ cause.toNat ≤ 4 then s.ringClose cause.toNat else s

/-- `VDD_RING_FALL`: the bypass closes whatever else holds, and stays closed while the supply is absent (R393, R507); the
model has the supply back at the next release of reset (log 116). -/
def execVddRingFall : State → Host.Outcome State Fault Refusal :=
  complete fun s =>
    let s := s.bypassClosed 0
    { s with hsl := { s.hsl with vddRing := false } }

/-- The bypass opens, where `VDD_RING` can hold it open. -/
def State.bypassOpened (s : State) : State :=
  if s.hsl.bypassOpen || !s.hsl.vddRing then s
  else
    let s := { s with hsl := { s.hsl with bypassOpen := true, insertions := wrapTo 8 (s.hsl.insertions + 1) } }
    (s.raise 188 1 14 0 0).raise 190 1 15 0 0

/-- Whether the station may be inserted (R394). -/
def State.mayInsert (s : State) : Bool :=
  s.ringOn && s.hsl.vddRing && flagOf (s.reg Reg.HSL_RING_CTRL) 0 && (s.lane 14).state == 4 && (s.lane 15).state == 4

/-- `BYPASS_OPEN`: the insertion instant, within a run of received /RI/ (R394). -/
def execBypassOpen : State → Host.Outcome State Fault Refusal :=
  complete fun s => if s.mayInsert then s.bypassOpened else s

/-! ### Lanes at the activation and the teardown of an image (R23, R50, R385) -/

/-- An image becomes active. One without the ring opens the bypass; under one with the ring it is closed until the station
is inserted (R23, R393, R394), also where an image without the ring has left it open (log 130). -/
def State.lanesUp (s : State) : State :=
  let s := s.rte.cfg.ports.foldl (fun s r => s.portEn r.num (flagOf (s.regI Reg.HSF_PORT_CTRL r.num) 0)) s
  let s := s.rte.cfg.legacyLanes.foldl (fun s l => s.laneEn l (flagOf (s.regI Reg.HSL_LANE_CTRL l) 0)) s
  if s.ringOn then s.ringClose 1 else s.bypassOpened

def State.lanesDown (s : State) : State :=
  let s := s.ringClose 4
  let s := s.rte.cfg.ports.foldl (fun s r => if (s.port r.num).state = 0 then s else s.portEnter r 0 0) s
  (List.range 16).foldl (fun s l => if (s.lane l).state = 0 then s else s.laneEnter l 0) s

/-! ### Ring messages (R389 to R392) -/

/-- Own station number. -/
def State.station (s : State) : Nat := s.fld Reg.HSL_RING_CTRL 15 8

def State.timeMaster (s : State) : Bool := flagOf (s.reg Reg.HSL_RING_CTRL) 1

/-- The lane that ring time is taken from: false L14, true L15. -/
def State.timeLane (s : State) : Bool := flagOf (s.reg Reg.HSL_RING_CTRL) 2

/-- The receiving lane of a direction. -/
def ringRx (lane15 : Bool) : Nat := if lane15 then 15 else 14

/-- The transmitting lane of a direction: east enters on L14 and leaves on L15. -/
def ringTx (lane15 : Bool) : Nat := if lane15 then 14 else 15

/-- Whether a ring message is whole (R390). -/
def ringOk (m : Bytes) : Bool :=
  let n := beAt m 4 2
  decide (n ≤ 1024) && m.length == 8 + n && crc16 (patchBytes (m.take (6 + n)) 3 [0]) == beAt m (6 + n) 2

/-- A ring message. -/
def ringMsg (typ src dst hop : Nat) (payload : Bytes) : Bytes :=
  let h := beBytes 1 typ ++ beBytes 1 src ++ beBytes 1 dst
  let t := beBytes 2 payload.length ++ payload
  h ++ beBytes 1 hop ++ t ++ beBytes 2 (crc16 (h ++ [0] ++ t))

/-- A message that is not acted on for a fault of its own: counted, with an event (R390, R392). -/
def State.ringMsgBad (s : State) (l : Nat) : State :=
  ({ s with hsl := { s.hsl with msgBad := satTo 8 (s.hsl.msgBad + 1) } }).raiseItem (161 + 2 * l) 0x20 l 0 0

def State.ringActed (s : State) : State := { s with hsl := { s.hsl with msgRx := wrapTo 16 (s.hsl.msgRx + 1) } }

/-- Sends code groups on a ring lane while the station is inserted. -/
def State.ringSend (s : State) (l : Nat) (gs : List Group) : State := if s.hsl.bypassOpen then s.sendGroups l gs else s

/-- A message of the station's own goes in both directions. -/
def State.ringOriginate (s : State) (m : Bytes) : State :=
  (s.ringSend 14 (ringGroups (m.map some))).ringSend 15 (ringGroups (m.map some))

/-- The code groups that came between messages, repeated with /V/ in place of the invalid ones, and how many those are: a
special group other than the comma is out of place there (R387, R389). -/
def ringBetween (l : List (Option Group)) : List Group × Nat :=
  let ok (g : Option Group) : Bool := (dataByte g).isSome || g == some (.k 0xBC)
  (l.map fun g => if ok g then g.getD invalidGroup else invalidGroup, (l.filter fun g => !ok g).length)

/-- How many groups ago the bad ones of a list came; `ok` says which are good. -/
def badAgo {α : Type} (ok : α → Bool) (l : List α) : List Nat :=
  (l.reverse.zipIdx.filter fun x => !ok x.1).map (·.2)

/-- Follows the invalid code groups of a ring lane among `n` groups that have come, the bad ones `ago` groups before the
last; tells whether `CV_THR` of them came within 1,024 (R379). -/
def State.ringWindow (s : State) (l n : Nat) (ago : List Nat) : State × Bool :=
  let all := ago ++ (s.lane l).cvAgo.map (· + n)
  let thr := s.fldI Reg.HSL_LANE_CTRL l 15 8
  let lost := ago.any fun a => decide (thr ≤ (all.filter fun b => decide (a ≤ b ∧ b < a + 1024)).length)
  (s.updLane l fun x => { x with cvAgo := all.filter (· < 1024) }, lost)

/-- Forwards, removes or discards a received message; tells whether it may be acted on (R389, R390, R392). In place of one
that is removed or discarded go as many /RI/ as fill its length (log 131). -/
def State.ringForward (s : State) (lane15 : Bool) (groups : List (Option Byte)) : State × Bool :=
  let send (s : State) (b : List (Option Byte)) : State := s.ringSend (ringTx lane15) (ringBody b)
  let idle (s : State) : State := s.ringSend (ringTx lane15) (ringIdles ((groups.length + 3) / 2))
  let l := ringRx lane15
  let m := groups.filterMap id
  if groups.contains none || !ringOk m then ((send s groups).ringMsgBad l, false)
  else if beAt m 1 1 = s.station then (idle s, false)
  else if s.timeMaster ∧ beAt m 0 1 = 1 then ((idle s).ringMsgBad l, false)
  else if beAt m 3 1 = 255 then (idle s, false)
  else (send s ((patchBytes m 3 (beBytes 1 (beAt m 3 1 + 1))).map some), !(s.lane l).quarantine)

/-- Acts on a ring time message (R62, R391). -/
def State.ringTime (s : State) (lane15 : Bool) (m : Bytes) (since : Nat) : State :=
  if s.timeSrc = 2 ∧ lane15 = s.timeLane then s.ringActed.timeMessage (bytesAt m 6 (beAt m 4 2)) since else s

/-- The time message that a master sends (R62, R391). -/
def State.timePayload (s : State) : Bytes :=
  let b := [0x4D, 0x54, 1] ++ beBytes 1 (s.mst.msgFlags % 8) ++ beBytes 6 (s.mst.sec + 1) ++ beBytes 4 0
  b ++ beBytes 2 (crc16 b)

/-- `RING_TIME_SEND`: 500 ms after the /RM/ that this station sent (R391). -/
def execRingTimeSend : State → Host.Outcome State Fault Refusal :=
  complete fun s =>
    if s.ringOn ∧ s.timeMaster ∧ s.hsl.bypassOpen ∧ s.hsl.timeDue then
      let m := ringMsg 1 s.station 0xFF 0 s.timePayload
      ({ s with hsl := { s.hsl with timeDue := false } }).ringOriginate m
    else s

/-- A master sends /RM/ in both directions at each milestone second (R391). -/
def State.ringSecond (s : State) : State :=
  if s.ringOn ∧ s.timeMaster ∧ s.hsl.bypassOpen then
    (({ s with hsl := { s.hsl with timeDue := true } }).ringSend 14 ringMark).ringSend 15 ringMark
  else s

end Sys2Proof.Machine
end

