-- ==== Sys2Proof/Machine/Memory.lean ====
section
/-!
DEFINITION. The memory controller (16_memory.md): the host window and its merge buffer, the SRAM walker, the scrubber,
the watch list and the fault ledger, row remaps and their commit to OTP.
-/
namespace Sys2Proof.Machine

/-! ### The host window (R404, R449, R470) -/

/-- Areas that the host window does not write: the flow table while the packet layer is instantiated, the journal ring,
the spill read buffer and the reserved area. -/
def State.windowLocked (s : State) (a : Nat) : Bool :=
  (s.inst 2 && decide (a < 0x04000000)) || decide (0x06C00000 ≤ a ∧ a < 0x06D80000)

/-- Areas that read as zero through the host window: the flow table and the reserved area (R328, R470). -/
def State.windowBlind (s : State) (a : Nat) : Bool :=
  (s.inst 2 && decide (a < 0x04000000)) || decide (0x06D01000 ≤ a ∧ a < 0x06D80000)

/-- A write of the host window. -/
def State.windowWrite (s : State) (a : Nat) (b : Bytes) : State :=
  (List.range ((a + b.length + 31) / 32 - a / 32)).foldl (fun s i =>
    let w := a / 32 + i
    let lo := max a (32 * w)
    let hi := min (a + b.length) (32 * w + 32)
    if s.windowLocked lo then s
    else { s with mem := s.mem.hostPiece lo ((b.drop (lo - a)).take (hi - lo)) }) s

/-- A read of the host window: the bytes, and whether a word of them is uncorrectable. A read waits for the writes that
wait (log 52). -/
def State.windowRead (s : State) (a n : Nat) : State × Bytes × Bool :=
  let s := s.mergeSettle (s.mem.stalled.length + s.mem.merge.length)
  let words := ((List.range ((a + n + 31) / 32 - a / 32)).map (· + a / 32)).filter fun w => !s.windowBlind (32 * w)
  let bad := words.any fun w => s.mem.outcome s.freeCtr w == .uncorrectable
  let data := (List.range n).map fun i => if s.windowBlind (a + i) then 0 else s.mem.readByte s.freeCtr (a + i)
  (words.foldl (fun s w => s.noteRead 5 (32 * w) 1) s, data, bad)

/-- `BAR4_WRITE`: a write through BAR4. -/
def execBar4Write (addr : BitVec 27) (data : Bytes) : State → Host.Outcome State Fault Refusal :=
  complete fun s =>
    if s.ctl.pcieUp ∧ addr.toNat + data.length ≤ 0x08000000 then s.windowWrite addr.toNat data else s

/-- `BAR4_READ`: a read through BAR4; uncorrectable data is marked poisoned (R403). -/
def execBar4Read (addr : BitVec 27) (len : BitVec 12) (ups : Upsets) : State → Host.Outcome State Fault Refusal :=
  complete fun s =>
    let s := s.suffer ups
    if s.ctl.pcieUp ∧ addr.toNat + len.toNat ≤ 0x08000000 then
      let (s, b, bad) := s.windowRead addr.toNat len.toNat
      s.emit (.memData b bad)
    else s

/-- `MERGE_DONE`: the oldest entry of the merge buffer finishes. -/
def execMergeDone (ups : Upsets) : State → Host.Outcome State Fault Refusal :=
  complete fun s => (s.suffer ups).mergeStep

/-- `SRAM_WALK`: the walker reads every written word once and writes back those it corrects; `ups` lists the bits in error
that words have suffered since (R401). -/
def execSramWalk (ups : List (Nat × Nat × Nat)) : State → Host.Outcome State Fault Refusal :=
  complete fun s =>
    let s := (ups.filter fun u => s.sramHolds u.1 u.2.1).foldl (fun s u => s.setSramErr u.1 u.2.1 u.2.2) s
    s.mem.sramUpset.foldl (fun s e =>
      let kind := e.1 / 0x10000000000
      let addr := e.1 % 0x10000000000
      let s := s.noteSram kind addr e.2
      if e.2 = 1 then s.setSramErr kind addr 0 else s) s

/-! ### Scrubbing (R407, R417) -/

def State.setScrub (s : State) (f : ScrubState → ScrubState) : State :=
  { s with mem := { s.mem with scrub := f s.mem.scrub } }

/-- Aligned groups of eight code words, from group `lo` on, that hold a written word: sorted and disjoint runs. -/
def burstRuns (written : List (Nat × Nat)) : List (Nat × Nat) :=
  let runs := written.map fun r => (r.1 / 8, (r.1 + r.2 + 7) / 8)
  let ins (l : List (Nat × Nat)) (x : Nat × Nat) : List (Nat × Nat) :=
    let apart := l.filter fun y => decide (y.2 < x.1 ∨ x.2 < y.1)
    let touch := l.filter fun y => !decide (y.2 < x.1 ∨ x.2 < y.1)
    let m := touch.foldl (fun a y => (min a.1 y.1, max a.2 y.2)) x
    (apart.filter fun y => decide (y.1 < m.1)) ++ [m] ++ apart.filter fun y => decide (m.1 < y.1)
  runs.foldl ins []

/-- Bursts of a pass that remain from word `pos` on. -/
def MemState.burstsLeft (m : MemState) (pos : Nat) : Nat :=
  ((burstRuns m.written).map fun r => r.2 - max r.1 (pos / 8)).sum

/-- The group of the next burst. -/
def MemState.nextBurst (m : MemState) (pos : Nat) : Option Nat :=
  ((burstRuns m.written).find? fun r => decide (pos / 8 < r.2)).map fun r => max r.1 (pos / 8)

/-- `SCRUB_PASS_START`: a pass starts when the previous one has ended, no earlier than its period; its first quota is
set with all of its seconds remaining (R407, R417, log 149). -/
def execScrubPassStart : State → Host.Outcome State Fault Refusal :=
  complete fun s =>
    let c := s.mem.scrub
    if !flagOf (s.reg Reg.MEM_SCRUB_CTRL) 31 || c.running || (c.pass != 0 && decide (c.elapsed < c.period)) then s
    else
      let period := s.fld Reg.MEM_SCRUB_CTRL 16 0
      s.setScrub fun c =>
        { c with running := true, pass := c.pass + 1, pos := 0, elapsed := 0, period := period, late := false,
                 quota := ceilDiv (s.mem.burstsLeft 0) (max 1 period) }

/-- The scrubber at a milestone second: the quota, and a pass that has outlived its period (R417). -/
def State.scrubSecond (s : State) : State :=
  let c := s.mem.scrub
  let el := c.elapsed + 1
  if !c.running then s.setScrub fun c => { c with elapsed := el, quota := 0 }
  else
    let left := s.mem.burstsLeft c.pos
    if c.period ≤ el then
      s.setScrub fun c => { c with elapsed := el, quota := left, late := true,
                                   lateCnt := if c.late then c.lateCnt else satTo 8 (c.lateCnt + 1) }
    else s.setScrub fun c => { c with elapsed := el, quota := ceilDiv left (c.period - el) }

/-- The scrubber's read of one written word (R407). -/
def State.scrubWord (s : State) (w : Nat) : State :=
  let s := s.noteRead 6 (32 * w) 1
  if s.mem.poisoned w then
    if s.mem.upsets w = 1 ∨ s.mem.upsets w = 2 then
      { s with mem := { s.mem with upset := sparseSet (fun _ => 0) w 0 s.mem.upset } }
    else s
  else match s.mem.outcome s.freeCtr w with
    | .clean => s
    | .correctable => s.scrubBack w
    | .uncorrectable => s.ledgerEnter w false

/-- `SCRUB_BURST_DONE`: a burst of the quota reads its code words (R407). -/
def execScrubBurstDone (ups : Upsets) : State → Host.Outcome State Fault Refusal :=
  complete fun s =>
    let s := s.suffer ups
    let c := s.mem.scrub
    if !c.running ∨ c.quota = 0 ∨ !flagOf (s.reg Reg.MEM_SCRUB_CTRL) 31 then s
    else match s.mem.nextBurst c.pos with
      | none => s
      | some g =>
        let s := s.setScrub fun c => { c with pos := 8 * g + 8, quota := c.quota - 1 }
        (((List.range 8).map (8 * g + ·)).filter fun w => s.mem.isWritten w).foldl (fun s w => s.scrubWord w) s

/-- `SCRUB_PASS_END`: every written word has been read and every write-back made; entries not updated in the pass are
freed (R407, R408, R417). -/
def execScrubPassEnd : State → Host.Outcome State Fault Refusal :=
  complete fun s =>
    let c := s.mem.scrub
    if !c.running ∨ (s.mem.nextBurst c.pos).isSome ∨ s.mem.merge.any (fun e => e.scrub.isSome) then s
    else
      let s := { s with mem := { s.mem with watch := s.mem.watch.filter fun e => e.lastPass == c.pass } }
      let s := s.setScrub fun c => { c with running := false, quota := 0, passes := wrapTo 16 (c.passes + 1) }
      if c.late then s.raise 222 0 0 0 0 else s

/-! ### Row remaps (R410 to R412) -/

/-- `REMAP_COPY_DONE`: the copy of the oldest row being copied has completed (R410). -/
def execRemapCopyDone : State → Host.Outcome State Fault Refusal :=
  complete fun s =>
    match findIndex (fun e => !e.copied && !e.applied) s.mem.remap with
    | none => s
    | some i => { s with mem := { s.mem with remap := modifyAt (fun e => { e with copied := true }) i s.mem.remap } }

/-- A milestone second boundary: the remaps that are open switch at the first frame boundary from then on that finds their
copy complete (R410). -/
def State.remapSecond (s : State) : State :=
  { s with mem := { s.mem with remap := s.mem.remap.map fun e => { e with due := e.due || !e.applied } } }

/-- The words of a bank's row. -/
def rowWords (bank row : Nat) : List Nat := (List.range 64).map fun i => row * 4096 + bank * 64 + i

/-- `REMAP_SWITCH`: a frame boundary after that second; accesses go to the spare row of each complete copy, which holds the
corrected words. Event 218 carries the bank, and the row and the spare (R410, R420, log 54). -/
def execRemapSwitch : State → Host.Outcome State Fault Refusal :=
  complete fun s =>
    (s.mem.remap.filter fun e => e.due && e.copied && !e.applied).foldl (fun s e =>
      let fix := (rowWords e.bank e.row).filter fun w => decide (s.mem.upsets w = 1 ∨ s.mem.upsets w = 2)
      let up := fix.foldl (fun m w => sparseSet (fun _ => 0) w 0 m) s.mem.upset
      let table := s.mem.remap.map fun x => if x.bank = e.bank ∧ x.row = e.row then { x with applied := true } else x
      let ledger := s.mem.ledger.map fun x =>
        if bankOf x.word = e.bank ∧ rowOf x.word = e.row ∧ x.state = 0 then { x with state := 1 } else x
      let s := { s with mem := { s.mem with upset := up, remap := table, ledger := ledger } }
      s.raise 218 0 0 e.bank (65536 * e.row + e.spare)) s

/-- Results of a field repair commit (R412). -/
def rpBusy : Nat := 0x01
def rpLifecycle : Nat := 0x02
def rpExhausted : Nat := 0x07
def rpRowDenied : Nat := 0x08
def rpProgram : Nat := 0x09
def rpNothing : Nat := 0x0D

/-- The result of a commit. -/
def State.repairReport (s : State) (code : Nat) : State :=
  let s := { s with mem := { s.mem with repairResult := code } }
  if code = 0 then s.raise 223 0 0 0 0 else s.raise 224 code 0 code 0

/-- No commit of the controller's runs or waits. -/
def State.repairIdle (s : State) : State := { s with mem := { s.mem with repairBusy := false, repairWait := false } }

/-- The commit that runs or waits ends with a result. -/
def State.repairResult (s : State) (code : Nat) : State := s.repairIdle.repairReport code

/-- The words of a field repair generation (R291, R412). -/
def repairWords (base : Nat) (es : List RemapEntry) : List (Nat × BitVec 64) :=
  slotWords base 34 ((0xD1 * 2 ^ 56 + 2 ^ 48 + es.length)
    :: es.map fun e => 2 ^ 63 + e.bank * 2 ^ 40 + e.row * 2 ^ 16 + e.spare)

/-- A commit that is refused, while another may run or wait: event 265 names the slot that it would have aimed at
(R315). -/
def State.repairRefuse (s : State) (code : Nat) : State :=
  let aim : Nat := match s.tru.unused repairRegion with | some g => g | none => s.noAim
  (s.repairReport code).otpRefused code 144 aim

/-- `COMMIT` of the remap table (R412). -/
def State.repairCommit (s : State) : State :=
  let life := s.lifecycle
  let es := s.mem.remap.filter (·.applied)
  if s.tru.busy.isSome then s.repairRefuse rpBusy
  else if life ≠ 1 ∧ life ≠ 2 then s.repairRefuse rpLifecycle
  else match s.tru.unused repairRegion with
    | none => s.repairRefuse rpExhausted
    | some g =>
      if !es.any (fun e => !e.persistent) then s.repairReport rpNothing
      else match s.otpStart ⟨2, 0, 144, g, repairWords (repairRegion.slot g) es, false, false⟩ with
        | (s, .denied) => s.repairRefuse rpRowDenied
        | (s, .queued) => { s with mem := { s.mem with repairBusy := true, repairWait := true } }
        | (s, .granted) => { s with mem := { s.mem with repairBusy := true, repairWait := false } }

/-- The commit has been programmed and read back: the entries of the generation become persistent (R412). -/
def State.repairDone (s : State) (c : OtpCommit) : State :=
  let es := c.words.filterMap fun w => repairEntry w.2.toNat
  let has (bank row : Nat) : Bool := es.any fun e => e.1 == bank && e.2.1 == row
  let table := s.mem.remap.map fun e => if has e.bank e.row then { e with persistent := true } else e
  let ledger := s.mem.ledger.map fun e =>
    if has (bankOf e.word) (rowOf e.word) ∧ e.state = 1 then { e with state := 2 } else e
  ({ s with mem := { s.mem with remap := table, ledger := ledger } }).repairResult 0

/-- `CLEAR` of the fault ledger: every entry but the pending ones goes (R409). -/
def State.ledgerClear (s : State) : State :=
  { s with mem := { s.mem with ledger := s.mem.ledger.filter fun e => e.state == 0 } }

/-- The memory controller at a milestone second (R401 to R417): the arbiter's shares and the scrub opportunities are
measured. -/
def State.memSecond (s : State) (use : List Nat) (cap : Nat) : State :=
  ({ s with mem := { s.mem with arbUse := use, cap := cap } }).scrubSecond.remapSecond

end Sys2Proof.Machine
end

