-- ==== Sys2Proof/Machine/Monitor.lean ====
section
/-!
DEFINITION. The monitor (17_monitor.md): triggers and conversions, the result register, self-calibration, filter chains,
bias outputs, dither turns and optical loops, and the calibration records.
-/
namespace Sys2Proof.Machine

def State.setMon (s : State) (f : MonState → MonState) : State := { s with mon := f s.mon }

def State.chain (s : State) (i : Nat) : Chain := sparseGet (fun _ => freshChain) s.mon.chains i

def State.updChain (s : State) (i : Nat) (f : Chain → Chain) : State :=
  s.setMon fun m => { m with chains := sparseSet (fun _ => freshChain) i (f (s.chain i)) m.chains }

/-- Whether a chain is enabled. -/
def State.chainOn (s : State) (i : Nat) : Bool := flagOf (s.regI Reg.MON_CH_CTRL i) 0

/-- The abort rule of R426 is in force. -/
def State.twoPath (s : State) : Bool := s.inst 0 && s.inst 1

/-! ### The order of conversions (R425, R426) -/

/-- The order among conversions of one kind: by due time, dither samples first, then sequence and channel. -/
def convLe (a b : Conv) : Bool :=
  let key (c : Conv) : Nat := ((c.due * 2 + b2n (!c.dither)) * 64 + c.num) * 64 + c.chan
  decide (key a ≤ key b)

/-- The first of a list in that order. -/
def firstConv : List Conv → Option Conv
  | [] => none
  | c :: cs => match firstConv cs with
    | none => some c
    | some d => if convLe c d then some c else some d

/-- Gain and offset of an external channel in a field record; any other channel has neither (R443). -/
def fcalEntry (r : Option Bytes) (c : Nat) : Int × Int :=
  match r with
  | some b => if c < 32 then (signedOf 16 (beAt b (8 + 4 * c) 2), signedOf 16 (beAt b (10 + 4 * c) 2)) else (0, 0)
  | none => (0, 0)

/-- A conversion starts, with the field record that is in force then (R443). -/
def State.convStart (s : State) (c : Conv) : State :=
  s.setMon fun m => { m with running := some { c with field := fcalEntry m.fcal c.chan } }

/-- Starts the next due conversion on an idle converter. -/
def State.convNext (s : State) : State :=
  if s.mon.running.isSome || s.mon.calRun then s
  else
    let due := s.mon.queue.filter (·.ready)
    match firstConv (due.filter (·.urgent)) with
    | some c => (s.setMon fun m => { m with queue := m.queue.erase c }).convStart c
    | none => match s.mon.aborted with
      | some c => (s.setMon fun m => { m with aborted := none }).convStart { c with redone := true }
      | none => match firstConv due with
        | some c => (s.setMon fun m => { m with queue := m.queue.erase c }).convStart c
        | none => s

/-- The queued conversions with the earliest due time among those not yet due become due. -/
def State.convDue (s : State) (urgent : Bool) : State :=
  match firstConv (s.mon.queue.filter fun c => !c.ready && c.urgent == urgent) with
  | none => s
  | some d => s.setMon fun m => { m with
      queue := m.queue.map fun c => if c.urgent == urgent && c.due == d.due then { c with ready := true } else c }

/-- An urgent conversion meets a running one that is not: with both paths it aborts it, once (R426). -/
def State.urgentMeets (s : State) : State :=
  match s.mon.running with
  | none => s.convNext
  | some r =>
    if s.twoPath && !r.urgent && !r.redone && s.mon.queue.any (fun c => c.ready && c.urgent) then
      (s.setMon fun m => { m with running := none, aborted := some r, aborts := satTo 8 (m.aborts + 1) }).convNext
    else s

/-- `URGENT_DUE`: an urgent conversion becomes due (R426). -/
def execUrgentDue : State → Host.Outcome State Fault Refusal :=
  complete fun s => (s.convDue true).urgentMeets

/-- `CONVERSION_DUE`: a queued conversion becomes due (R424, R425). -/
def execConversionDue : State → Host.Outcome State Fault Refusal :=
  complete fun s => (s.convDue false).convNext

/-! ### Filter chains (R429 to R433) -/

/-- Settling length (R432). -/
def ChainCfg.settle (c : ChainCfg) : Nat := c.taps + 3

/-- Marks the next outputs of a chain unsettled (R432). -/
def State.unsettle (s : State) (i : Nat) : State := s.updChain i fun c => { c with left := c.cfg.settle }

/-- Unsettles every chain that satisfies `p`. -/
def State.unsettleAll (s : State) (p : Nat → ChainCfg → Bool) : State :=
  (List.range 8).foldl (fun s i => if p i (s.chain i).cfg then s.unsettle i else s) s

/-- Sums of a list: each element with all before it added. -/
def runSums : Int → List Int → List Int
  | _, [] => []
  | a, x :: xs => (x + a) :: runSums (x + a) xs

/-- One input of the CIC: integrators of order 4, each fed by the new value of the one before. -/
def Chain.integrate (c : Chain) (x : Int) : Chain := { c with integ := runSums x c.integ, phase := c.phase + 1 }

/-- The combs: each delay takes its input, and passes on the difference. -/
def combStep : Int → List Int → List Int × Int
  | x, [] => ([], x)
  | x, d :: ds => let r := combStep (x - d) ds; (x :: r.1, r.2)

/-- Saturates to a signed 32-bit value. -/
def sat32 (x : Int) : Int := clampInt x (-2147483648) 2147483647

/-- The output of the FIR filter (R430). -/
def firOut (coefs hist : List Int) : Int := sat32 (roundHalfEven (List.zipWith (· * ·) coefs hist).sum 131072)

/-- Compares a settled output with the thresholds (R433). -/
def State.thresholds (s : State) (i : Nat) (z : Int) : State :=
  let hi := signedOf 32 (s.regI Reg.MON_CH_HIGH i).toNat
  let lo := signedOf 32 (s.regI Reg.MON_CH_LOW i).toNat
  let hyst : Int := s.fldI Reg.MON_CH_HYST i 23 0
  let c := s.chain i
  let above := if c.above then !decide (z < hi - hyst) else decide (hi ≤ z)
  let below := if c.below then !decide (lo + hyst < z) else decide (z ≤ lo)
  let s := s.updChain i fun c =>
    { c with above := above, below := below, stkHi := c.stkHi || (above && !c.above), stkLo := c.stkLo || (below && !c.below) }
  let code := b2n above + 2 * b2n below
  if above != c.above || below != c.below then s.raiseItem (278 + i) code i code 0 else s

/-- Whether the output of an optical loop may move: enabled, not frozen, in its running condition (R435). -/
def State.optRuns (s : State) (p : Path) (i : Nat) : Bool :=
  flagOf (s.optCtrl p i) 15 && !(s.rail (optLoop p i)).freeze
    && (if i = 7 then (s.path p).cnv.adcReady && !(s.path p).rxd.sigAbsent else (s.path p).cnv.dacReady)

/-- One update of an optical loop that computed `want`. -/
def State.optUpdate (s : State) (p : Path) (i : Nat) (want : Int) : State :=
  let id := optLoop p i
  let (s, out) := s.railUpdate id (s.rail id).out want
  (s.setOut id out).biasOut (pathNum p * 8 + i) out.toNat

/-- The gain of a loop's update: an error of `n / d` codes, by `KSHIFT`, with the sign of `POL`. -/
def loopMove (w : Word) (n : Int) (d : Nat) : Int :=
  let x := roundHalfEven n (d * 2 ^ fieldOf w 11 8)
  if flagOf w 14 then -x else x

/-- Loop 6 of a path on a settled output of its chain, at most once per millisecond (R439). -/
def State.powerLoop (s : State) (p : Path) (i : Nat) (z : Int) : State :=
  let w := s.optCtrl p 6
  let soon : Bool := match (s.dither p).pwrAt with | some t => decide (s.upNs < t + 1000000) | none => false
  if fieldOf w 5 0 ≠ i ∨ soon ∨ !s.optRuns p 6 then s
  else
    let s := s.updDither p fun d => { d with pwrAt := some s.upNs }
    let set := signedOf 32 (s.regI Reg.MON_LOOP_SET (pathNum p * 8 + 6)).toNat
    s.optUpdate p 6 ((s.rail (optLoop p 6)).out + loopMove w (set - z) 1)

/-- One input sample of a chain (R429 to R433). -/
def State.chainInput (s : State) (i : Nat) (code : Nat) : State :=
  let c := (s.chain i).integrate code
  if c.phase < c.cfg.r then s.updChain i fun _ => c
  else
    let x := combStep (c.integ.getLastD 0) c.comb
    let y := roundHalfEven (x.2 * 256) (c.cfg.r ^ 4)
    let hist := (y :: c.hist).take 64
    let z := firOut (c.cfg.coefs.take c.cfg.taps) hist
    let uns := decide (0 < c.left)
    let s := s.updChain i fun _ =>
      { c with comb := x.1, phase := 0, hist := hist, out := z, count := wrapTo 16 (c.count + 1), left := c.left - 1,
               unsettled := uns }
    if uns then s else ((s.thresholds i z).powerLoop .a i z).powerLoop .b i z

/-- The pending settings of a chain. -/
def State.chainPending (s : State) (i : Nat) : ChainCfg :=
  let w := s.regI Reg.MON_CH_CFG i
  ⟨flagOf w 16, fieldOf w 15 13, fieldOf w 12 7, fieldOf w 6 0, s.fldI Reg.MON_CH_DEC i 12 0,
    (List.range 64).map fun t => signedOf 18 (s.fldI Reg.MON_FIR_COEF (64 * i + t) 17 0)⟩

/-- Whether a commit is accepted (R430). -/
def ChainCfg.ok (c : ChainCfg) : Bool :=
  let k := c.coefs.take c.taps
  decide (2 ≤ c.r ∧ c.r ≤ 4096 ∧ 1 ≤ c.taps ∧ c.taps ≤ 64) && (c.phase || k == k.reverse)

/-- `APPLY` of a chain (R430, R432). -/
def State.chainApply (s : State) (i : Nat) : State :=
  let c := s.chainPending i
  if !c.ok then s.updChain i fun x => { x with refused := true }
  else (s.updChain i fun x =>
    { x with cfg := c, integ := [0, 0, 0, 0], comb := [0, 0, 0, 0], phase := 0, hist := [] }).unsettle i

/-- Group delay at DC, in 1/16 input periods, as its field reads (R431). Beyond the field it is not stated. -/
def ChainCfg.groupDelay (c : ChainCfg) (ctr : Nat) : Nat :=
  let k := c.coefs.take c.taps
  let sum := k.sum
  if sum = 0 then 0xFFFFFF
  else
    let first := (List.zipWith (fun (x : Int) (n : Nat) => x * n) k (List.range k.length)).sum
    let num := if sum < 0 then -first else first
    let gd := 32 * ((c.r : Int) - 1) + roundHalfEven (16 * c.r * num) sum.natAbs
    if 0 ≤ gd ∧ gd ≤ 0xFFFFFF then gd.toNat else Config.freeNat ctr 431 % 0x1000000

/-! ### Triggers (R423, R424) -/

/-- Channels of a sequence's mask. -/
def State.seqChans (s : State) (q : Nat) : List Nat :=
  let m := (s.regI Reg.MON_SEQ_MASK_LO q).toNat + s.fldI Reg.MON_SEQ_MASK_HI q 7 0 * 2 ^ 32
  (List.range 40).filter fun c => m.testBit c

/-- A trigger that yields no conversion of a chain's channel is an input gap (R429). -/
def State.inputGap (s : State) (q : Nat) (chans : List Nat) : State :=
  s.unsettleAll fun i c => s.chainOn i && c.seq == q && !chans.contains c.chan

/-- The source of an enabled sequence fires at local time `t`: its conversions are queued (R424, R428). -/
def State.trigger (s : State) (t q : Nat) : State :=
  let busy := (s.mon.queue ++ s.mon.running.toList ++ s.mon.aborted.toList).any fun c => !c.dither && c.num == q
  if s.mon.calRun then
    (s.setMon fun m => { m with trigOvr := wrapTo 16 (m.trigOvr + 1) }).inputGap q []
  else if busy then
    ((s.setMon fun m => { m with trigOvr := wrapTo 16 (m.trigOvr + 1) }).inputGap q []).raiseOnce 276 0 0 q 0
  else
    let w := s.regI Reg.MON_SEQ_CTRL q
    let chans := s.seqChans q
    let s := s.inputGap q chans
    let now := decide (fieldOf w 15 0 = 0)
    let new := chans.map fun c =>
      (⟨false, q, c, t + fieldOf w 15 0, now, flagOf w 29, flagOf w 28, false, 0, 0, (0, 0)⟩ : Conv)
    s.setMon fun m => { m with queue := m.queue ++ new }

/-- Conversions that are due at once meet the converter together, urgent ones first (R425, R426). -/
def State.convMeet (s : State) : State :=
  if s.mon.queue.any fun c => c.ready && c.urgent then s.urgentMeets else s.convNext

/-- Every enabled sequence with this source fires at local time `t`. -/
def State.fire (s : State) (t src : Nat) : State :=
  ((List.range 8).foldl (fun s q =>
    let w := s.regI Reg.MON_SEQ_CTRL q
    if flagOf w 30 ∧ fieldOf w 18 16 = src then s.trigger t q else s) s).convMeet

/-- `GO` of a sequence whose source is software. -/
def State.seqGo (s : State) (q : Nat) : State :=
  let w := s.regI Reg.MON_SEQ_CTRL q
  if flagOf w 30 ∧ fieldOf w 18 16 = 0 then (s.trigger s.upNs q).convMeet else s

/-- `MONITOR_TIMER`: a running timer's period has passed since its last tick (R423). -/
def execMonitorTimer (t : BitVec 2) : State → Host.Outcome State Fault Refusal :=
  complete fun s =>
    let i := t.toNat
    let w := s.regI Reg.MON_TMR i
    if !flagOf w 31 then s
    else
      let now := s.moment (s.mon.timerAt.getD i 0 + 1000 * fieldOf w 19 0)
      (s.setMon fun m => { m with timerAt := modifyAt (fun _ => now) i m.timerAt }).fire now (1 + i)

/-! ### The end of a conversion (R422, R427, R443) -/

def clampCode (x : Int) : Nat := (clampInt x 0 65535).toNat

/-- The code of a raw code (R422). -/
def State.calCode (s : State) (raw : Nat) : Nat :=
  let w := s.reg Reg.MON_CAL
  clampCode (roundHalfEven ((16 * (raw : Int) - signedOf 16 (fieldOf w 31 16)) * (2 ^ 20 + signedOf 16 (fieldOf w 15 0)))
    (2 ^ 24))

/-- The code of a conversion, from the raw code. -/
def State.convCode (s : State) (c : Conv) (raw : Nat) : Nat :=
  let x := s.calCode raw
  if c.chan < 32 then clampCode (roundHalfEven (((x : Int) - c.field.2) * (2 ^ 14 + c.field.1)) (2 ^ 14)) else x

/-- Writes the result register (R427). -/
def State.monResult (s : State) (q chan code : Nat) : State :=
  let held := s.mon.resValid
  let s := s.setMon fun m => { m with
    resValid := true, resSeq := q, resChan := chan, resCode := code, resOver := m.resOver || held,
    resOvr := if held then satTo 8 (m.resOvr + 1) else m.resOvr }
  if held then s.raiseOnce 275 0 0 0 0 else s

/-- A dither sample of a half-period of the turn (R438). -/
def Turn.sample (t : Turn) (half code : Nat) : Turn :=
  { t with taken := t.taken + 1, err := if half % 2 = 1 then t.err + code else t.err - code }

/-- Delivers the code of a conversion; a dither sample counts only in the turn that asked for it. -/
def State.deliver (s : State) (c : Conv) (code : Nat) : State :=
  if c.dither then
    s.updDither (if c.num = 0 then .a else .b) fun d =>
      { d with turn := d.turn.map fun t => if d.turns = c.turn then t.sample c.half code else t }
  else
    let s := if c.resEn then s.monResult c.num c.chan code else s
    (List.range 8).foldl (fun s i =>
      let k := (s.chain i).cfg
      if s.chainOn i && k.seq == c.num && k.chan == c.chan then s.chainInput i code else s) s

/-- `CONVERSION_DONE`: the conversion in progress ends with a raw code (R422). -/
def execConversionDone (raw : BitVec 16) : State → Host.Outcome State Fault Refusal :=
  complete fun s => match s.mon.running with
    | none => s
    | some c =>
      let s := s.setMon fun m => { m with running := none }
      (s.deliver c (s.convCode c raw.toNat)).convNext

/-! ### Self-calibration (R428) -/

/-- The calibration starts: dither turns in progress are abandoned. -/
def State.calStart (s : State) : State :=
  let s := s.setMon fun m => { m with calWait := false, calRun := true }
  [Path.a, Path.b].foldl (fun s p => match (s.dither p).turn with | some t => s.abandonTurn p t | none => s) s

/-- The request has been denied or has timed out. -/
def State.calRefused (s : State) : State :=
  (s.setMon fun m => { m with calWait := false, calDenied := true }).raise 273 0 0 0 0

/-- `SELF_CAL` (R428, R486). -/
def State.selfCal (s : State) : State :=
  match s.rowAnswer 50 with
  | .granted => (s.addGrant 9 50).calStart
  | .queued => (s.setMon fun m => { m with calWait := true }).enqueue 9 50
  | .denied => (s.noteDenied 9).calRefused

/-- Whether the monitor record in OTP is good (R441, R442). -/
def TruState.monRecordOk (t : TruState) : Bool :=
  let h := t.word 34
  h / 2 ^ 40 == 0xC70108 && h % 2 ^ 32 == 0 && t.word 35 % 2 ^ 16 == 0 && t.word 40 == 0 && t.checked 34 8

/-- Whether the thermal record is good. -/
def TruState.thermRecordOk (t : TruState) : Bool :=
  let h := t.word 42
  h / 2 ^ 40 == 0xC80106 && h % 2 ^ 32 == 0 && t.word 46 == 0 && t.checked 42 6

/-- Reference trim in microvolts; 0 when the record is bad. -/
def State.refTrim (s : State) : Int :=
  if s.tru.monRecordOk then signedOf 16 (bitsOf (s.tru.word 35) 31 16) else 0

/-- Writes the converter factors; a change unsettles every chain (R432). -/
def State.setCal (s : State) (w : Word) : State :=
  if w = s.reg Reg.MON_CAL then s else (s.setReg Reg.MON_CAL w).unsettleAll fun _ _ => true

/-- The word of the factors that sums of 8,192 raw codes of channels 39 and 38 give (R428). A factor that is not stated,
since it does not fit its field or the quotient has no positive divisor, is free. -/
def calFactors (ctr sum39 sum38 : Nat) (trim : Int) : Word :=
  let offset := roundHalfEven (16 * (sum39 : Int)) 8192
  let d := 16 * (sum38 : Int) - 8192 * offset
  let den := 1600000 * d
  let gain := roundHalfEven ((2 ^ 20) * ((800000 + trim) * 65536 * 131072 - den)) den.toNat
  let field (ok : Bool) (x : Int) (i : Nat) : Nat :=
    if ok && decide (-32768 ≤ x ∧ x ≤ 32767) then toField 16 x else Config.freeNat ctr i % 65536
  BitVec.ofNat 32 (field true offset 427 * 65536 + field (decide (0 < d)) gain 428)

/-- `SELF_CAL_DONE`: the calibration ends (R428). -/
def execSelfCalDone (sum39 sum38 : Nat) : State → Host.Outcome State Fault Refusal :=
  complete fun s =>
    if !s.mon.calRun then s
    else
      let w := calFactors s.freeCtr sum39 sum38 s.refTrim
      let s := (s.setMon fun m => { m with calRun := false }).setGrant 9 0
      ((s.setCal w).raise 272 0 0 (fieldOf w 31 16) (fieldOf w 15 0)).convNext

/-! ### Calibration records (R441 to R443) -/

/-- The records are checked when the trust core releases OTP (R442). -/
def State.monRecords (s : State) : State :=
  let good := s.tru.monRecordOk
  let byte (w i : Nat) : Int := if good then signedOf 8 (bitsOf (s.tru.word (w + i / 8)) (63 - 8 * (i % 8)) (56 - 8 * (i % 8))) else 0
  let s := s.setMon fun m =>
    { m with calBad := !good, trims := (List.range 16).map fun i => (byte 36 i, byte 38 i) }
  let s := if good then s.setCal (BitVec.ofNat 32 (bitsOf (s.tru.word 35) 63 32))
    else s.raise 274 0 0 0 0
  let ok := s.tru.thermRecordOk
  let off := (List.range 12).map fun i =>
    if ok then signedOf 16 (bitsOf (s.tru.word (43 + i / 4)) (63 - 16 * (i % 4)) (48 - 16 * (i % 4))) else 0
  { s with pwr := { s.pwr with thermBad := !ok, thermOff := off } }

/-- Whether a field record passes its checks (R443). -/
def fcalOk (b : Bytes) : Bool :=
  b.length == 144 && beAt b 0 3 == 0xFC0120 && allZero (bytesAt b 3 5) && allZero (bytesAt b 136 4)
    && beAt b 140 4 == crc32 (b.take 140)

/-- A field record comes into force; chains whose channel's entry changes are unsettled (R432). -/
def State.fcalTake (s : State) (b : Bytes) : State :=
  let old := s.mon.fcal
  (s.setMon fun m => { m with fcal := some b }).unsettleAll fun _ c =>
    fcalEntry old c.chan != fcalEntry (some b) c.chan

/-- The pending words of the field record. -/
def State.fcalPending (s : State) : Bytes :=
  (List.range 36).flatMap fun i => beBytes 4 (s.regI Reg.MON_FCAL_DATA i).toNat

/-- `FCAL_APPLY` (R443). -/
def State.fcalApply (s : State) : State :=
  let b := s.fcalPending
  if fcalOk b then s.fcalTake b else (s.setMon fun m => { m with fcalBad := true }).raise 277 0 0 0 0

/-! ### Dither turns and loops (R438 to R440) -/

/-- Whether a bias loop may have a turn. -/
def State.turnOk (s : State) (p : Path) (i : Nat) : Bool :=
  let r := s.rail (optLoop p i)
  s.optRuns p i && r.min != r.max

/-- The next loop in ascending order after the last one. -/
def State.nextTurn (s : State) (p : Path) : Option Nat :=
  ((List.range 6).map fun k => ((s.dither p).last + 1 + k) % 6).find? fun i => s.turnOk p i

/-- The output of an optical loop: its base level, moved by `AMP` during a half-period of its turn (R438, R445). -/
def State.optOut (s : State) (p : Path) (i : Nat) : Nat :=
  let base := (s.rail (optLoop p i)).out
  let out := match (s.dither p).turn with
    | some t => if t.loop ≠ i then base else if t.half % 2 = 1 then base + t.amp else base - t.amp
    | none => base
  (clampInt out 0 65535).toNat

/-- A half-period begins: the output moves, the dither event is emitted, and a sample is asked for. -/
def State.halfPeriod (s : State) (p : Path) (t : Turn) : State :=
  let t := { t with half := t.half + 1, began := s.moment (if t.half = 0 then t.began else t.began + 1000 * t.halfUs) }
  let s := s.updDither p fun d => { d with turn := some t }
  let s := s.biasOut (pathNum p * 8 + t.loop) (s.optOut p t.loop)
  let now := decide (t.delay = 0)
  let c : Conv := ⟨true, pathNum p, fieldOf (s.optCtrl p t.loop) 5 0, t.began + t.delay, now, true, false, false,
    (s.dither p).turns, t.half, (0, 0)⟩
  (s.setMon fun m => { m with queue := m.queue ++ [c] }).fire t.began (5 + pathNum p)

/-- `DITHER_HALF_PERIOD`: a half-period boundary of a running turn, or the start of the next turn (R438). -/
def execDitherHalfPeriod (p : Path) : State → Host.Outcome State Fault Refusal :=
  complete fun s =>
    match (s.dither p).turn with
    | some t => if t.half < 2 * t.cyc then s.halfPeriod p t else s
    | none =>
      if s.mon.calRun then s
      else match s.nextTurn p with
        | none => s
        | some i =>
          let d0 := s.regI Reg.MON_DITH0 (pathNum p)
          let d1 := s.regI Reg.MON_DITH1 (pathNum p)
          (s.updDither p fun d => { d with turns := d.turns + 1 }).halfPeriod p
            ⟨i, 0, fieldOf d0 9 0, fieldOf d1 12 0, fieldOf d1 31 16, fieldOf d0 21 12, s.upNs, 0, 0⟩

/-- `DITHER_TURN_END`: the end of a turn; the loop makes its update (R438). -/
def execDitherTurnEnd (p : Path) : State → Host.Outcome State Fault Refusal :=
  complete fun s =>
    match (s.dither p).turn with
    | none => s
    | some t =>
      if t.half < 2 * t.cyc then s
      else if t.taken < 2 * t.cyc then s.abandonTurn p t
      else
        let w := s.optCtrl p t.loop
        let raw := roundHalfEven t.err (2 ^ fieldOf w 11 8)
        let base := (s.rail (optLoop p t.loop)).out
        let s := s.updDither p fun d => { d with turn := none, last := t.loop }
        s.optUpdate p t.loop (if flagOf w 14 then base + raw else base - raw)

/-- `RX_LEVEL_LOOP_UPDATE`: one update of loop 7 (R440). -/
def execRxLevelLoopUpdate (p : Path) : State → Host.Outcome State Fault Refusal :=
  complete fun s =>
    if !s.optRuns p 7 then s
    else
      let sum : Nat := ((s.path p).cnv.adc.map fun a => a.rms).sum
      let set : Int := (s.regI Reg.MON_LOOP_SET (pathNum p * 8 + 7)).toNat
      s.optUpdate p 7 ((s.rail (optLoop p 7)).out + loopMove (s.optCtrl p 7) (4 * set - sum) 4)

/-- A host write of `CODE` of an optical loop (R437). -/
def State.dacCode (s : State) (p : Path) (i v : Nat) : State :=
  let id := optLoop p i
  ((s.railFix id v).setOut id v).biasOut (pathNum p * 8 + i) v

end Sys2Proof.Machine
end

