-- ==== Sys2Proof/Machine/Control.lean ====
section
/-!
DEFINITION. Control and events (18_control_and_observability.md): leases, mismatches, holdoff and the loss marker, the
spill area, the effects of PCIe resets on the session, and the wayside test.
-/
namespace Sys2Proof.Machine

/-! ### Locks, mismatches, holdoff, losses -/

/-- `LEASE_EXPIRY`: the lease of a held domain expires (R463). -/
def execLeaseExpiry (dom : BitVec 3) : State → Host.Outcome State Fault Refusal :=
  complete fun s => s.breakLock dom.toNat

/-- `MISMATCH_TIMEOUT`: a mismatch has lasted its settle time (R458). -/
def execMismatchTimeout (u : BitVec 6) : State → Host.Outcome State Fault Refusal :=
  complete fun s =>
    let i := u.toNat
    if s.mismatched i && !s.ctl.mismatch.contains i then
      ({ s with ctl := { s.ctl with mismatch := s.ctl.mismatch ++ [i] } }).raise 302 2 i (s.ordered i) (s.actual i)
    else s

/-- `HOLDOFF_END`: the holdoff of a vector ends; raises during it give one message (R465). -/
def execHoldoffEnd (v : BitVec 6) : State → Host.Outcome State Fault Refusal :=
  complete fun s =>
    let n := v.toNat
    let was := s.evt.held.contains n
    let e := { s.evt with holdoff := s.evt.holdoff.filter (· != n), held := s.evt.held.filter (· != n) }
    let s := { s with evt := e }
    if was then s.signal n else s

/-- `LOSS_MARKER`: the ring has room again (R468). -/
def execLossMarker : State → Host.Outcome State Fault Refusal :=
  complete fun s => s.lossMarker

/-! ### Spilling (R469) -/

/-- A kind 7 record. -/
def padRecord : Bytes := List.replicate 14 0 ++ [0, 7] ++ List.replicate 16 0

/-- A record that is read from the ring to be spilled: one with an uncorrectable word has bit 3 of its kind word set and
its second half zero. -/
def State.spillRecord (s : State) (i : Nat) : Bytes :=
  let a := journalBase + 32 * i
  let b := s.mem.readBytes s.freeCtr a 32
  if (s.mem.firstBad s.freeCtr a 32).isNone then b
  else patchBytes (b.take 16) 15 [b.getD 15 0 ||| 8] ++ List.replicate 16 0

/-- The tweak of a spill sector: the number of its sector in the flash (R302, R469). -/
def spillTweak (n : Nat) : Bytes := (List.range 16).map fun i => BitVec.ofNat 8 ((8192 + n) / 256 ^ i)

/-- What a spill sector deciphers to under the part's own key (R302). -/
def spillOpened (own key x : Bytes) (n : Nat) : Bytes :=
  if own = key then x else Config.xtsDec own (spillTweak n) (Config.xtsEnc key (spillTweak n) x)

/-- Sectors of the spill area. -/
def State.spillSectors (s : State) : Nat := s.fld Reg.EVT_SPILL_CTRL 23 0

/-- `SPILL_SECTOR_WRITE`: a sector that is full, or that a second boundary has closed, is written; a sector whose flash
fails is skipped (R469). Only an unowned or an owned part stores in the flash: in another state the records wait (R292;
DESIGN CHOICE, log 143). -/
def execSpillSectorWrite (failed : Bool) : State → Host.Outcome State Fault Refusal :=
  complete fun s =>
    let recs := s.evt.spill
    let n := s.spillSectors
    if !(s.lifecycle == 1 || s.lifecycle == 2) then s
    else if recs = [] ∨ n = 0 ∨ (recs.length < 128 ∧ !s.evt.spillFlush) then s
    else
      let at_ := s.evt.spillNext % n
      let next := (at_ + 1) % n
      if failed then
        let e := { s.evt with spillNext := next, sectors := sparseSet (fun _ => none) at_ none s.evt.sectors }
        ({ s with evt := e }).occ ⟨0, 303, 2, 0, at_, 0, false, 1⟩
      else
        let now := recs.take 128
        let rest := recs.drop 128
        let data := (now.map s.spillRecord ++ List.replicate (128 - recs.length) padRecord).flatten
        let s := now.foldl (fun s i => s.noteRead 3 (journalBase + 32 * i) 32) s
        let e := { s.evt with
          spill := rest, spillNext := next, spillFlush := s.evt.spillFlush && !rest.isEmpty
          sectors := sparseSet (fun _ => none) at_ (some (s.tru.sectorKey, data)) s.evt.sectors }
        { s with evt := e }

/-- Where the spill read buffer lies (R470). -/
def spillBuffer : Nat := 0x06D00000

/-- `SPILL_READ_DONE`: the sector, deciphered, is in the spill read buffer (R469). A sector never written, or one that
the device's key does not decipher, gives bytes that are not stated. -/
def execSpillReadDone : State → Host.Outcome State Fault Refusal :=
  complete fun s => match s.evt.spillRead with
    | none => s
    | some n =>
      let data := match sparseGet (fun _ => none) s.evt.sectors n with
        | some (key, x) =>
          if s.lifecycle = 1 ∨ s.lifecycle = 2 then some (spillOpened s.tru.sectorKey key x n) else none
        | none => none
      let b := data.getD ((List.range 4096).map fun i => Config.freeByte s.freeCtr (469 + i))
      let s := s.deviceWrite spillBuffer b
      { s with evt := { s.evt with spillRead := none, spillDone := true } }

/-! ### Resets of the PCIe endpoint (R448, R483) -/

/-- Dumps stop (R448). -/
def State.stopDumps (s : State) : State :=
  let s := s.setFld Reg.PMC_DUMP_CTRL 31 31 0
  { s with pmc := { s.pmc with job := none } }

/-- The MSI-X table as after reset. -/
def State.clearVectors (s : State) : State :=
  let keep (e : Nat × Word) : Bool := !decide (Reg.MSIX_TABLE ≤ e.1 ∧ e.1 < Reg.MSIX_TABLE + 1024)
  let e := { s.evt with pba := 0, holdoff := [], held := [] }
  { s with cfg := s.cfg.filter keep, evt := e }

/-- A function level reset (R448). -/
def State.functionReset (s : State) : State :=
  let s := s.resetSession 0
  let s := (List.range 32).foldl (fun s p => s.pageReset p (s.pageEn p)) s
  s.clearVectors.stopDumps

/-- `FLR`. -/
def execFlr : State → Host.Outcome State Fault Refusal :=
  complete fun s => if s.ctl.pcieUp then s.functionReset else s

/-- `PCIE_LINK_DOWN`: as a function level reset for the session and for dumps (R448). -/
def execPcieLinkDown : State → Host.Outcome State Fault Refusal :=
  complete fun s => (s.resetSession 0).stopDumps

/-- `PERST_N`: the endpoint and its session are reset (R448, R483). -/
def execPerstN : State → Host.Outcome State Fault Refusal :=
  completeAlways fun s =>
    let s := s.functionReset
    { s with ctl := { s.ctl with pcieUp := false } }

/-- `PERST_N_RELEASE`: the endpoint trains and answers again (R513). -/
def execPerstNRelease : State → Host.Outcome State Fault Refusal :=
  completeAlways fun s => { s with ctl := { s.ctl with pcieUp := true } }

/-! ### The wayside test (R477) -/

/-- Items start at a milestone second whose value is a multiple of `PERIOD`; items that have not completed by then are
counted as starved. -/
def State.waysideSecond (s : State) (sec : Nat) : State :=
  let w := s.reg Reg.WST_CTRL
  if !s.rte.active ∨ sec % max 1 (fieldOf w 31 24) ≠ 0 then s
  else
    let left := ((List.range 4).filter fun i => s.pmc.wstRunning.testBit i).length
    { s with pmc := { s.pmc with
      wstStarved := satTo 8 (s.pmc.wstStarved + left), wstRunning := fieldOf w 3 0, wstDone := 0 } }

/-- Address of the block of the wayside test area that the run takes (R470). -/
def State.waysideBlock (s : State) : Nat := 0x06D80000 + s.pmc.wstBlock % 16 * 32768

/-- The pattern of the block at `a`: it is made from the dump number and the block address, in a way that is not stated. -/
def State.waysidePattern (s : State) (a : Nat) : Bytes := (List.range 32768).map fun i => Config.waysideByte s.pmc.dumpNum (a + i)

/-- Item 0: the block is written, suffers `ups`, and is read back at rank 7; the first word that is uncorrectable or
differs. A word with at most two bits in error reads as it was written (R400). -/
def State.waysideMemory (s : State) (ups : Upsets) : State × Option Nat :=
  let a := s.waysideBlock
  let b := s.waysidePattern a
  let s := (s.deviceWrite a b).suffer ups
  let m := s.mem
  let differs (w : Nat) : Bool := decide (3 ≤ m.upsets w) &&
    (m.outcome s.freeCtr w == .uncorrectable || m.readBytes s.freeCtr (32 * w) 32 != bytesAt b (32 * w - a) 32)
  (s.noteRead 7 a 32768, ((List.range 1024).map (a / 32 + ·)).find? differs)

/-- Item 3: the check words of the slots in force are checked again; the first word of a slot whose check fails (R285). -/
def TruState.waysideOtp (t : TruState) : Option Nat :=
  [ownerRegion, bootRegion, repairRegion].findSome? fun r => match t.inForce r with
    | none => none
    | some g => if t.checked (r.slot g) r.len then none else some (r.slot g)

/-- The run of an item: the state that it leaves, and the detail of its failure. The crypto engines and the signpost
engines answer their built-in tests with `found` (log 63). -/
def State.waysideRun (s : State) (i : Nat) (found : Option Word) (ups : Upsets) : State × Option Nat :=
  match i with
  | 0 => s.waysideMemory ups
  | 3 => (s, s.tru.waysideOtp)
  | _ => (s, found.map fun d => d.toNat)

/-- `WAYSIDE_ITEM_DONE`: a running item completes. -/
def execWaysideItemDone (item : BitVec 2) (found : Option Word) (ups : Upsets) : State → Host.Outcome State Fault Refusal :=
  complete fun s =>
    let i := item.toNat
    if !s.pmc.wstRunning.testBit i then s
    else
      let (s, failed) := s.waysideRun i found ups
      let m := s.pmc
      let m := { m with
        wstRunning := m.wstRunning - 2 ^ i, wstDone := m.wstDone ||| 2 ^ i
        wstBlock := if i = 0 then (m.wstBlock + 1) % 16 else m.wstBlock
        wstEngine := if i = 2 then (m.wstEngine + 1) % 64 else m.wstEngine }
      match failed with
      | none => { s with pmc := m }
      | some d =>
        let m := { m with wstFail := wrapTo 16 (m.wstFail + 1), wstFailed := m.wstFailed ||| 2 ^ i }
        ({ s with pmc := m }).occ ⟨0, 303, 4, i, d, 0, false, 2⟩

end Sys2Proof.Machine
end

