-- ==== Sys2Proof/Machine/Tracks.lean ====
section
/-!
DEFINITION. Margin levelling (07_tracks_and_margin.md, R160 to R170): requests and responses, changes that rails cause,
and the profile tag block.
-/
namespace Sys2Proof.Machine

def State.trk (s : State) (p : Path) : TrkState := (s.path p).trk

/-! ### The receiving end (R162, R163) -/

/-- The first index with the least, or the greatest, figure. -/
def extremeIndex (less : Int → Int → Bool) : List Int → Nat → Nat → Int → Nat
  | [], _, best, _ => best
  | x :: xs, i, best, v => if less x v then extremeIndex less xs (i + 1) i x else extremeIndex less xs (i + 1) best v

def lowest (e : List Int) : Nat := extremeIndex (fun a b => decide (a < b)) e 0 0 (e.headD 0)

def highest (e : List Int) : Nat := extremeIndex (fun a b => decide (b < a)) e 0 0 (e.headD 0)

/-- The moves of R162 on the profiles `j` and figures `e` of a layout; `fuel` bounds the number of moves. -/
def levelMoves (m : PathMode) (slope hyst : Nat) : Nat → List Nat → List Int → List Nat
  | 0, j, _ => j
  | fuel + 1, j, e =>
    let lo := lowest e
    let hi := highest e
    if e.getD hi 0 - e.getD lo 0 < hyst then j
    else if m.blocks * j.sum < m.bits then j
    else
      let j2 := modifyAt (· + 1) hi (modifyAt (· - 1) lo j)
      if j2.getD lo 0 < 64 ∨ 179 < j2.getD hi 0 then j
      else levelMoves m slope hyst fuel j2 (modifyAt (· - slope) hi (modifyAt (· + slope) lo e))

/-- The set that a cycle asks for (R162). `sums` has the SNR of each track and polarisation over the cycle's `n`
superframes; the figures, the slope and the hysteresis are all taken 2 n times, so that the mean over both is exact. -/
def levelRequest (m : PathMode) (slope hyst : Nat) (j sums : List Nat) (n : Nat) : List Nat :=
  let j := (List.range m.trackCount).map fun t => j.getD t 0
  let e := (List.range m.trackCount).map fun t =>
    ((sums.getD (2 * t) 0 + sums.getD (2 * t + 1) 0 : Nat) : Int) - 2 * n * slope * j.getD t 0
  levelMoves m (2 * n * slope) (2 * n * hyst) 2048 j e ++ List.replicate (16 - m.trackCount) 0

/-- A levelling cycle begins (R162). -/
def State.newCycle (s : State) (p : Path) : State :=
  (s.updTrk p fun t => { t with cycle := 0, discard := false }).updRxd p fun r =>
    { r with snr := { r.snr with cycle := [], cycleN := 0 } }

/-- `LEV_RX_EN` has gone from `was` to what it is now: when it is set, a cycle begins (R162). -/
def State.levelEnable (s : State) (p : Path) (was : Bool) : State :=
  if s.pflag p Reg.PA_TRK_LEV_CTRL 0 && !was then s.newCycle p else s

/-- Whether the state of the receiver discards the measurement of the cycle in progress (R162). -/
def State.levelSpoilt (s : State) (p : Path) : Bool := !s.locked p || decide ((s.lfr p).rep &&& 0x07#8 ≠ 0)

/-- Flags of a block of the far end that discard the measurement (R162). -/
def farSpoils (flags : Nat) : Bool := !flags.testBit 3 || flags.testBit 4

/-- One frame of the cycle and of a request's wait (R162, R163). -/
def State.levelFrame (s : State) (p : Path) : State :=
  let on := s.pflag p Reg.PA_TRK_LEV_CTRL 0
  let bad := s.levelSpoilt p
  s.updTrk p fun t =>
    { t with
      cycle := if on then t.cycle + 1 else 0
      discard := on && (t.discard || bad)
      reqAge := if t.reqNum ≠ 0 ∧ !t.reqDone then t.reqAge + 1 else t.reqAge }

/-- `LEVELLING_CYCLE_END`: the cycle of `PERIOD` superframes has passed: the request that its measurement gives (R162).
While an earlier request is unanswered it stays in the frames, and none takes its place (R163, log 107). -/
def execLevellingCycleEnd (p : Path) (_moment : Unit) : State → Host.Outcome State Fault Refusal :=
  complete fun s =>
    let t := s.trk p
    let c := s.reg (pathReg p Reg.PA_TRK_LEV_CTRL)
    if !flagOf c 0 || decide (t.cycle < 16 * fieldOf c 31 16) then s
    else
      let snr := (s.path p).rxd.snr
      let spoilt := t.discard || s.levelSpoilt p || t.farFlags.isNone || snr.cycleN == 0
      let s := s.newCycle p
      if spoilt || (t.reqNum != 0 && !t.reqDone) then s
      else
        let new := levelRequest (s.rxModeOf p) (fieldOf c 7 4) (fieldOf c 15 8) t.farProf snr.cycle snr.cycleN
        if new = t.farProf then s
        else
          s.updTrk p fun t =>
            let n := if t.lastNum = 65535 then 1 else t.lastNum + 1
            { t with reqNum := n, lastNum := n, reqBase := (s.mstPath p).rx.track, reqSet := new, reqAge := 0,
                     reqDone := false }

/-- An answer to this end's request in a usable block (R163, R164). -/
def State.levelResponse (s : State) (p : Path) (num code : Nat) : State :=
  let t := s.trk p
  if num = 0 ∨ num ≠ t.reqNum ∨ t.reqDone ∨ code = 0 then s
  else
    let s := s.updTrk p fun t => { t with reqDone := true, rxResp := code }
    if 3 ≤ code then s.raiseOnce (pathSrc p 19) code 0 0 0 else s

/-- `LEVELLING_RESPONSE`: a usable tag block answers this end's request (R164). -/
def execLevellingResponse (p : Path) (num : BitVec 16) (code : BitVec 8) : State → Host.Outcome State Fault Refusal :=
  complete fun s => s.levelResponse p num.toNat code.toNat

/-- `LEVELLING_REQUEST_TIMEOUT`: 256 superframes without an answer (R163). -/
def execLevellingRequestTimeout (p : Path) : State → Host.Outcome State Fault Refusal :=
  complete fun s =>
    let t := s.trk p
    if t.reqNum = 0 ∨ t.reqDone ∨ t.reqAge < 4096 then s
    else (s.updTrk p fun t => { t with reqNum := 0, rxResp := 0x0F }).raiseOnce (pathSrc p 19) 0x0F 0 0 0

/-! ### The transmitting end (R164 to R166, R169, R170) -/

/-- Raises tracks one profile at a time, in ascending order, each while below its maximum, until the set is feasible:
one round. -/
def raiseRound (m : PathMode) (mx : List Nat) (prof : List Nat) : List Nat :=
  (List.range m.trackCount).foldl (fun j t =>
    if m.feasible j then j else if j.getD t 0 < mx.getD t 0 then modifyAt (· + 1) t j else j) prof

/-- The rounds of R169, until the set is feasible; `fuel` bounds them by the range of a profile. -/
def raiseToFit (m : PathMode) (mx : List Nat) : Nat → List Nat → List Nat
  | 0, prof => prof
  | n + 1, prof => if m.feasible prof then prof else raiseToFit m mx n (raiseRound m mx prof)

/-- The bounds of the margin levelling rails of a path. -/
def State.levelRails (s : State) (p : Path) : List (Nat × Nat) :=
  (List.range 16).map fun t => let r := s.rail (loopId p 1 t); (r.min.toNat, r.max.toNat)

/-- A set clamped to rails and then raised until it is feasible (R169, R170). -/
def fitRails (m : PathMode) (rails : List (Nat × Nat)) (prof : List Nat) : List Nat :=
  let c := (List.range 16).map fun t =>
    let r := rails.getD t (64, 179)
    if t < m.trackCount then max r.1 (min r.2 (prof.getD t 0)) else 0
  raiseToFit m (rails.map fun r => r.2) 120 c

/-- A route amendment that changes m or FEC on the path is pending (R166). -/
def State.modePending (s : State) (p : Path) : Bool :=
  match s.rte.amd with
  | none => false
  | some a =>
    let new := match p with | .a => a.cfg.modeA | .b => a.cfg.modeB
    match new, s.mode p with
    | some n, some o => n.m != o.m || n.fec != o.fec
    | _, _ => false

/-- Stages a profile set and adds its milestone entry, 160 superframes ahead (R165). The flag tells whether the queue
took it; a set that is not feasible is refused before (R143). -/
def State.scheduleProfiles (s : State) (p : Path) (prof : List Nat) : State × Bool :=
  let g := (s.mstPath p).tx.track + 1
  let t := s.now + 2621440
  let n : NewEntry :=
    { sec := t / 1000000000, ns := t % 1000000000, device := false, pathA := pathNum p = 0, pathB := pathNum p = 1,
      kinds := 4, owner := .tracks, amdNum := 0 }
  let r := s.judgeEntry n
  if !(s.txMode p).feasible prof then (s.profRefuse p, false)
  else if r = qOk then
    let s := (s.profStage p (s.txMode p) prof).stage p 2 g
    let h := s.newHandle
    let s := s.enterEntry n h
    ((s.updTrk p fun x => { x with change := some ⟨h, g⟩ }).raiseOnce (pathSrc p 18) 0 0 0 0, true)
  else (s, false)

/-- A request of the far end is checked, clamped and answered (R164, R165); the first code that applies. -/
def State.levelAnswer (s : State) (p : Path) (base : BitVec 16) (req : List Nat) : State × Nat :=
  let m := s.txMode p
  let cur := (s.path p).txd.prof
  let bad (t : Nat) : Bool :=
    let j := req.getD t 0
    if t < m.trackCount then decide (j < 64 ∨ 179 < j) else j != 0
  let frozen (t : Nat) : Bool := (s.rail (loopId p 1 t)).freeze
  if (List.range 16).any bad then (s.violation p vLevelling, 9)
  else if !s.pflag p Reg.PA_TRK_LEV_CTRL 1 || (List.range m.trackCount).all frozen then (s, 5)
  else if s.modePending p then (s, 7)
  else if (s.trk p).change.isSome then (s, 6)
  else if base ≠ (s.mstPath p).tx.track then (s, 3)
  else
    let new := (List.range 16).map fun t =>
      if m.trackCount ≤ t then 0
      else
        let r := s.rail (loopId p 1 t)
        let c : Int := cur.getD t 0
        let lo := if r.freeze then c else max r.min (c - r.step)
        let hi := if r.freeze then c else min r.max (c + r.step)
        (clampInt (req.getD t 0) lo hi).toNat
    let s := (List.range m.trackCount).foldl (fun s t =>
      let q := req.getD t 0
      let v := new.getD t 0
      s.railPin (loopId p 1 t) (decide (q < v)) (decide (v < q)) (v != q)) s
    if !m.feasible new then (s.profRefuse p, 4)
    else
      let (s, ok) := s.scheduleProfiles p new
      if !ok then (s, 8) else if new = req.take 16 then (s, 1) else (s, 2)

/-- A request that this end first receives in a usable block (R164, R217). -/
def State.levelRequested (s : State) (p : Path) (num : Nat) (base : BitVec 16) (req : List Nat) : State :=
  if (s.lfr p).quarantine ∨ num = (s.trk p).answered then s
  else if num = 0 then s.updTrk p fun t => { t with answered := 0 }
  else
    let (s, code) := s.levelAnswer p base (padNat 16 req)
    let s := s.updTrk p fun t =>
      { t with answered := num, txResp := code
               accepted := if code ≤ 2 then wrapTo 16 (t.accepted + 1) else t.accepted
               refused := if code ≤ 2 then t.refused else wrapTo 16 (t.refused + 1) }
    if code ≤ 2 then s else s.raiseOnce (pathSrc p 19) code 0 0 0
where
  /-- A list of exactly `n` numbers. -/
  padNat (n : Nat) (l : List Nat) : List Nat := (List.range n).map fun i => l.getD i 0

/-- `LEVELLING_REQUEST`: a usable tag block carries a new request of the far end (R164). -/
def execLevellingRequest (p : Path) (num base : BitVec 16) (set : List Nat) :
    State → Host.Outcome State Fault Refusal :=
  complete fun s => s.levelRequested p num.toNat base set

/-- The rails that bind a self-originated change: a frozen track keeps its profile (R167, R169). -/
def State.holdRails (s : State) (p : Path) : List (Nat × Nat) :=
  (List.range 16).map fun t =>
    let r := s.rail (loopId p 1 t)
    let j := (s.path p).txd.prof.getD t 0
    if r.freeze then (j, j) else (r.min.toNat, r.max.toNat)

/-- The records of a full image are being applied. -/
def State.loading (s : State) : Bool := s.rte.op == some .applying

/-- The set that a self-originated change of the path would stage: the rails in force exclude the profiles in force, no
other change is under way, and no next copy waits for its milestone, as that of an amendment does until its path has
applied it (R166, R169, R170). -/
def State.selfSet (s : State) (p : Path) : Option (List Nat) :=
  match s.mode p with
  | none => none
  | some m =>
    let cur := (s.path p).txd.prof
    let rails := s.holdRails p
    let out (t : Nat) : Bool :=
      let r := rails.getD t (64, 179)
      decide (cur.getD t 0 < r.1 ∨ r.2 < cur.getD t 0)
    if !s.pathUp p || s.loading || (s.trk p).change.isSome || s.modePending p || (s.staged p 2).isSome
        || !(List.range m.trackCount).any out then none
    else some (fitRails m rails cur)

/-- The rails in force exclude the profiles in force: a self-originated change to the nearest feasible set (R169). -/
def State.selfLevel (s : State) (p : Path) : State :=
  match s.selfSet p with
  | none => s
  | some prof => (s.scheduleProfiles p prof).1

/-- A self-originated change that had to wait is tried again at each frame boundary, so that the profiles follow the
rails however it was held up (R169, log 108). -/
def State.selfRetry (s : State) (p : Path) : State :=
  match s.selfSet p with
  | none => s
  | some prof => if (s.txMode p).feasible prof then (s.scheduleProfiles p prof).1 else s

/-! ### The profile tag block (R160, R161) -/

/-- The block of a transmitted frame (R160). -/
def State.profileBlock (s : State) (p : Path) : Bytes :=
  let m := s.txMode p
  let t := s.trk p
  let x := (s.path p).txd
  let staged := s.staged p 2
  let next := if staged.isSome then x.profNext else x.prof
  let js (l : List Nat) : Bytes := (List.range 16).map fun i => BitVec.ofNat 8 (l.getD i 0)
  let flags := m.tracks + 8 * b2n (s.pflag p Reg.PA_TRK_LEV_CTRL 1) + 16 * b2n t.change.isSome
  let b := beBytes 1 flags ++ [0] ++ js x.prof ++ js next
    ++ beBytes 2 (staged.getD (s.mstPath p).tx.track).toNat ++ beBytes 2 t.reqNum ++ beBytes 2 t.reqBase.toNat
    ++ js t.reqSet ++ beBytes 2 t.answered ++ beBytes 1 (if t.answered = 0 then 0 else t.txResp) ++ [0, 0, 0]
  b ++ beBytes 2 (crc16 b)

/-- A usable block of a received frame: the far end's profiles and flags, the staged set, its request and its answer
(R160, R161, R164, R216). -/
def State.profileField (s : State) (p : Path) (ov : Bytes) : State :=
  if !crcOk ov 1216 62 then s
  else
    let m := s.rxModeOf p
    let js (off : Nat) : List Nat := (List.range 16).map fun i => beAt ov (off + i) 1
    let cur := js 1218
    let next := js 1234
    let bad (l : List Nat) : Bool := (List.range 16).any fun t =>
      let j := l.getD t 0
      if t < m.trackCount then decide (j < 64 ∨ 179 < j) else j != 0
    let flags := beAt ov 1216 1
    if bad cur || bad next || flags % 8 != m.tracks then s.violation p vProfile
    else
      let g := BitVec.ofNat 16 (beAt ov 1250 2)
      let on := s.pflag p Reg.PA_TRK_LEV_CTRL 0
      let s := s.updTrk p fun t =>
        { t with farProf := cur, farFlags := some flags, discard := t.discard || (on && farSpoils flags) }
      let s := if g = (s.mstPath p).rx.track then s
        else (s.updTrk p fun t => { t with rxProfNext := next, rxNextGen := g }).stageRx p 2 g
      let s := s.levelResponse p (beAt ov 1272 2) (beAt ov 1274 1)
      s.levelRequested p (beAt ov 1252 2) (BitVec.ofNat 16 (beAt ov 1254 2)) (js 1256)

end Sys2Proof.Machine
end

