-- ==== Sys2Proof/Machine/Image.lean ====
section
/-!
DEFINITION. Route image files (02_route_image.md, R35 to R43, and the checks of R18): reading a header, a directory and
its records, and what refuses them. A failure is the pair of a code and a detail of R52.
-/
namespace Sys2Proof.Machine

/-! ### Failure codes (R52) -/

def flNoImage : Nat := 0x01
def flFlashRead : Nat := 0x02
def flStage : Nat := 0x03
def flMagic : Nat := 0x04
def flFormat : Nat := 0x05
def flLength : Nat := 0x06
def flPart : Nat := 0x07
def flDieRev : Nat := 0x08
def flRollback : Nat := 0x09
def flSigBlock : Nat := 0x0A
def flOwner : Nat := 0x0B
def flEcdsa : Nat := 0x0C
def flMlDsa : Nat := 0x0D
def flSection : Nat := 0x0E
def flStructure : Nat := 0x0F
def flRegister : Nat := 0x10
def flTable : Nat := 0x11
def flFill : Nat := 0x12
def flRow : Nat := 0x13
def flAmdBase : Nat := 0x14
def flAmdSeq : Nat := 0x15
def flAmdRecord : Nat := 0x16
def flAmdNotice : Nat := 0x17
def flAmdPending : Nat := 0x18
def flQueue : Nat := 0x19
def flSlot : Nat := 0x1A
def flFlashWrite : Nat := 0x1B
def flLifecycle : Nat := 0x1C
def flFloor : Nat := 0x1D

/-! ### The header (R36) -/

/-- The fields of a header that fail `FORMAT_VERSION` or `LENGTH`, in ascending offset: an offset and whether the field
holds. -/
def headerFields (b : Bytes) (kind len : Nat) : List (Nat × Bool) :=
  let total := beAt b 16 4
  [(4, beAt b 4 2 == 1), (6, beAt b 6 1 == kind), (7, decide (beAt b 7 1 < 2)),
   (8, decide (1 ≤ beAt b 8 1 ∧ beAt b 8 1 ≤ 3)), (10, decide (beAt b 10 1 ≤ 127)), (11, beAt b 11 1 == 0),
   (12, kind != 2 || beAt b 12 4 == beAt b 24 4),
   (16, decide (total % 8 = 0 ∧ total = len ∧ total ≤ 16777216)),
   (20, decide (1 ≤ beAt b 20 2 ∧ beAt b 20 2 ≤ 64)), (22, beAt b 22 2 == 0),
   (24, kind == 2 || beAt b 24 4 == 0), (28, (kind == 2) == (beAt b 28 2 != 0)), (30, beAt b 30 2 == 0),
   (32, kind == 2 || allZero (bytesAt b 32 48)), (96, allZero (bytesAt b 96 32))]

/-- Step 2 of R49; `len` is the length of the slot's content, or `RTE_LEN`. -/
def headerFault (b : Bytes) (kind len : Nat) : Option (Nat × Nat) :=
  if bytesAt b 0 4 ≠ [0x41, 0x55, 0x52, 0x49] then some (flMagic, 0)
  else match (headerFields b kind len).find? (fun e => !e.2) with
    | some e => if e.1 = 16 then some (flLength, 0) else some (flFormat, e.1)
    | none => none

/-- Step 3: the part mask and the minimum die revision. -/
def State.partFault (s : State) (b : Bytes) : Option (Nat × Nat) :=
  if !(beAt b 8 1).testBit (s.part - 1) then some (flPart, 0)
  else if s.dieRev < beAt b 9 1 then some (flDieRev, 0)
  else none

/-- The anti-rollback version against the floor (R44). -/
def State.rollbackFault (s : State) (b : Bytes) : Option (Nat × Nat) :=
  if beAt b 10 1 < s.tru.floor then some (flRollback, beAt b 10 1) else none

/-- Step 4: the lifecycle state, then the anti-rollback version. -/
def State.lifeFault (s : State) (b : Bytes) : Option (Nat × Nat) :=
  if s.lifecycle ≠ 2 then some (flLifecycle, s.lifecycle) else s.rollbackFault b

/-- Step 5: the signature block. -/
def State.signFault (s : State) (b : Bytes) : Option (Nat × Nat) :=
  match s.tru.sigCheck b with
  | none => none
  | some (.block d) => some (flSigBlock, d)
  | some (.ownerKey g) => some (flOwner, g)
  | some .mlDsa => some (flMlDsa, 0)
  | some .ecdsa => some (flEcdsa, 0)

/-- Steps 2 to 5. -/
def State.fileFault (s : State) (b : Bytes) (kind len : Nat) : Option (Nat × Nat) :=
  ((headerFault b kind len).orElse fun _ => s.partFault b).orElse fun _ =>
    (s.lifeFault b).orElse fun _ => s.signFault b

/-! ### The directory and the records (R37, R38) -/

/-- A directory entry. -/
structure DirEntry where
  typ : Nat
  res : Nat
  off : Nat
  len : Nat
  crc : Nat
  deriving DecidableEq, Repr

def dirEntry (b : Bytes) (i : Nat) : DirEntry :=
  let a := 128 + 16 * i
  ⟨beAt b a 2, beAt b (a + 2) 2, beAt b (a + 4) 4, beAt b (a + 8) 4, beAt b (a + 12) 4⟩

def directory (b : Bytes) : List DirEntry := (List.range (beAt b 20 2)).map fun i => dirEntry b i

/-- The first byte of the signature block, which has been found. -/
def sigStart (b : Bytes) : Nat := match sigLength b with | .inr n => b.length - n | .inl _ => b.length

/-- Whether a directory entry holds after one of type `prev` whose section ends at `from_`; `first` has no section
before it. -/
def dirOk (b : Bytes) (first : Bool) (prev from_ : Nat) (e : DirEntry) : Bool :=
  e.res == 0 && e.off % 8 == 0 && decide (prev < e.typ ∧ from_ ≤ e.off ∧ e.off + e.len ≤ sigStart b)
    && (first || allZero ((b.drop from_).take (e.off - from_)))
    && crc32 ((b.drop e.off).take e.len) == e.crc

/-- The first directory entry that fails. -/
def dirFault (b : Bytes) (i prev from_ : Nat) : List DirEntry → Option Nat
  | [] => none
  | e :: es => if dirOk b (i == 0) prev from_ e then dirFault b (i + 1) e.typ (e.off + e.len) es else some i

/-- A record: its type and payload. -/
structure Rec where
  typ  : Nat
  data : Bytes
  deriving DecidableEq, Repr

/-- The records that fill a section exactly, or none; `fuel` bounds their number. -/
def parseRecs : Nat → Bytes → Option (List Rec)
  | _, [] => some []
  | 0, _ => none
  | fuel + 1, b =>
    let n := beAt b 4 4
    let total := 8 + ceilDiv n 8 * 8
    if b.length < total ∨ beAt b 2 2 ≠ 0 then none
    else if !allZero ((b.drop (8 + n)).take (total - 8 - n)) then none
    else (parseRecs fuel (b.drop total)).map fun rs => ⟨beAt b 0 2, (b.drop 8).take n⟩ :: rs

def knownRecs : List Nat :=
  [0x0101, 0x0102, 0x0103, 0x0104, 0x0105, 0x0106, 0x0201, 0x0301, 0x0401, 0x0402, 0x0501, 0x0601, 0x0602, 0x0603]

/-- The records of a section, or none where its framing or a type fails (R38, R39). -/
def sectionRecs (b : Bytes) (e : DirEntry) : Option (List Rec) :=
  match parseRecs e.len ((b.drop e.off).take e.len) with
  | none => none
  | some rs =>
    if e.typ ≤ 6 ∧ (rs.all fun r => r.typ / 256 == e.typ && knownRecs.contains r.typ) = true then some rs else none

/-- Step 6: the directory, the CRCs and the order of the sections, then their record framing and types. -/
def sectionFault (b : Bytes) : Option (Nat × Nat) :=
  let d := directory b
  match dirFault b 0 0 (128 + 16 * d.length) d with
  | some i => some (flSection, i)
  | none => match findIndex (fun e => (sectionRecs b e).isNone) d with
    | some i => some (flSection, i)
    | none => none

/-- All records of a file whose sections hold, in file order. -/
def imageRecs (b : Bytes) : List Rec := (directory b).flatMap fun e => (sectionRecs b e).getD []

/-! ### Records (R39) -/

def Rec.u8 (r : Rec) (i : Nat) : Nat := beAt r.data i 1
def Rec.u16 (r : Rec) (i : Nat) : Nat := beAt r.data i 2
def Rec.u32 (r : Rec) (i : Nat) : Nat := beAt r.data i 4

/-- Reserved bytes of a payload are zero. -/
def Rec.zero (r : Rec) (i n : Nat) : Bool := allZero (bytesAt r.data i n)

def Rec.mode (r : Rec) : PathMode := ⟨r.u8 1, r.u16 2, r.u8 4, r.u8 5⟩

def Rec.port (r : Rec) : HostPort := ⟨r.u8 0, r.u8 1, r.u8 2, r.u8 3, r.u8 4, r.u8 5⟩

def Rec.cont (r : Rec) : ContainerRec := ⟨pathOf (r.u8 0), r.u8 1, r.u16 2, r.u16 4⟩

def Rec.endpoint (r : Rec) (i : Nat) : Endpoint := ⟨r.u8 (4 + 4 * i), r.u8 (5 + 4 * i), r.u16 (6 + 4 * i)⟩

/-- The endpoints of a connection record that its payload holds. -/
def Rec.conn (r : Rec) : Connection :=
  ⟨r.u8 0, (List.range (min (r.u8 1) ((r.data.length - 4) / 4))).map fun i => r.endpoint i⟩

def Rec.grant (r : Rec) : TenantGrant := ⟨r.u8 0, r.u8 1, r.u8 2, r.u16 4, r.u16 6⟩

/-- Items of 4-byte words of a counted payload. -/
def Rec.words (r : Rec) (first n : Nat) : List Nat := (List.range n).map fun i => r.u32 (first + 4 * i)

/-- The register writes of a `REG_WRITE` record. -/
def Rec.writes (r : Rec) : List (Nat × Word) :=
  (List.range (r.u32 0)).map fun i => (r.u32 (4 + 8 * i), BitVec.ofNat 32 (r.u32 (8 + 8 * i)))

/-- The Ethernet configurations of R370: width, rate code and modulation. -/
def etherConfigs : List (Nat × Nat × Nat) :=
  [(4, 0, 1), (2, 1, 0), (1, 2, 0), (4, 1, 0), (2, 2, 0), (1, 3, 0), (8, 1, 0), (4, 2, 0), (2, 3, 0), (8, 2, 0),
   (4, 3, 0), (8, 3, 0)]

/-- A host port record stands for a group of adjacent lanes with a coding that exists, and pairs its rate with a
modulation of R368: 26.5625 Gb/s with NRZ, 53.125 Gb/s with either, the faster rates with PAM4. -/
def HostPort.ok (x : HostPort) : Bool :=
  decide (x.num < 32 ∧ x.first < 32 ∧ x.rate < 4 ∧ x.coding < 2 ∧ x.modul < 2) && [1, 2, 4, 8].contains x.width
    && x.first % x.width == 0 && (x.rate != 0 || x.modul == 1) && (decide (x.rate < 2) || x.modul == 0)
    && (x.coding == 1 || etherConfigs.contains (x.width, x.rate, x.modul))

/-- Unused fields of an endpoint are zero. -/
def Endpoint.ok (e : Endpoint) : Bool :=
  match e.typ with
  | 0 => e.path == 0 && decide (e.num < 32)
  | 1 => e.path == 0 && decide (e.num < 16)
  | 2 => e.path == 0 && e.num == 0
  | 3 => decide (e.path < 2 ∧ e.num < 256)
  | _ => false

/-- Endpoints of a type. -/
def Connection.of (c : Connection) (typ : Nat) : List Endpoint := c.ends.filter fun e => e.typ == typ

/-- The endpoints of a connection are those of its kind (R17). A packet layer endpoint may stand in a terminated packet
connection. -/
def Connection.kindOk (c : Connection) : Bool :=
  let n (t : Nat) : Nat := (c.of t).length
  match c.kind with
  | 1 => n 0 == 1 && n 3 == 1 && c.ends.length == 2
  | 2 => n 0 == 1 && n 3 == 1 && c.ends.length == 2
  | 3 => decide (1 ≤ n 0 ∧ 1 ≤ n 3 ∧ n 2 ≤ 1) && n 1 == 0
  | 4 => n 1 == 1 && n 3 == 1 && c.ends.length == 2
  | 5 => n 3 == 2 && c.ends.length == 2 && ((c.of 3).map (·.path)).sum == 1
  | _ => false

/-- Removal forms of an amendment (R53): a port of width 0, a lane of rate 0, a container without slots, a connection
with endpoint count 0. -/
def Rec.removes (r : Rec) : Bool :=
  match r.typ with
  | 0x0103 => r.u8 2 == 0 && r.zero 1 7
  | 0x0104 => r.u8 1 == 0 && r.zero 1 7
  | 0x0105 => r.u16 2 == 0 && r.u16 4 == 0
  | 0x0106 => r.u8 1 == 0
  | _ => false

/-- The record rules of R39 that one record alone decides. `amend` allows the removal forms. -/
def Rec.ok (amend : Bool) (r : Rec) : Bool :=
  let n := r.data.length
  match r.typ with
  | 0x0101 => n == 4 && r.zero 0 3
  | 0x0102 => n == 8 && decide (r.u8 0 < 2) && r.zero 6 2 && r.mode.valid
      && decide (1 ≤ r.mode.m ∧ r.mode.m ≤ 20 ∧ 64 ≤ r.mode.k ∧ r.mode.k ≤ 256 ∧ r.mode.fec ≤ 2 ∧ r.mode.tracks ≤ 4)
  | 0x0103 => n == 8 && r.zero 6 2 && (r.port.ok || (amend && r.removes && decide (r.u8 0 < 32)))
  | 0x0104 => n == 8 && r.zero 2 6 && decide (r.u8 0 < 16)
      && (decide (8 ≤ r.u8 1 ∧ r.u8 1 ≤ 80) || (amend && r.removes))
  | 0x0105 => n == 8 && r.zero 6 2 && decide (r.u8 0 < 2 ∧ r.u16 2 + r.u16 4 ≤ 400)
  | 0x0106 =>
    if amend && r.removes then n == 8 && r.zero 2 2 && (r.endpoint 0).ok
    else decide (4 + 4 * r.u8 1 ≤ n) && r.zero 2 2 && r.conn.ends.all (·.ok) && r.conn.kindOk
  | 0x0201 => n == 32 && decide (r.u8 0 < 2) && r.zero 1 7
  | 0x0301 => decide (4 + 8 * r.u32 0 ≤ n)
  | 0x0401 => decide (16 + r.u32 8 * r.u32 12 ≤ n)
  | 0x0402 => decide (8 + 4 * r.u32 4 ≤ n)
  | 0x0501 => n == 20 && decide (r.u16 2 < 2)
  | 0x0601 => n == 4 && decide (r.u32 0 < 2 ^ 26)
  | 0x0602 => decide (4 + 4 * r.u32 0 ≤ n)
  | 0x0603 => n == 8 && decide (r.u8 0 < 32 ∧ r.u8 1 < 4 ∧ r.u8 2 < 2) && r.zero 3 1
  | _ => true

/-! ### The configuration that records give (R39, R53) -/

/-- A list with the item of the same identity replaced, or removed. -/
def putItem {α : Type} (same : α → Bool) (item : Option α) (l : List α) : List α :=
  l.filter (fun x => !same x) ++ item.toList

/-- A structure or permission record describes the resulting state of the item it names. An amendment's `EXPERT_LOCK`
mask adds its locks to those in force, and a mask that leaves out a lock in force is accepted: it removes nothing
(log 106). -/
def ImageCfg.take (g : ImageCfg) (amend : Bool) (r : Rec) : ImageCfg :=
  let gone := amend && r.removes
  match r.typ with
  | 0x0101 => { g with inst := BitVec.ofNat 8 (r.u8 3) }
  | 0x0102 => if r.u8 0 = 0 then { g with modeA := some r.mode } else { g with modeB := some r.mode }
  | 0x0103 => { g with ports := putItem (fun x => x.num == r.u8 0) (if gone then none else some r.port) g.ports }
  | 0x0104 => { g with lanes := putItem (fun x => x.1 == r.u8 0) (if gone then none else some (r.u8 0, r.u8 1)) g.lanes }
  | 0x0105 =>
    let l := putItem (fun x => x.path == r.cont.path && x.num == r.cont.num) (if gone then none else some r.cont) g.conts
    { g with conts := l }
  | 0x0106 =>
    if gone then { g with conns := g.conns.filter fun c => c.ends.head? != some (r.endpoint 0) }
    else { g with conns := putItem (fun c => c.ends.head? == r.conn.ends.head?) (some r.conn) g.conns }
  | 0x0601 => { g with expert := (if amend then g.expert else 0) ||| BitVec.ofNat 26 (r.u32 0) }
  | 0x0602 => { g with rwl := g.rwl ++ (r.words 4 (r.u32 0)).filter fun o => !g.rwl.contains o }
  | 0x0603 =>
    let same (x : TenantGrant) : Bool := x.page == r.grant.page && x.path == r.grant.path && x.first == r.grant.first
    { g with grants := putItem same (if r.grant.count = 0 then none else some r.grant) g.grants }
  | _ => g

/-- In a full image a connection record adds its connection whatever the others name, so that check 1 of R18 sees
both. -/
def ImageCfg.takeFull (g : ImageCfg) (r : Rec) : ImageCfg :=
  if r.typ = 0x0106 then { g with conns := g.conns ++ [r.conn] } else g.take false r

/-- The configuration of a full image. -/
def imageCfg (rs : List Rec) : ImageCfg := rs.foldl (fun g r => g.takeFull r) noImage

/-- The configuration that an amendment leaves. -/
def amendCfg (g : ImageCfg) (rs : List Rec) : ImageCfg := rs.foldl (fun g r => g.take true r) g

/-! ### The checks of R18 -/

/-- Slots that all containers hold on a path. -/
def ImageCfg.held (g : ImageCfg) (p : Path) : Nat :=
  (g.conts.map fun c => if c.path = p then c.own else c.other).sum

def noRepeat {α : Type} [BEq α] : List α → Bool
  | [] => true
  | x :: l => !l.contains x && noRepeat l

/-- Endpoints of a type over all connections. -/
def ImageCfg.endsOf (g : ImageCfg) (typ : Nat) : List Endpoint := g.conns.flatMap fun c => c.of typ

/-- The slot counts of a container endpoint. -/
def ImageCfg.size (g : ImageCfg) (e : Endpoint) : Nat × Nat :=
  match g.cont (pathOf e.path) e.num with | some c => (c.own, c.other) | none => (0, 0)

/-- Whether a structure record names a unit that `fused` disables. -/
def Rec.fused (fused : Nat) (r : Rec) : Bool :=
  match r.typ with
  | 0x0101 => r.u8 3 &&& fused != 0
  | 0x0102 => r.u8 0 == 1 && fused.testBit 1
  | 0x0105 => r.u8 0 == 1 && fused.testBit 1
  | 0x0106 => (r.conn.kind == 3 && fused.testBit 2)
      || r.conn.ends.any fun e => (e.typ == 2 && fused.testBit 2) || (e.typ == 3 && e.path == 1 && fused.testBit 1)
  | _ => false

/-- The checks of R18 by number, for a configuration and the records that are judged by the ninth. An endpoint that stands
twice in one connection fails the first two as one in two connections does (log 136). -/
def r18Checks (g : ImageCfg) (fused : Nat) (rs : List Rec) : List (Nat × Bool) :=
  let both := g.has 0 && g.has 1
  let sameEnc := g.has 4 == g.has 5
  let thru := g.conns.filter fun c => c.kind == 5
  [(1, noRepeat (g.ports.flatMap fun x => (List.range x.width).map (· + x.first))
        && noRepeat ((g.endsOf 0).map (·.num)) && noRepeat ((g.endsOf 1).map (·.num))),
   (2, noRepeat ((g.endsOf 3).map fun e => (e.path, e.num))),
   (3, [Path.a, Path.b].all fun p => match g.mode p with
        | some m => decide (g.held p ≤ m.slots)
        | none => true),
   (4, decide (g.slots .a + g.slots .b ≤ 640)),
   (5, thru.all fun c => match c.of 3 with
        | [x, y] => (g.size x).1 + (g.size x).2 == (g.size y).1 + (g.size y).2
        | _ => true),
   (6, (thru.isEmpty && !g.has 6) || (both && sameEnc)),
   (7, g.conns.all fun c => c.kind != 3 || (g.has 2 && g.has 3)),
   (8, !g.has 7 || (g.endsOf 1).all fun e => decide (e.num < 14)),
   (9, rs.all fun r => !r.fused fused)]

/-- The first check of R18 that fails. -/
def r18Fault (g : ImageCfg) (fused : Nat) (rs : List Rec) : Option Nat :=
  ((r18Checks g fused rs).find? fun e => !e.2).map (·.1)

/-! ### Record rules that the whole configuration decides -/

/-- The least slot count for a client of `b` bytes per frame (R235). -/
def minSlots (b : Nat) : Nat :=
  match (List.range 401).find? (fun c => decide (b * 10002 ≤ (80 * c - ceilDiv c 8 - 1) * 8 * 10000)) with
  | some c => c
  | none => 401

/-- The least and the largest slot count of a container (R235). -/
def ImageCfg.slotBounds (g : ImageCfg) (p : Path) (c : Nat) : Nat × Nat :=
  match g.connOf p c with
  | none => (1, 400)
  | some k =>
    let port : Option HostPort := match k.of 0 with | e :: _ => g.port e.num | [] => none
    match k.kind with
    | 1 => match port with | some r => (minSlots r.etherBytes, minSlots r.etherBytes + 64) | none => (0, 400)
    | 2 => match port with
      | some r => let n := minSlots (3190 * r.width * 2 ^ r.rate); (n, n + 64)
      | none => (0, 400)
    | 4 =>
      let l : Nat := match k.of 1 with | e :: _ => e.num | [] => 16
      match g.lanes.find? (fun x => x.1 == l) with
      | some x => (x.2 / 40 + 1, x.2 / 40 + 65)
      | none => (0, 400)
    | _ => (1, 400)

/-- Every endpoint of a connection has its record, and a port the coding that the kind needs. -/
def ImageCfg.endOk (g : ImageCfg) (kind : Nat) (e : Endpoint) : Bool :=
  match e.typ with
  | 0 => match g.port e.num with
    | some r => r.coding == (if kind = 2 then 1 else 0)
    | none => false
  | 1 => g.lanes.any fun x => x.1 == e.num
  | 3 => (g.cont (pathOf e.path) e.num).isSome
  | _ => true

/-- At most 8 grants for a page (R473). -/
def grantsOk (gs : List TenantGrant) : Bool :=
  (List.range 32).all fun p => decide ((gs.filter fun x => x.page == p).length ≤ 8)

/-- The rules of R21, R39, R221, R235 and R473 on a configuration as a whole. A container's path is instantiated
(DEDUCED, log 85). -/
def ImageCfg.rulesOk (g : ImageCfg) : Bool :=
  (g.has 0 == g.modeA.isSome) && (g.has 1 == g.modeB.isSome)
    && g.conns.all (fun k => k.ends.all fun e => g.endOk k.kind e)
    && g.conts.all (fun c => g.has (pathNum c.path) && (g.has 6 || c.other == 0)
        && let b := g.slotBounds c.path c.num; decide (b.1 ≤ c.own + c.other ∧ c.own + c.other ≤ b.2))
    && grantsOk g.grants

/-! ### Slot tables (R222, R223) -/

/-- The default placement of a path: its own containers in ascending number, then the bonded ones of the other path. -/
def ImageCfg.placement (g : ImageCfg) (p : Path) : List Nat :=
  let count (q : Path) (c : Nat) : Nat := match g.cont q c with
    | some x => if q = p then x.own else x.other
    | none => 0
  let run (q : Path) : List Nat := (List.range 256).flatMap fun c => List.replicate (count q c) (slotEntry q c)
  let l := run p ++ run (otherPath p)
  l ++ List.replicate (g.slots p - l.length) 0

/-- A slot table record of the path with 4-byte entries that lie inside the table. -/
def Rec.isSlots (r : Rec) (p : Path) (n : Nat) : Bool :=
  r.typ == 0x0401 && r.u32 0 == 0x0A00 + pathNum p && r.u32 8 == 4 && decide (r.u32 4 + r.u32 12 ≤ n)

/-- A slot table with the entries of records. -/
def slotsWith (rs : List Rec) (p : Path) (n : Nat) (t : List Nat) : List Nat :=
  (rs.filter fun r => r.isSlots p n).foldl (fun t r =>
    t.take (r.u32 4) ++ r.words 16 (r.u32 12) ++ t.drop (r.u32 4 + r.u32 12)) t

/-- The slot table that a full image gives a path. -/
def ImageCfg.fullSlots (g : ImageCfg) (rs : List Rec) (p : Path) : List Nat :=
  let n := g.slots p
  if rs.any (fun r => r.isSlots p n) then slotsWith rs p n (List.replicate n 0) else g.placement p

/-! ### Step 7 of R49 -/

/-- The prefixes of a full image's records never give a page a ninth grant. -/
def grantsRun (rs : List Rec) : Bool :=
  (rs.foldl (fun (x : ImageCfg × Bool) r => let g := x.1.takeFull r; (g, x.2 && grantsOk g.grants)) (noImage, true)).2

/-- The record rules of a full image; one item has one record (DEDUCED, log 85). -/
def fullRules (g : ImageCfg) (rs : List Rec) : Bool :=
  rs.all (fun r => r.ok false)
    && (rs.filter fun r => r.typ == 0x0101).length == 1
    && [0x0102, 0x0103, 0x0104].all (fun t => noRepeat ((rs.filter fun r => r.typ == t).map fun r => r.u8 0))
    && noRepeat ((rs.filter fun r => r.typ == 0x0105).map fun r => r.u16 0)
    && grantsRun rs && g.rulesOk
    && [Path.a, Path.b].all fun p => !g.has (pathNum p) || g.slotsOk p (g.fullSlots rs p)

def State.structureFault (s : State) (rs : List Rec) : Option (Nat × Nat) :=
  let g := imageCfg rs
  match r18Fault g s.fused rs with
  | some n => some (flStructure, n)
  | none => if fullRules g rs then none else some (flStructure, 10)

/-- Steps 2 to 7 of R49 on the file of a full load. -/
def State.imageFault (s : State) (b : Bytes) : Option (Nat × Nat) :=
  ((s.fileFault b 1 b.length).orElse fun _ => sectionFault b).orElse fun _ => s.structureFault (imageRecs b)

end Sys2Proof.Machine
end

