-- ==== Sys2Proof/Machine/Route.lean ====
section
/-!
DEFINITION. The commands of the route loader that `RTE_CTRL` starts (R44, R47, R48, R54, R56), the flash slots, and
storing an image.
-/
namespace Sys2Proof.Machine

/-- The staging region (R46). -/
def stagingBase : Nat := 0x07000000

def State.setRte (s : State) (f : RteState → RteState) : State := { s with rte := f s.rte }

/-- An operation starts. -/
def State.rteOp (s : State) (o : LoaderOp) : State := s.setRte fun r => { r with op := some o }

/-- The running operation ends without failure. -/
def State.rteEnd (s : State) : State := s.setRte fun r => { r with op := none }

/-- A failure with its code and detail ends an operation (R52, R59). -/
def State.rteFailed (s : State) (f : Nat × Nat) : State :=
  s.setRte fun r => { r with op := none, failCode := f.1, failDetail := f.2, failed := true }

/-- The same, with its event (R60): the subtype holds the code, value A the detail (log 25). -/
def State.rteFail (s : State) (src : Nat) (f : Nat × Nat) : State := (s.rteFailed f).raise src f.1 0 f.2 0

/-- The image in staging: `RTE_LEN` bytes. -/
def State.staged16 (s : State) (n : Nat) : Bytes := s.mem.readBytes s.freeCtr stagingBase n

def State.rteLen (s : State) : Nat := s.fld Reg.RTE_LEN 24 0

/-- Reads `n` bytes of staging: the bytes, or the failure of the first code word that reads uncorrectable (R46). -/
def State.readStaging (s : State) (n : Nat) : State × (Bytes ⊕ (Nat × Nat)) :=
  let r : Bytes ⊕ (Nat × Nat) := match s.mem.firstBad s.freeCtr stagingBase n with
    | some w => .inr (flStage, w - stagingBase / 32)
    | none => .inl (s.staged16 n)
  (s.noteRead 2 stagingBase n, r)

/-! ### Flash slots (R45 to R48) -/

/-- Bytes that a slot gives when they cannot be told (log 64). -/
def State.openSlot (s : State) (b : Bool) : Bytes := randomBytes s.freeCtr (b2n b * 128) 128

/-- The flash address of a slot in sectors of 4 KiB (R45, R302). -/
def slotSector (b : Bool) : Nat := if b then 4096 else 0

/-- Tweak of a sector: its number as a 128-bit little-endian integer (R302). -/
def sectorTweak (n : Nat) : Bytes := (List.range 16).map fun i => BitVec.ofNat 8 (n / 256 ^ i)

/-- The 4,096 bytes of sector `i` of a slot's content, padded with zeros (log 64). -/
def sectorPlain (x : Bytes) (i : Nat) : Bytes := padTo 4096 ((x.drop (4096 * i)).take 4096)

/-- Sector `i` of a slot's content as the flash stores it (R45, R302). -/
def sectorStored (key x : Bytes) (b : Bool) (i : Nat) : Bytes :=
  Config.xtsEnc key (sectorTweak (slotSector b + i)) (sectorPlain x i)

/-- What that sector deciphers to under a key: under its own key what was enciphered. -/
def sectorOpened (own key x : Bytes) (b : Bool) (i : Nat) : Bytes :=
  if own = key then sectorPlain x i
  else Config.xtsDec own (sectorTweak (slotSector b + i)) (sectorStored key x b i)

/-- A slot's content deciphered sector by sector. -/
def slotOpened (own key x : Bytes) (b : Bool) : Bytes :=
  ((List.range (ceilDiv x.length 4096)).flatMap fun i => sectorOpened own key x b i).take x.length

/-- Whether the flash holds slot B: it has at least 32 MiB and the spill area (R45). -/
def State.flashFits (s : State) : Bool := decide (0x02000000 + 4096 * s.spillSectors ≤ s.rte.flashSize)

/-- What a slot deciphers to; none for a blank slot, as slot B of a smaller flash is (R45). Only an unowned or owned part
derives the sector key (R292, R296, R297). -/
def State.slotBytes (s : State) (b : Bool) : Option Bytes :=
  if b && !s.flashFits then none
  else match if b then s.rte.slotB else s.rte.slotA with
    | .blank => none
    | .torn => some (s.openSlot b)
    | .image key x =>
      if s.lifecycle = 1 ∨ s.lifecycle = 2 then some (slotOpened s.tru.sectorKey key x b) else some (s.openSlot b)

def State.setSlot (s : State) (b : Bool) (x : Slot) : State :=
  s.setRte fun r => if b then { r with slotB := x } else { r with slotA := x }

/-- What fails the header, rollback and signature checks on a slot's content (R48); the part, the die revision and the
lifecycle are no part of them. -/
def State.slotFault (s : State) (x : Bytes) : Option (Nat × Nat) :=
  ((headerFault x 1 x.length).orElse fun _ => s.rollbackFault x).orElse fun _ => s.signFault x

/-- A slot's content is copied into staging, deciphered, before it is verified, its last code word padded with zeros
(R46). -/
def State.copySlot (s : State) (x : Bytes) : State := s.deviceWrite stagingBase (padTo (ceilDiv x.length 32 * 32) x)

/-- A slot's part in auto selection: it is copied into staging and checked there. Answers the failure, or none and the
image generation. `bad` is a sector at which the flash fails to be read: the slot that it lies in is not valid (R49,
R510). -/
def State.slotCheck (s : State) (bad : Option Nat) (b : Bool) : State × (Option (Nat × Nat) × Nat) :=
  match bad.filter fun n => decide (4096 ≤ n) == b, s.slotBytes b with
  | some n, _ => (s, some (flFlashRead, n), 0)
  | none, none => (s, some (flNoImage, 0), 0)
  | none, some x => match (s.copySlot x).readStaging x.length with
    | (s, .inr f) => (s, some f, 0)
    | (s, .inl y) => (s, s.slotFault y, beAt y 12 4)

/-- Auto selection (R48): the source, or the failure. -/
def State.autoSelect (s : State) (bad : Option Nat) : State × (Nat ⊕ (Nat × Nat)) :=
  let next := s.rte.nextBoot
  let (s, a, genA) := s.slotCheck bad false
  let (s, b, genB) := s.slotCheck bad true
  let pick : Nat ⊕ (Nat × Nat) :=
    if next = 1 ∧ a.isNone then .inl 1
    else if next = 2 ∧ b.isNone then .inl 2
    else match a, b with
      | none, none => .inl (if genA < genB then 2 else 1)
      | none, some _ => .inl 1
      | some _, none => .inl 2
      | some f, some _ => .inr f
  (s.setRte fun r => { r with nextBoot := 0, validA := a.isNone, validB := b.isNone }, pick)

/-- `STORE` (R47). -/
def State.rteStore (s : State) (tgtB : Bool) : State :=
  if s.rte.active ∧ s.rte.src = 1 + b2n tgtB then s.rteFail 262 (flSlot, 0) else s.rteOp (.store tgtB)

/-- The content of a store's target when the flash fails at a sector: the first sector is erased first and written last
(R47). -/
def State.storeBroken (s : State) (b : Bool) (sector : Nat) : State :=
  s.setSlot b (if sector = slotSector b then .torn else .blank)

/-- A store that a reset interrupts: before its verification has ended, while other sectors are written, or while the
first sector is written (R47). Which of them is not stated. -/
def State.storeCut (s : State) (b : Bool) : State :=
  match Config.freeNat s.freeCtr 47 % 3 with
  | 0 => s
  | 1 => s.setSlot b .blank
  | _ => s.setSlot b .torn

/-- The sector at which a store fails: one that the flash reports, or the first one that slot B has no room for, which
then reads back as it was (R45, R47, log 64). The first sector of the slot is written last. -/
def State.storeFault (s : State) (b : Bool) (n : Nat) (flashError : Option Nat) : Option Nat :=
  if b && !s.flashFits then some (if 4096 < n then 4097 else 4096) else flashError

/-- `STORE_FINISHED`: the staged image has been verified as for a load, and written (R47). -/
def execStoreFinished (flashError : Option Nat) : State → Host.Outcome State Fault Refusal :=
  complete fun s =>
    match s.rte.op with
    | some (.store b) =>
      match s.readStaging s.rteLen with
      | (s, .inr f) => s.rteFail 262 f
      | (s, .inl x) =>
        match (s.fileFault x 1 x.length).orElse fun _ => sectionFault x with
        | some f => s.rteFail 262 f
        | none => match s.storeFault b x.length flashError with
          | some n => (s.storeBroken b n).rteFail 262 (flFlashWrite, n)
          | none => ((s.setSlot b (.image s.tru.sectorKey x)).rteEnd).raise 261 0 0 (b2n b) 0
    | _ => s

/-! ### The anti-rollback floor (R44, R288) -/

/-- `COMMIT_FLOOR`: the floor rises to the version of the active image. -/
def State.rteFloor (s : State) : State :=
  let v := s.rte.version
  let floor := s.tru.floor
  if !s.rte.active || !s.rte.advance || decide (v ≤ floor) then s.rteFailed (flFloor, floor)
  else if s.tru.busy.isSome then (s.rteFailed (flFloor, floor)).otpRefused truBusy 312 v
  else match s.otpStart ⟨1, 0, 312, v, floorWords v, false, false⟩ with
    | (s, .granted) => s.rteOp (.floorCommit v)
    | (s, .queued) => s.rteOp .floorWait
    | (s, .denied) => (s.rteFailed (flRow, 0)).otpRefused truRowDenied 312 v

/-- The commit has ended: event 263 when the floor has risen (R60). -/
def State.floorDone (s : State) (c : OtpCommit) (bad : Bool) : State :=
  if bad then s.rteFailed (flFloor, s.tru.floor) else s.rteEnd.raise 263 0 0 c.aim 0

/-! ### Amendments (R53 to R56) -/

/-- The next copy of a path's gate lists takes the contents of the copy in force (R363). -/
def State.gateRefill (s : State) (p : Path) : State :=
  let lo := 16384 * pathNum p
  let mine (key : Nat) : Bool :=
    key % 0x4000000 == Reg.SCH_GATE_DATA && decide (lo ≤ key / 0x4000000 ∧ key / 0x4000000 < lo + 16384)
  let base := tblKey (gateTable p) 0
  let now := s.tables.filter fun e => decide (base ≤ e.1 ∧ e.1 < base + 16384)
  let cfg := now.foldl (fun c e => sparseSet regReset (regKey Reg.SCH_GATE_DATA (lo + (e.1 - base))) e.2 c)
    (sparseDrop mine s.cfg)
  { s with cfg := cfg }

/-- What an amendment staged is no longer staged: the copies return to the contents in force (log 65). -/
def State.unstageAmd (s : State) (a : Amendment) (p : Path) : State :=
  let k := a.kinds p
  let s := (List.range 6).foldl (fun s i => if hasKind k i then (s.unstageTx p i).unstageRx p i else s) s
  let s := if hasKind k 0 then s.updPcnt p fun x => { x with next := x.tx } else s
  let s := if hasKind k 2 then s.updTxd p fun x => { x with profNext := x.prof } else s
  let s := if hasKind k 3 then s.gateRefill p else s
  let s := if hasKind k 4 then s.coefFrom p (s.path p).txd.coefAct else s
  if hasKind k 5 then s.updPath p fun x => { x with rxModeNext := none } else s

/-- The pending amendment is withdrawn with its milestone (R50, R56); event 260 with subtype 0. -/
def State.amdWithdraw (s : State) : State :=
  match s.rte.amd with
  | none => s
  | some a =>
    let s := (s.withdraw a.handle).setRte fun r => { r with amd := none }
    ((s.unstageAmd a .a).unstageAmd a .b).raise 260 0 0 a.num 0

/-- Whether `AMD_CANCEL` is accepted: an amendment is pending, and its milestone lies more than 64 superframes ahead
(R56). -/
def State.amdCancelOk (s : State) : Bool :=
  match s.rte.amd with
  | none => false
  | some a => match s.entry a.handle with
    | some e => decide (s.now + superframes64 < e.time)
    | none => false

/-- The command that a write of `RTE_CTRL` gives: of several bits, the lowest-numbered (log 66). -/
def State.rteCommand (s : State) (w : Word) : State :=
  if flagOf w 2 then s.rteOp (.load (fieldOf w 1 0))
  else if flagOf w 3 then s.rteOp .amend
  else if flagOf w 4 then s.rteFloor
  else if flagOf w 5 then s.amdWithdraw
  else if flagOf w 6 then s.rteStore (flagOf w 7)
  else s

end Sys2Proof.Machine
end

