-- ==== Sys2Proof/Machine/Teardown.lean ====
section
/-!
DEFINITION. The end of a configuration (R24, R50): units that an image instantiates, their return to reset values, what
the converter calibration record seeds (R102), the governor's late refusals, and the trust core's `DECOMMISSION`.
-/
namespace Sys2Proof.Machine

/-! ### Units of an image -/

/-- Blocks whose units an image instantiates: the paths, `CNT`, `CRY`, `PKT`, `SCH`, `HSF`, `HSL` and `WST` (R24, R453). -/
def imageBlock (b : Nat) : Bool := [3, 4, 5, 6, 8, 9, 10, 11, 18].contains b

/-- A stored register word of such a block, or an entry of `PMC_CFG`, which a full load returns to its reset value
(R471). -/
def imageKey (key : Nat) : Bool :=
  let off := key % 0x4000000
  imageBlock (blockOf off) || decide (Reg.PMC_CFG0 ≤ off ∧ off < Reg.PMC_CFG0 + 4 * 8192)

/-- A rail set that belongs to a unit of the image: the optical loops of the monitor stay. -/
def imageRail (id : Nat) : Bool := decide (id / 256 % 16 ≠ 5 ∧ id / 256 % 16 ≠ 6)

def freshPathState (x : PathState) : PathState := { resetPath with cry := { resetCry with fill := x.cry.fill } }

/-- The units of the image return to their register reset values. The fill keys stay until the next reset of the device
(R259), the bypass stays as it is and keeps the cause for which it last closed (R23, R393), and table memory is zeroed
with valid check bits (R402). -/
def State.unitsClear (s : State) : State :=
  { s with
    cfg := sparseDrop imageKey s.cfg
    shadow := sparseDrop imageKey s.shadow
    custom := s.custom.filter fun o => !imageKey o
    rails := sparseDrop imageRail s.rails
    tables := [], tblShadow := [], hbDrop := 0
    pa := freshPathState s.pa, pb := freshPathState s.pb
    cnt := ⟨[], [], false⟩
    sch := { resetSch with time := s.sch.time }
    pkt := resetPkt
    hsf := ⟨[], []⟩
    hsl := { resetHsl with bypassOpen := s.hsl.bypassOpen, vddRing := s.hsl.vddRing, closeCause := s.hsl.closeCause }
    pmc := { s.pmc with
      wstFail := 0, wstStarved := 0, wstFailed := 0, wstDone := 0, wstRunning := 0, wstBlock := 0, wstEngine := 0 }
    mst := { s.mst with
      queue := s.mst.queue.filter fun e => !(e.partA.inScope || e.partB.inScope)
      pathA := resetPathMst, pathB := resetPathMst } }

/-- The grants of the units that end are returned, and their queued requests withdrawn (R486, R487). -/
def State.grantsBack (s : State) : State :=
  [0, 1, 2, 3, 4, 5, 7, 8].foldl (fun s i => (s.rowWithdraw i).setGrant i 0) s

/-- The device has no active route image (R24). -/
def State.imageGone (s : State) : State :=
  (s.unitsClear.setRte fun r => { r with
    active := false, cfg := noImage, src := 0, version := 0, gen := 0, amdNum := 0, digest := [], advance := false,
    program := [] }).overCheck

/-- The teardown of step 8 (R50): every connection ends, the DACs are muted, the host lanes leave lock. -/
def State.teardown (s : State) : State :=
  let s := s.amdWithdraw
  let s := s.lanesDown
  s.grantsBack.imageGone

/-- A failure in step 8, or the end of a configuration for another reason: the state of R24. -/
def State.loadBroken (s : State) (f : Nat × Nat) : State := (s.teardown.setGrant 6 0).rteFail 257 f

/-! ### The converter calibration record (R101, R102) -/

/-- Reserved bits of the words of the record. -/
def cnvWordOk (i w : Nat) : Bool :=
  if i = 0 then w / 2 ^ 40 == 0xC50112 && w % 2 ^ 32 == 0
  else if i ≤ 8 then bitsOf w 63 60 == 0 && bitsOf w 47 42 == 0 && bitsOf w 31 26 == 0 && bitsOf w 15 10 == 0
  else if i ≤ 16 then bitsOf w 63 28 == 0 && bitsOf w 15 10 == 0
  else true

def TruState.cnvRecordOk (t : TruState) : Bool :=
  t.checked 16 18 && (List.range 18).all fun i => cnvWordOk i (t.word (16 + i))

/-- `CAL_BAD`: the record that was checked when OTP was released is bad. -/
def State.calBad (s : State) : Bool := s.tru.ready && !s.tru.cnvRecordOk

/-- The trims and filter of a DAC that the record gives. -/
def State.seedDac (s : State) (p : Path) (d w : Nat) : State :=
  let s := s.setFldI (pathReg p Reg.PA_CNV_DAC_TRIM) d 27 16 (bitsOf w 59 48)
  let s := s.setFldI (pathReg p Reg.PA_CNV_DAC_TRIM) d 9 0 (bitsOf w 41 32)
  let s := s.setFldI (pathReg p Reg.PA_CNV_DAC_TAP0) d 9 0 (bitsOf w 25 16)
  s.setFldI (pathReg p (Reg.PA_CNV_DAC_TAP0 + 4)) d 9 0 (bitsOf w 9 0)

/-- The front-end correction of an ADC that the record gives; the skew is relative to XI. -/
def State.seedAdc (s : State) (p : Path) (d w : Nat) : State :=
  let s := if d = 0 then s else s.setFldI (pathReg p Reg.PA_RXD_FE_COEF) d 27 16 (bitsOf w 27 16)
  s.setFldI (pathReg p Reg.PA_RXD_FE_COEF) d 9 0 (bitsOf w 9 0)

/-- The values of profile 0 of the converters of a path: the record's, or the nominal ones where it is bad. -/
def State.seedPath (s : State) (p : Path) : State :=
  if s.tru.cnvRecordOk then
    (List.range 4).foldl (fun s d =>
      (s.seedDac p d (s.tru.word (17 + 4 * pathNum p + d))).seedAdc p d (s.tru.word (25 + 4 * pathNum p + d))) s
  else s

/-! ### The governor's late refusals (R487) -/

/-- The path of a request index. -/
def idxPath (idx : Nat) : Path := if idx % 2 = 1 then .b else .a

/-- A commit that waits for its grant does not run: it is reported to the unit that asked for it. -/
def State.otpDenied (s : State) : State :=
  match s.tru.busy with
  | none => s
  | some c =>
    let s := s.setTru fun t => { t with busy := none }
    match c.asker with
    | 0 => (s.truResult c.op truRowDenied 0).otpRefused truRowDenied c.region c.aim
    | 1 => (s.rteFailed (flRow, 0)).otpRefused truRowDenied c.region c.aim
    | _ => s.repairIdle.repairRefuse rpRowDenied

/-- A queued request has been denied (`late` false) or has timed out: its requester acts. -/
def State.onRefused (s : State) (idx : Nat) (late : Bool) : State :=
  match idx with
  | 0 => s.txRefused .a late
  | 1 => s.txRefused .b late
  | 2 => s.rxRefused .a late
  | 3 => s.rxRefused .b late
  | 4 => s.iterRefused .a
  | 5 => s.iterRefused .b
  | 6 => match s.rte.op with | some (.fillWait _ _ _) => s.loadBroken (flRow, 0) | _ => s
  | 7 => s.vRefused .a
  | 8 => s.vRefused .b
  | 9 => s.calRefused
  | 10 => s.otpDenied
  | _ => s

/-- A queued request is denied. -/
def State.denyQueued (s : State) (idx : Nat) : State := ((s.rowWithdraw idx).noteDenied idx).onRefused idx false

/-- A queued request times out. -/
def State.timeOutQueued (s : State) (idx : Nat) : State := ((s.rowWithdraw idx).noteTimeout idx).onRefused idx true

/-- After a change of the effective ceiling: `OVER` is judged, and each queued request that could never fit is denied
(R488). -/
def State.ceilingChanged (s : State) : State :=
  let s := s.overCheck
  let base := s.base
  let eff := s.effCeiling
  (s.pwr.queue.filter fun r => decide (eff < base + r.cost)).foldl (fun s r =>
    if s.rowWaiting r.idx then s.denyQueued r.idx else s) s

/-- A new `TIMEOUT` applies at once to every queued request (R487). -/
def State.timeoutChanged (s : State) : State :=
  let ms := s.fld Reg.PWR_CTRL 13 0
  (s.pwr.queue.filter fun r => decide (r.since + 1000000 * ms < s.upNs)).foldl (fun s r =>
    if s.rowWaiting r.idx then s.timeOutQueued r.idx else s) s

/-! ### The enables of the converter sides (R98) -/

/-- `TX_EN` written 1 while it reads 0, or on a side that a loss of the line reference has left off. DESIGN CHOICE (log
139): an enable that is written 0 and then 1 before the next frame boundary starts the side anew at once, with no
power-down between. -/
def State.txEnable (s : State) (p : Path) (was : Bool) : State :=
  if was then
    (if (s.path p).cnv.tx = .lineOff ∧ s.pwr.lineRef then s.updCnv p fun c => { c with tx := .starting } else s)
  else
    let c := (s.txMode p).carrierCost
    match s.rowAnswer c with
    | .granted => (s.setGrant (pathNum p) c).startTx p
    | .queued => (s.updCnv p fun x => { x with tx := .waiting }).enqueue (pathNum p) c
    | .denied => (s.noteDenied (pathNum p)).txRefused p false

/-- The same of `RX_EN`. DESIGN CHOICE (log 139): the slices of the ADCs keep their state until the new calibration
ends. -/
def State.rxEnable (s : State) (p : Path) (was : Bool) : State :=
  if was then
    (if (s.path p).cnv.rx = .lineOff ∧ s.pwr.lineRef then s.updCnv p fun c => { c with rx := .starting } else s)
  else
    let c := (s.rxModeOf p).receiverCost
    match s.rowAnswer c with
    | .granted => s.grantRx p c
    | .queued => (s.updCnv p fun x => { x with rx := .waiting }).enqueue (2 + pathNum p) c
    | .denied => (s.noteDenied (2 + pathNum p)).rxRefused p false

/-- Follows a write of `now` to `TX_EN`, whose stored value is in place; `was` is the value before. -/
def State.txEnWritten (s : State) (p : Path) (was now : Bool) : State :=
  if now then s.txEnable p was else if was then s.txDisable p else s

def State.rxEnWritten (s : State) (p : Path) (was now : Bool) : State :=
  if now then s.rxEnable p was else if was then s.rxDisable p else s

/-! ### `DECOMMISSION` (R295, R296) -/

/-- Every line key slot and the fill keys are zeroised. -/
def State.eraseLineKeys (s : State) : State :=
  [Path.a, Path.b].foldl (fun s p => (s.eraseAllKeys p).updCry p fun c =>
    { c with s0 := emptyKeys, s1 := emptyKeys, fill := [] }) s

/-- `DECOMMISSION`: an accepted blob zeroises the keys, ends the configuration, and programs the lifecycle to
`RETIRED`. -/
def State.decommission (s : State) : State :=
  s.truGate 3 fun s =>
    match s.blobCheck s.truInput 2 with
    | 0 =>
      let s := s.eraseJobKeys.eraseLineKeys
      (if s.rte.active then s.teardown else s).truCommit (lifecycleCommit 3 3)
    | code => s.truRefuse 3 code

end Sys2Proof.Machine
end

