-- ==== Sys2Proof/Machine/Custody.lean ====
section
/-!
DEFINITION. The OTP after reset and at the end of a commit (R102, R283, R286, R413, R442, R492): release, boot load,
the outcome of a commit, and what an interrupted one leaves.
-/
namespace Sys2Proof.Machine

/-! ### The release of OTP -/

/-- Entries of a repair map of `n` words at `base` (R291). -/
def TruState.repairMap (t : TruState) (base n : Nat) : List (Nat × Nat × Nat) :=
  ((t.words (base + 1) (n - 2)).take (t.word base % 256)).filterMap repairEntry

/-- The repair maps take effect before the memory die is released (R413). -/
def State.repairMaps (s : State) : State :=
  let field : List (Nat × Nat × Nat) := match s.tru.inForce repairRegion with
    | some g => s.tru.repairMap (repairRegion.slot g) 34
    | none => []
  let factory := if s.tru.repairOk 80 64 0xD0 then s.tru.repairMap 80 64 else []
  let table := field.map fun e => (⟨e.1, e.2.1, e.2.2, true, true, true, true⟩ : RemapEntry)
  { s with mem := { s.mem with
      factory := factory.filter fun f => !field.any fun e => e.1 == f.1 && e.2.1 == f.2.1
      remap := table } }

/-- `OTP_RELEASE`: the trust core releases OTP 1 ms after the end of reset. -/
def execOtpRelease : State → Host.Outcome State Fault Refusal :=
  complete fun s =>
    if s.tru.ready then s
    else
      let s := s.setTru fun t => { t with ready := true, identBad := !t.checked 0 16 }
      let s := s.monRecords
      let s := if s.pwr.thermBad then s.raise 293 0 0 0 0 else s
      s.repairMaps.rngSupply

/-! ### The end of a commit -/

/-- Event 266 for a change of the lifecycle state, event 267 for one of the owner generation in force (R315). -/
def State.custodyEvents (s : State) (life : Nat) (owner : Option Nat) : State :=
  let s := if s.lifecycle = life then s else s.raise 266 0 0 0 0
  let g := s.tru.inForce ownerRegion
  if g = owner then s else s.raise 267 0 0 (g.getD 0) 0

/-- `OTP_COMMIT_DONE`: the commit has written its words and read them back; `took` names the bits that cells failed to
give up. -/
def execOtpCommitDone (took : List (BitVec 9 × BitVec 64)) : State → Host.Outcome State Fault Refusal :=
  complete fun s =>
    match s.tru.busy with
    | none => s
    | some c =>
      if c.waiting then s
      else
        let life := s.lifecycle
        let owner := s.tru.inForce ownerRegion
        let s := s.setTru fun t =>
          { t.program c.words (took.map fun x => (x.1.toNat, x.2)) with busy := none }
        let s := s.setGrant 10 0
        let bad := s.tru.readBack c.words
        let s := if bad.isNone then s.raise 264 0 0 c.region c.aim else s.otpRefused truProgram c.region c.aim
        let s := s.custodyEvents life owner
        match c.asker with
        | 0 => s.truCommitEnd c bad
        | 1 => s.floorDone c bad.isSome
        | _ => if bad.isNone then s.repairDone c else s.repairResult rpProgram

/-- What a commit that a reset interrupts leaves (R285, R288, R290): a floor between the old and the new one, at most
two lifecycle copies, or a slot that is used and not valid. How far it came is not stated. -/
def TruState.cut (t : TruState) (ctr : Nat) : TruState :=
  match t.busy with
  | none => t
  | some c =>
    if c.waiting then t
    else
      let n := Config.freeNat ctr 285
      let ws := if c.region = 312 then floorWords (t.floor + n % (c.aim + 1 - t.floor))
        else if c.region = 346 then c.words.take (n % 3)
        else c.words.take (1 + n % (c.words.length - 1))
      t.program ws []

end Sys2Proof.Machine
end

