-- ==== Sys2Proof/Machine/Readout.lean ====
section
/-!
DEFINITION. What the registers of the device and of a path read: for every field that the device computes, its place in
the word (the register tables R25, R58, R84, R107, R135, R156, R175, R193 and R219). A function answers the computed
fields of one block; the stored fields are added by `Reads.lean`.
-/
namespace Sys2Proof.Machine

/-- What the configuration space of the PCIe endpoint tells (R447). -/
structure PcieConfig where
  device     : Nat
  classCode  : Nat
  vectors    : Nat                    -- MSI-X vectors
  maxPayload : Nat                    -- bytes
  maxRead    : Nat                    -- bytes of a read request
  aer        : Bool                   -- advanced error reporting
  flr        : Bool                   -- function level reset
  intx       : Bool
  sriov      : Bool
  deriving DecidableEq, Repr

def pcieConfig : PcieConfig := ⟨0x3216, 0x0280, 64, 512, 4096, true, true, false, false⟩

/-- A number at bits [hi:lo]. -/
def put (hi lo v : Nat) : Nat := v % 2 ^ (hi + 1 - lo) * 2 ^ lo

/-- A signed number at bits [hi:lo]. -/
def putI (hi lo : Nat) (v : Int) : Nat := toField (hi + 1 - lo) v * 2 ^ lo

/-- A flag at bit `i`. -/
def putB (i : Nat) (b : Bool) : Nat := b2n b * 2 ^ i

def State.topRead (s : State) (b : Nat) : Nat :=
  if b = Reg.TOP_ID then put 31 16 pcieConfig.device + put 15 12 s.part + put 11 8 s.dieRev
  else if b = Reg.TOP_UNIT_FUSED then s.fused
  else if b = Reg.TOP_UNIT_INST then (if s.rte.active then s.rte.cfg.inst.toNat else 0)
  else if b = Reg.TOP_FABRIC_GEN then s.rte.fabric.toNat
  else 0

def State.rteRead (s : State) (b : Nat) : Nat :=
  let r := s.rte
  if b = Reg.RTE_STATUS then
    put 31 24 r.failCode + put 23 8 r.failDetail + put 5 4 (if r.active then r.src else 0) + putB 3 r.amd.isSome
      + putB 2 r.failed + putB 1 r.active + putB 0 r.op.isSome
  else if b = Reg.RTE_SLOT then put 9 8 r.nextBoot + putB 1 r.validB + putB 0 r.validA
  else if b = Reg.RTE_ACTIVE then put 31 16 r.amdNum + put 14 8 s.tru.floor + put 6 0 r.version
  else if b = Reg.RTE_ACTIVE_GEN then r.gen.toNat
  else if b = Reg.RTE_EXPERT_LOCK then (if r.active then r.cfg.expert.toNat else 0)
  else if b = Reg.RTE_FAIL_DETAIL then put 23 0 r.failDetail
  else 0

/-- A word of a generation group (R84). A receive group's gate and coefficient generations are those of the last
readable tag block. -/
def PathMst.genWord (m : PathMst) (rx : Bool) (w : Nat) : Nat :=
  let g := if rx then { m.rx with gate := m.lastGate, coef := m.lastCoef } else m.tx
  let pair (a b : BitVec 16) : Nat := a.toNat * 65536 + b.toNat
  match w with
  | 0 => pair g.slot g.key
  | 1 => pair g.track g.gate
  | _ => pair g.coef g.mode

/-- Bits of the handles in use from handle `lo` on. -/
def State.handleMap (s : State) (lo : Nat) : Nat :=
  ((List.range 32).map fun i => putB i (s.entry (lo + i)).isSome).sum

def State.mstRead (s : State) (b : Nat) : Nat :=
  let m := s.mst
  if b = Reg.MST_TIME_STATUS then put 31 16 m.msgErr + putB 3 m.stepped + m.time.code
  else if b = Reg.MST_TIME_SEC_HI then put 15 0 (m.sec / 2 ^ 32)
  else if b = Reg.MST_TIME_SEC_LO then m.latchLo.toNat
  else if b = Reg.MST_TIME_NS then m.latchNs.toNat
  else if b = Reg.MST_Q_STATUS then put 21 16 m.handle + put 14 8 (64 - m.queue.length) + put 3 0 m.result
  else if b = Reg.MST_Q_MAP_LO then s.handleMap 0
  else if b = Reg.MST_Q_MAP_HI then s.handleMap 32
  else if b = Reg.MST_SEQ then s.evt.seq.toNat
  else if b = Reg.MST_GEN_MISMATCH then put 13 8 m.pathB.mismatch.toNat + put 5 0 m.pathA.mismatch.toNat
  else if Reg.MST_GEN ≤ b ∧ b < Reg.MST_GEN + 48 then
    let i := (b - Reg.MST_GEN) / 4
    (if i < 6 then m.pathA else m.pathB).genWord (decide (3 ≤ i % 6)) (i % 3)
  else 0

/-! ### Path units -/

/-- Position that an ADC's relief slice is calibrating for, 0x7F when not ready, frozen or retired. -/
def State.reliefPos (s : State) (p : Path) (n : Nat) : Nat := if s.rotating p n then (s.adc p n).target else 0x7F

def State.cnvRead (s : State) (p : Path) (b : Nat) : Nat :=
  let c := (s.path p).cnv
  let l := c.laser
  if b = Reg.PA_CNV_STATUS then
    let adcs (lo : Nat) (f : AdcState → Bool) : Nat := ((List.range 4).map fun n => putB (lo + n) (f (s.adc p n))).sum
    adcs 16 (·.retired) + adcs 12 (·.noRelief) + putB 7 l.ftLimit + putB 6 s.calBad + putB 5 c.txDenied
      + putB 4 c.rxDenied + putB 3 (c.tx == .waiting) + putB 2 (c.rx == .waiting) + putB 1 c.adcReady + putB 0 c.dacReady
  else if b = Reg.PA_CNV_DAC_SAT then ((List.range 4).map fun n => put (8 * n + 7) (8 * n) (c.dacSat.getD n 0)).sum
  else if Reg.PA_CNV_ADC_LEVEL0 ≤ b ∧ b < Reg.PA_CNV_ADC_LEVEL0 + 16 then
    let a := s.adc p ((b - Reg.PA_CNV_ADC_LEVEL0) / 4)
    put 31 16 a.clip + put 15 0 a.rms
  else if b = Reg.PA_CNV_RELIEF then ((List.range 4).map fun n => put (8 * n + 6) (8 * n) (s.reliefPos p n)).sum
  else if b = Reg.PA_CNV_SLICE_COEF then
    let a := s.adc p (s.pfld p Reg.PA_CNV_SLICE_SEL 1 0)
    let x := a.slices.getD (s.pfld p Reg.PA_CNV_SLICE_SEL 14 8) idleSlice
    put 31 30 x.state + put 29 24 x.pos + putI 23 16 x.corr.offset + putI 15 8 x.corr.gain + putI 7 0 x.corr.skew
  else if b = Reg.PA_CNV_LASER_RESP then
    putB 31 l.busy + put 26 24 l.result + put 23 16 l.addr + put 15 0 l.data
  else if b = Reg.PA_CNV_LASER_FT then put 15 0 l.code
  else if b = Reg.PA_CNV_LASER_STAT then put 15 0 l.statusF
  else 0

def State.rxdRead (s : State) (p : Path) (b : Nat) : Nat :=
  let d := (s.path p).rxd
  let t := d.stats
  if b = Reg.PA_RXD_STATE then
    put 31 16 d.restarts + putB 9 d.searchAt.isSome + putB 8 d.sigAbsent + put 2 0 d.acq
  else if b = Reg.PA_RXD_ACQ_INFO then put 31 24 (min 255 d.cAcq) + put 23 16 (min 255 d.cNow) + put 15 0 d.acqCount
  else if b = Reg.PA_RXD_STAT_LATCH then put 31 0 t.secLo
  else if b = Reg.PA_RXD_ST_CD then putB 31 t.valid + putI 19 0 t.cd
  else if b = Reg.PA_RXD_ST_FOFS then putI 31 0 t.fofs
  else if b = Reg.PA_RXD_ST_CLK then putI 19 0 t.clk
  else if b = Reg.PA_RXD_ST_DGD then put 31 16 t.dgdMean + put 15 0 t.dgdPeak
  else if b = Reg.PA_RXD_ST_PDL then putI 31 16 t.agc + put 15 0 t.pdl
  else if b = Reg.PA_RXD_ST_SOP then put 31 0 t.sop
  else if b = Reg.PA_RXD_ST_MISS then put 31 16 t.slips + put 15 0 t.missed
  else if b = Reg.PA_RXD_SNR then
    let track := s.pfld p Reg.PA_RXD_SNR_SEL 3 0
    if track < (s.rxModeOf p).trackCount then put 11 0 (t.snr.getD (2 * track + s.pfld p Reg.PA_RXD_SNR_SEL 4 4) 0) else 0
  else 0

def State.txdRead (s : State) (p : Path) (b : Nat) : Nat :=
  let d := (s.path p).txd
  if b = Reg.PA_TXD_COEF_GEN then put 31 16 (s.mstPath p).tx.coef.toNat
  else if b = Reg.PA_TXD_STATUS then putB 1 d.profRefused + putB 0 d.running
  else if b = Reg.PA_TXD_COMP then
    let c := composition (max 64 (s.pfld p Reg.PA_TXD_COMP_SEL 7 0))
    put 31 24 c.2.2.2 + put 23 16 c.2.2.1 + put 15 8 c.2.1 + put 7 0 c.1
  else match s.mode p with
    | none => 0
    | some m =>
      let t := s.pfld p Reg.PA_TXD_TRK_SEL 3 0
      let inside := decide (t < m.trackCount)
      if b = Reg.PA_TXD_FRAME_INFO then put 31 24 (m.pad d.prof) + put 21 0 m.bits
      else if b = Reg.PA_TXD_TRK_INFO ∧ inside then put 31 16 (m.blocksOn d.prof t) + put 7 0 (d.prof.getD t 0)
      else if b = Reg.PA_TXD_TRK_FILL ∧ inside then put 17 0 (m.fillOn d.prof t)
      else 0

/-- The output in force of a loop (R167). The relief-slice loop moves three fields of a slice, so that its one output
is not stated (log 70). -/
def State.loopOut (s : State) (id : Nat) : Int :=
  let p := loopPath id
  if id / 0x1000 = 0 then (s.rail id).out
  else match id / 0x100 % 16 with
    | 1 => (((s.path p).txd.prof.getD (id % 0x100) 0 : Nat) : Int)
    | 2 => (s.path p).rxd.df
    | 3 => ((Config.freeNat s.freeCtr id : Nat) : Int)
    | 4 => ((s.fec p).iMax : Int)
    | _ => (s.rail id).out

/-- A register of a rail window (R175, R396): bounds and step read in force, the control word reads pending. `r` is
the distance from the window's `RAIL_SEL`. -/
def State.railRead (s : State) (id r : Nat) : Nat :=
  let x := s.rail id
  match r with
  | 0x04 => putI 31 0 x.min
  | 0x08 => putI 31 0 x.max
  | 0x0C => put 31 0 x.step
  | 0x10 => putB 16 x.pFreeze + put 15 0 x.pDwell
  | 0x14 => putB 5 x.refused + putB 4 x.freeze + putB 3 x.throttled + putB 2 x.pinHi + putB 1 x.pinLo + putB 0 x.clamped
  | 0x18 => putI 31 0 (s.loopOut id)
  | _ => 0

/-- The selected profile set with its generation: `DIR` 1 receive, `COPY` 1 next (R175). A transmit next copy that is not
staged has the generation in force. -/
def State.profSel (s : State) (p : Path) (dir copy : Nat) : List Nat × BitVec 16 :=
  let m := s.mstPath p
  let t := (s.path p).trk
  match dir, copy with
  | 0, 0 => ((s.path p).txd.prof, m.tx.track)
  | 0, _ => ((s.path p).txd.profNext, (s.staged p 2).getD m.tx.track)
  | _, 0 => (t.rxProf, m.rx.track)
  | _, _ => (t.rxProfNext, t.rxNextGen)

def State.trkRead (s : State) (p : Path) (b : Nat) : Nat :=
  let t := (s.path p).trk
  if b = Reg.PA_TRK_LEV_STATUS then put 31 16 t.reqNum + put 15 8 t.rxResp + put 7 0 t.txResp
  else if b = Reg.PA_TRK_LEV_CNT then put 31 16 t.accepted + put 15 0 t.refused
  else if b = Reg.PA_TRK_PROF then
    let sel := s.reg (pathReg p Reg.PA_TRK_PROF_SEL)
    let x := s.profSel p (fieldOf sel 4 4) (fieldOf sel 5 5)
    put 31 16 x.2.toNat + put 7 0 (x.1.getD (fieldOf sel 3 0) 0)
  else if Reg.PA_TRK_RAIL_SEL < b ∧ b ≤ Reg.PA_TRK_RAIL_OUT then
    s.railRead (s.pfld p Reg.PA_TRK_RAIL_SEL 15 0) (b - Reg.PA_TRK_RAIL_SEL)
  else 0

def State.fecRead (s : State) (p : Path) (b : Nat) : Nat :=
  let f := s.fec p
  let t := f.stats
  if b = Reg.PA_FEC_STATUS then
    putB 17 f.llr + putB 16 f.want.isSome + put 12 8 (min 31 (s.covered p)) + put 4 0 f.iMax
  else if b = Reg.PA_FEC_GRANT then put 15 0 f.gd
  else if b = Reg.PA_FEC_STAT_LATCH then put 31 0 t.secLo
  else if b = Reg.PA_FEC_ST_FRAMES then putB 31 t.valid + put 19 0 t.cnt.frames
  else if b = Reg.PA_FEC_ST_ERR_FRAMES then put 19 0 t.cnt.errFrames
  else if b = Reg.PA_FEC_ST_WORDS then put 31 0 t.cnt.words
  else if b = Reg.PA_FEC_ST_UNCORR then put 31 0 t.cnt.uncorr
  else if b = Reg.PA_FEC_ST_CORR_HI then put 15 0 (t.cnt.corr / 2 ^ 32)
  else if b = Reg.PA_FEC_ST_CORR_LO then put 31 0 t.cnt.corr
  else if b = Reg.PA_FEC_ST_ITER then
    put 31 16 (if t.cnt.words = 0 then 0 else t.cnt.iterSum * 256 / t.cnt.words) + put 12 8 t.cnt.maxUsed + put 4 0 t.iMax
  else 0

/-- Word `w` of 64 trace bytes, lowest byte number in bits [31:24]. -/
def wordOfTrace (b : Option Bytes) (w : Nat) : Nat := match b with | some b => beAt b (4 * w) 4 | none => 0

def State.lfrRead (s : State) (p : Path) (b : Nat) : Nat :=
  let l := s.lfr p
  let e := if s.pfld p Reg.PA_LFR_PM_SEL 0 0 = 0 then l.near else l.farEnd
  let c := s.chan p (s.pfld p Reg.PA_LFR_GCC_SEL 2 0)
  if b = Reg.PA_LFR_STATUS then
    put 23 16 l.raw.toNat + put 15 8 l.rep.toNat + putB 4 l.monitored + putB 3 l.quarantine + putB 2 l.inSf
      + putB 1 l.inFrame
  else if b = Reg.PA_LFR_DEF_STICKY then put 7 0 l.sticky.toNat
  else if b = Reg.PA_LFR_TX_FC_HI then put 15 0 (s.txFc / 2 ^ 32)
  else if b = Reg.PA_LFR_TX_FC_LO then l.txLatch.toNat
  else if b = Reg.PA_LFR_RX_FC_HI then (if l.inSf then put 15 0 (l.expected / 2 ^ 32) else 0)
  else if b = Reg.PA_LFR_RX_FC_LO then l.rxLatch.toNat
  else if b = Reg.PA_LFR_TRACE_RX then
    (if s.pfld p Reg.PA_LFR_TRACE_SEL 4 4 = 1 then wordOfTrace l.accepted (s.pfld p Reg.PA_LFR_TRACE_SEL 3 0) else 0)
  else if b = Reg.PA_LFR_VIOL then put 31 16 l.viol + put 15 8 (min 255 l.secViol) + put 7 0 l.lastViol
  else if b = Reg.PA_LFR_PM_ES then put 31 0 e.es
  else if b = Reg.PA_LFR_PM_SES then put 31 0 e.ses
  else if b = Reg.PA_LFR_PM_UAS then put 31 0 e.uas
  else if b = Reg.PA_LFR_PM_STATE then putB 1 l.farEnd.unavail + putB 0 l.near.unavail
  else if b = Reg.PA_LFR_PM_LAST then put 31 0 e.last
  else if b = Reg.PA_LFR_GCC_TX then put 31 16 c.txRd
  else if b = Reg.PA_LFR_GCC_RX then put 31 16 c.rxWr
  else if b = Reg.PA_LFR_GCC_STAT then put 31 16 c.discard + put 15 8 (min 255 c.overflow) + putB 0 c.txErr
  else 0

end Sys2Proof.Machine
end

