-- ==== Sys2Proof/Machine/Reads.lean ====
section
/-!
DEFINITION. What the registers of the device's other blocks read (R251, R281, R313, R346, R366, R396, R419, R445,
R478, R495), the items that windowed registers address, and the read of a register with what it latches.
-/
namespace Sys2Proof.Machine

/-! ### Windows

A windowed register addresses the item that its select register names. -/

/-- The container that `CNT_C_SEL` or `CRY_C_SEL` selects. -/
def State.selCont (s : State) (sel : Nat) : Path × Nat := (pathOf (s.fld sel 8 8), s.fld sel 7 0)

/-- Index of the item that a register addresses; registers with one item have item 0. -/
def State.item (s : State) (off : Nat) : Nat :=
  let b := baseOff off
  let d := off - b
  let cont := let c := s.selCont Reg.CNT_C_SEL; contKey c.1 c.2
  let sel (r hi lo : Nat) : Nat := s.fld (r + d) hi lo
  let loop := s.fld Reg.MON_OPT_SEL 0 0 * 8 + s.fld Reg.MON_LOOP_SEL 2 0
  if Reg.PA_CNV_DAC_TRIM ≤ b ∧ b < Reg.PA_CNV_DAC_TAP0 + 16 then sel Reg.PA_CNV_DAC_SEL 1 0
  else if b = Reg.PA_RXD_FE_COEF then sel Reg.PA_RXD_FE_SEL 1 0
  else if b = Reg.PA_TXD_MASK then sel Reg.PA_TXD_MASK_SEL 7 0
  else if b = Reg.PA_TXD_PCF then sel Reg.PA_TXD_PCF_SEL 6 0
  else if b = Reg.PA_LFR_TRACE_TX ∨ b = Reg.PA_LFR_TRACE_RX then sel Reg.PA_LFR_TRACE_SEL 3 0
  else if b = Reg.PA_LFR_GCC_TX ∨ b = Reg.PA_LFR_GCC_RX then sel Reg.PA_LFR_GCC_SEL 2 0
  else if b = Reg.CNT_C_CTRL then cont
  else if b = Reg.CNT_C_TRACE_TX ∨ b = Reg.CNT_C_TRACE_RX then cont * 16 + s.fld Reg.CNT_C_TRACE_SEL 3 0
  else if b = Reg.CRY_POLICY ∨ (Reg.CRY_PEER_PIN0 ≤ b ∧ b < Reg.CRY_PEER_PIN0 + 16) then s.fld Reg.CRY_PATH_SEL 0 0
  else if b = Reg.CRY_C_CTRL then (let c := s.selCont Reg.CRY_C_SEL; contKey c.1 c.2)
  else if b = Reg.TRU_PAGE_CTRL ∨ (Reg.TRU_PAGE_BASE_HI ≤ b ∧ b ≤ Reg.TRU_PAGE_LIMIT_LO) then s.fld Reg.TRU_PAGE_SEL 4 0
  else if b = Reg.SCH_GATE_DATA then s.fld Reg.SCH_GATE_SEL 14 0
  else if b = Reg.HSF_PORT_CTRL then s.fld Reg.HSF_PORT_SEL 4 0
  else if b = Reg.HSF_LANE_CTRL then s.fld Reg.HSF_LANE_SEL 4 0
  else if b = Reg.HSL_LANE_CTRL then s.fld Reg.HSL_LANE_SEL 3 0
  else if b = Reg.MON_TMR then s.fld Reg.MON_TMR_SEL 1 0
  else if Reg.MON_SEQ_CTRL ≤ b ∧ b ≤ Reg.MON_SEQ_MASK_HI then s.fld Reg.MON_SEQ_SEL 2 0
  else if b = Reg.MON_FIR_COEF then s.fld Reg.MON_CH_SEL 2 0 * 64 + s.fld Reg.MON_FIR_SEL 5 0
  else if b = Reg.MON_CH_CFG ∨ b = Reg.MON_CH_DEC ∨ (Reg.MON_CH_CTRL ≤ b ∧ b ≤ Reg.MON_CH_HYST) then s.fld Reg.MON_CH_SEL 2 0
  else if b = Reg.MON_DITH0 ∨ b = Reg.MON_DITH1 then s.fld Reg.MON_OPT_SEL 0 0
  else if Reg.MON_LOOP_CTRL ≤ b ∧ b ≤ Reg.MON_DAC_CODE then loop
  else if b = Reg.MON_FCAL_DATA then s.fld Reg.MON_FCAL_SEL 5 0
  else if b = Reg.EVT_SRC_CFG then s.fld Reg.EVT_SRC_SEL 8 0
  else 0

/-- Whether the register's select names the copy in force. -/
def State.copySel (s : State) (off : Nat) : Bool :=
  let b := baseOff off
  let sel (r i : Nat) : Bool := flagOf (s.reg (r + (off - b))) i
  if Reg.PA_CNV_DAC_TRIM ≤ b ∧ b < Reg.PA_CNV_DAC_TAP0 + 16 then sel Reg.PA_CNV_DAC_SEL 8
  else if b = Reg.PA_TXD_MASK then sel Reg.PA_TXD_MASK_SEL 8
  else if b = Reg.PA_TXD_PCF then sel Reg.PA_TXD_PCF_SEL 8
  else if b = Reg.CNT_SLOT_ENTRY then sel Reg.CNT_SLOT_SEL 10
  else if b = Reg.SCH_GATE_DATA then sel Reg.SCH_GATE_SEL 16
  else if b = Reg.MON_FIR_COEF then sel Reg.MON_FIR_SEL 6
  else if b = Reg.PA_LFR_TRACE_RX then sel Reg.PA_LFR_TRACE_SEL 4
  else if b = Reg.CNT_C_TRACE_RX then sel Reg.CNT_C_TRACE_SEL 4
  else false

/-- Registers whose fields live in their unit, so that no register word holds them. -/
def unitHeld (b : Nat) : Bool :=
  b == Reg.RTE_SLOT || b == Reg.PA_CNV_LASER_FT || b == Reg.PA_TRK_PROF
    || decide (Reg.PA_TRK_RAIL_SEL < b ∧ b ≤ Reg.PA_TRK_RAIL_OUT)
    || decide (Reg.HSF_RAIL_SEL < b ∧ b ≤ Reg.HSF_RAIL_OUT)
    || b == Reg.CNT_SLOT_ENTRY || b == Reg.PKT_TBL_DATA || b == Reg.SCH_TBL_DATA || b == Reg.MON_DAC_CODE
    || b == Reg.CTL_LOCK_LEASE || b == Reg.MON_FCAL_DATA

/-- Words of an entry of the table with an identifier (R343, R353, R354, R363, R443, R471). -/
def entryWords (t : Nat) : Nat :=
  match t with
  | 0x0D00 => 28 | 0x0D01 => 16 | 0x0D02 => 1 | 0x0D04 => 2 | 0x0E00 => 4 | 0x0E01 => 4 | _ => 1

/-- Number of entries of a table. -/
def entryCount (t : Nat) : Nat :=
  match t with
  | 0x0D00 => 16384 | 0x0D01 => 16384 | 0x0D02 => 512 | 0x0D04 => 32 | 0x0E00 => 65536 | 0x0E01 => 8192 | _ => 0

/-- Table, entry and word that a table window addresses, and `READ_SHADOW`. -/
def State.tblSel (s : State) (off : Nat) : Nat × Nat × Nat × Bool :=
  let w := s.reg (if off = Reg.PKT_TBL_DATA then Reg.PKT_TBL_SEL else Reg.SCH_TBL_SEL)
  if off = Reg.PKT_TBL_DATA then (0x0D00 + fieldOf w 26 24, fieldOf w 21 8, fieldOf w 4 0, flagOf w 31)
  else (0x0E00 + fieldOf w 24 24, fieldOf w 23 8, fieldOf w 1 0, flagOf w 31)

/-- What a table window reads: the word in force, or its shadow, which is the word in force while nothing waits. -/
def State.tblRead (s : State) (off : Nat) : Nat :=
  let (t, i, w, sh) := s.tblSel off
  let k := entryWords t * i + w
  let now := s.tblWord t k
  (if sh then (noted s.tblShadow (tblKey t k)).getD now else now).toNat

/-! ### Blocks -/

def State.cntRead (s : State) (b : Nat) : Nat :=
  let (p, n) := s.selCont Reg.CNT_C_SEL
  let c := s.cont p n
  let raw := c.raw
  let lane : Fleam := sparseGet (fun _ => freshFleam) s.cnt.lanes (s.fld Reg.CNT_SLIP_SEL 3 0)
  if b = Reg.CNT_SLOT_GEN_A then put 31 16 s.mst.pathA.tx.slot.toNat
  else if b = Reg.CNT_SLOT_GEN_B then put 31 16 s.mst.pathB.tx.slot.toNat
  else if b = Reg.CNT_SLOT_ENTRY then
    let t := s.pcnt (pathOf (s.fld Reg.CNT_SLOT_SEL 9 9))
    put 15 0 ((if s.copySel b then t.tx else t.next).getD (s.fld Reg.CNT_SLOT_SEL 8 0) 0)
  else if b = Reg.CNT_C_SIZE then put 24 16 (s.txSlots p n).length + put 8 0 (s.rxSlots p n).length
  else if b = Reg.CNT_C_STATUS then
    put 31 29 c.rxState + put 28 16 c.rxS + put 15 8 c.rxType + putB 5 c.txAis + putB 4 (c.delin == 2)
      + putB 3 (raw.getLsbD 3) + putB 2 (c.rep.getLsbD 3) + putB 1 (raw.getLsbD 0) + putB 0 (c.rep.getLsbD 0)
  else if b = Reg.CNT_C_CNT0 then put 31 0 c.aisFrames
  else if b = Reg.CNT_C_CNT1 then put 31 16 (min 65535 c.jwUnread) + put 15 0 (min 65535 c.unitErr)
  else if b = Reg.CNT_C_TRACE_RX then
    (if s.copySel b then wordOfTrace c.accepted (s.fld Reg.CNT_C_TRACE_SEL 3 0) else 0)
  else if b = Reg.CNT_SLIP then
    put 31 24 lane.inDrop + put 23 16 lane.inRepeat + put 15 8 lane.outDrop + put 7 0 lane.outRepeat
  else if b = Reg.CNT_SLIP_BAD then put 15 0 lane.bad
  else 0

def State.cryRead (s : State) (b : Nat) : Nat :=
  let y := s.cry (pathOf (s.fld Reg.CRY_PATH_SEL 0 0))
  let (p, n) := s.selCont Reg.CRY_C_SEL
  let z := s.cry p
  let c := s.cont p n
  let held (k : KeySet) : Bool := (k.tx.getD n none).isSome || (k.rx.getD n none).isSome
  if Reg.CRY_PEER_SEEN0 ≤ b ∧ b < Reg.CRY_PEER_SEEN0 + 16 then beAt y.peerSeen (b - Reg.CRY_PEER_SEEN0) 4
  else if b = Reg.CRY_VAR_STATUS then
    put 31 24 y.nakRx + put 23 16 y.nakTx + putB 11 y.rowWait + putB 10 y.responder + putB 9 y.peerOk + put 3 0 y.state
  else if b = Reg.CRY_EPOCH then put 31 16 y.txKeys.txEpoch.toNat + put 15 0 y.rxKeys.rxEpoch.toNat
  else if b = Reg.CRY_KEY_AGE then put 31 0 (y.txAge / 256)
  else if b = Reg.CRY_AGREE_CNT then put 31 16 y.doneCnt + put 15 0 y.failCnt
  else if b = Reg.CRY_C_STATUS then
    putB 11 (s.txKey p n).isSome + putB 10 (s.rxKey p n).isSome
      + putB 9 (match z.nextKeys with | some k => held k | none => false)
      + putB 5 c.blocked + putB 3 (c.raw.getLsbD 2) + putB 2 (c.rep.getLsbD 2) + putB 1 (c.raw.getLsbD 1)
      + putB 0 (c.rep.getLsbD 1)
  else if b = Reg.CRY_C_AUTH then put 31 16 c.authOk + put 15 0 c.authFail
  else if b = Reg.CRY_C_UNCHK then put 31 0 c.unchecked
  else 0

/-- The gate list next copy's generation is stored; the one in force is the transmit direction's. -/
def State.schOverlay (s : State) (b : Nat) : Nat :=
  if b = Reg.SCH_TBL_DATA then s.tblRead b
  else if b = Reg.SCH_GATE_GEN_A then put 31 16 s.mst.pathA.tx.gate.toNat
  else if b = Reg.SCH_GATE_GEN_B then put 31 16 s.mst.pathB.tx.gate.toNat
  else (s.schRead b).getD 0

def State.hsfRead (s : State) (b : Nat) : Nat :=
  let f := s.fld Reg.HSF_PORT_SEL 4 0
  let x := s.port f
  let l := s.fastLane (s.fld Reg.HSF_LANE_SEL 4 0)
  if b = Reg.HSF_PORT_STATUS then
    let quar := match s.portRec f with
      | some r => r.lanes.any fun n => (s.fastLane n).quarantine
      | none => false
    put 15 12 x.cause + putB 8 x.capMismatch + putB 7 x.rxAis + putB 6 quar + put 2 0 x.state
  else if b = Reg.HSF_PORT_CLK then putI 15 0 x.ppm
  else if b = Reg.HSF_PORT_CNT0 then put 31 16 x.restarts + put 15 0 x.hdrErr
  else if b = Reg.HSF_PORT_CNT1 then put 31 16 x.stuffNeg + put 15 0 x.stuffPos
  else if b = Reg.HSF_PORT_CNT2 then put 31 16 x.macDrop + put 15 0 x.rsUncorr
  else if b = Reg.HSF_LANE_TAPS then
    putI 31 24 l.cm2 + putI 23 16 l.cm1 + putI 15 8 (mainTap l.taps) + putI 7 0 l.cp1
  else if b = Reg.HSF_LANE_STAT then
    put 31 16 l.viol + put 15 8 l.lastViol + putB 3 l.ready + putB 2 l.locked + putB 1 l.signal
  else if Reg.HSF_RAIL_SEL < b ∧ b ≤ Reg.HSF_RAIL_OUT then
    s.railRead (s.fld Reg.HSF_RAIL_SEL 15 0) (b - Reg.HSF_RAIL_SEL)
  else 0

def State.hslRead (s : State) (b : Nat) : Nat :=
  let l := s.lane (s.fld Reg.HSL_LANE_SEL 3 0)
  let h := s.hsl
  if b = Reg.HSL_LANE_STATUS then
    put 31 16 l.cv + put 15 8 (min 255 l.secCv) + putB 4 l.quarantine + put 2 0 l.state
  else if b = Reg.HSL_RING_STATUS then
    put 15 12 h.closeCause + putB 2 ((s.lane 15).state == 4) + putB 1 ((s.lane 14).state == 4) + putB 0 h.bypassOpen
  else if b = Reg.HSL_RING_CNT then put 31 16 h.msgRx + put 15 8 (min 255 h.msgBad) + put 7 0 h.insertions
  else 0

def State.memRead (s : State) (b : Nat) : Nat :=
  let m := s.mem
  if b = Reg.MEM_SCRUB_STATUS then
    put 31 16 m.scrub.passes + put 15 8 (min 255 m.scrub.lateCnt) + putB 0 (decide (0 < m.scrub.quota))
  else if b = Reg.MEM_SCRUB_CAP then put 31 0 m.cap
  else if b = Reg.MEM_DRAM_ERR then put 31 16 m.corr + put 15 0 m.uncorr
  else if b = Reg.MEM_SRAM_ERR then put 31 16 m.sramCorr + put 15 8 (min 255 m.sramUncorr) + put 7 0 (min 255 m.lostLines)
  else if b = Reg.MEM_MERGE then put 31 16 m.merges + put 15 8 (min 255 m.onCorr) + put 7 0 (min 255 m.onUncorr)
  else if b = Reg.MEM_WATCH then put 31 24 (min 255 m.watchOvf) + put 8 0 m.watch.length
  else if b = Reg.MEM_LEDGER_ENT then
    (match m.ledger[s.fld Reg.MEM_LEDGER_SEL 5 0]? with
    | some e => putB 31 true + put 30 28 e.state + put 21 0 e.word
    | none => 0)
  else if b = Reg.MEM_LEDGER_STAT then putB 7 (decide (64 ≤ m.ledger.length)) + put 6 0 m.ledger.length
  else if b = Reg.MEM_REMAP_ENT then
    (match m.remap[s.fld Reg.MEM_REMAP_SEL 4 0]? with
    | some e => putB 31 true + putB 30 e.persistent + putB 29 (!e.applied) + put 28 23 e.bank + put 22 13 e.row + put 4 0 e.spare
    | none => 0)
  else if b = Reg.MEM_REMAP_STAT then
    putB 15 (decide (32 ≤ m.remap.length)) + put 13 8 (m.remap.filter fun e => !e.applied).length + put 5 0 m.remap.length
  else if b = Reg.MEM_REPAIR_STATUS then put 31 24 m.repairResult + putB 1 m.repairWait + putB 0 m.repairBusy
  else if Reg.MEM_ARB_USE0 ≤ b ∧ b < Reg.MEM_ARB_USE0 + 16 then
    let n := (b - Reg.MEM_ARB_USE0) / 4
    put 31 16 (min 65535 (m.arbUse.getD (2 * n + 1) 0)) + put 15 0 (min 65535 (m.arbUse.getD (2 * n) 0))
  else 0

def State.monRead (s : State) (b : Nat) : Nat :=
  let m := s.mon
  let i := s.fld Reg.MON_CH_SEL 2 0
  let c := s.chain i
  if b = Reg.MON_STATUS then
    putB 7 m.fcalBad + putB 6 m.fcal.isSome + putB 5 m.calDenied + putB 4 m.calWait + putB 3 (m.calWait || m.calRun)
      + putB 2 m.calBad + putB 1 s.twoPath
  else if b = Reg.MON_RESULT then
    putB 31 m.resValid + putB 30 m.resOver + put 29 27 m.resSeq + put 21 16 m.resChan + put 15 0 m.resCode
  else if b = Reg.MON_OVR then put 31 16 m.trigOvr + put 15 8 (min 255 m.aborts) + put 7 0 (min 255 m.resOvr)
  else if b = Reg.MON_FIR_COEF then putI 17 0 (c.cfg.coefs.getD (s.fld Reg.MON_FIR_SEL 5 0) 0)
  else if b = Reg.MON_CH_OUT then putI 31 0 c.out
  else if b = Reg.MON_CH_INFO then
    put 31 16 c.count + put 15 9 c.cfg.settle + putB 8 c.unsettled + putB 4 c.stkHi + putB 3 c.stkLo + putB 2 c.above
      + putB 1 c.below + putB 0 c.refused
  else if b = Reg.MON_CH_GD then put 23 0 (c.cfg.groupDelay s.freeCtr)
  else if b = Reg.MON_DAC_CODE then
    put 15 0 (s.optOut (pathOf (s.fld Reg.MON_OPT_SEL 0 0)) (s.fld Reg.MON_LOOP_SEL 2 0))
  else if b = Reg.MON_FCAL_DATA then wordOfTrace m.fcal (s.fld Reg.MON_FCAL_SEL 5 0)
  else 0

/-- What `CTL_LOCK_OWNER` says of a domain's owner. -/
def ownerCode (o : Option Nat) : Nat := match o with | none => 0 | some 0 => 1 | some 1 => 2 | some _ => 3

/-- The control registers; those marked per session are the reading session's (R478). -/
def State.ctlRead (s : State) (ses : Nat) (b : Nat) : Nat :=
  let x := s.session ses
  let u := s.fld Reg.CTL_STATE_SEL 5 0
  if b = Reg.CTL_ACC_STATUS then put 31 28 x.result + putB 27 x.refused + put 25 0 x.addr
  else if b = Reg.CTL_STATE then
    putB 8 (s.ctl.mismatch.contains u) + put 5 4 (s.ordered u) + put 1 0 (s.actual u)
  else if b = Reg.CTL_LOCK_STATUS then
    put 31 28 x.lockResult + put 24 16 (if (s.lock x.lockDom).owner = some ses then (s.lock x.lockDom).staged.length else 0)
      + put 15 8 x.lockIndex
      + ((List.range 8).map fun d => putB d ((s.lock d).owner == some ses)).sum
  else if b = Reg.CTL_LOCK_LEASE then put 9 0 x.lease
  else if b = Reg.CTL_LOCK_OWNER then
    ((List.range 8).map fun d => put (4 * d + 3) (4 * d) (ownerCode (s.lock d).owner)).sum
  else if Reg.MSIX_PBA ≤ b ∧ b < Reg.MSIX_PBA + 8 then put 31 0 (s.evt.pba.toNat / 2 ^ (8 * (b - Reg.MSIX_PBA)))
  else 0

def State.evtRead (s : State) (b : Nat) : Nat :=
  let e := s.evt
  if Reg.EVT_PEND0 ≤ b ∧ b < Reg.EVT_PEND0 + 40 then put 31 0 (e.pend / 2 ^ (8 * (b - Reg.EVT_PEND0)))
  else if b = Reg.EVT_JRN_WR then put 14 0 e.wr
  else if b = Reg.EVT_SPILL_STAT then putB 31 e.spillDone + put 23 0 e.spillNext
  else 0

/-- Whether counter `n` takes the carry of the one below it (R472). -/
def State.pmcUpper (s : State) (n : Nat) : Bool := decide (0 < n) && flagOf (s.pmcCfg (n - 1)) 31

def State.pmcRead (s : State) (b : Nat) : Nat :=
  let m := s.pmc
  if b = Reg.PMC_DUMP_PTR then put 23 16 m.dev
  else if b = Reg.PMC_DUMP_STAT then put 31 16 m.dumps + put 15 8 (min 255 m.missed) + put 7 0 (min 255 m.trunc)
  else if Reg.PMC_CNT0 ≤ b ∧ b < Reg.PMC_CNT0 + 4 * 8192 then
    let n := (b - Reg.PMC_CNT0) / 4
    (sparseGet (fun _ => (0 : Word)) (if s.pmcUpper n then m.latched else m.cnt) n).toNat
  else if Reg.PMC_OVF0 ≤ b ∧ b < Reg.PMC_OVF0 + 4 * 256 then
    (sparseGet (fun _ => (0 : Word)) m.ovf ((b - Reg.PMC_OVF0) / 4)).toNat
  else if b = Reg.WST_STATUS then put 31 16 m.wstFail + put 15 8 (min 255 m.wstStarved) + put 7 4 m.wstFailed + put 3 0 m.wstDone
  else 0

def State.pwrRead (s : State) (b : Nat) : Nat :=
  let w := s.pwr
  let i := s.fld Reg.PWR_GRANT_SEL 3 0
  let t := s.fld Reg.PWR_TEMP_SEL 3 0
  if b = Reg.PWR_ALLOC then put 31 16 s.alloc + put 15 0 s.base
  else if b = Reg.PWR_STATUS then
    put 23 16 w.queue.length + put 15 8 w.grants.length + putB 3 w.thermBad + putB 2 w.overCeil + putB 1 w.hot + putB 0 w.warn
  else if b = Reg.PWR_GRANT then
    let q := w.queue.find? fun r => r.idx == i
    let cost := match q with | some r => r.cost | none => s.grantOf i
    put 31 16 cost + putB 15 q.isSome + putB 14 (decide (0 < s.grantOf i))
  else if b = Reg.PWR_DENY_CNT then put 31 16 w.denied + put 15 0 w.timeouts
  else if b = Reg.PWR_TEMP then putI 31 16 (w.tempMax.getD t 0) + putI 15 0 (w.temps.getD t 0)
  else if b = Reg.PWR_RESET_CAUSE then put 31 16 w.count + put 7 4 w.rail + put 3 0 w.cause
  else if b = Reg.PWR_SUPPLY then put 4 0 w.warned
  else 0

/-- The computed fields of a path register. -/
def State.pathRead (s : State) (p : Path) (b : Nat) : Nat :=
  if b < 0x00440000 then s.cnvRead p b
  else if b < 0x00480000 then s.rxdRead p b
  else if b < 0x004C0000 then s.txdRead p b
  else if b < 0x00500000 then s.trkRead p b
  else if b < 0x00540000 then s.fecRead p b
  else s.lfrRead p b

/-- The computed fields of the register at `off`, as session `ses` reads them. -/
def State.overlay (s : State) (ses off : Nat) : Nat :=
  match blockOf off with
  | 0 => s.topRead off
  | 1 => s.rteRead off
  | 2 => s.mstRead off
  | 3 => s.pathRead .a off
  | 4 => s.pathRead .b (baseOff off)
  | 5 => s.cntRead off
  | 6 => s.cryRead off
  | 7 => (s.truRead off).getD 0
  | 8 => if off = Reg.PKT_TBL_DATA then s.tblRead off else (s.pktRead off).getD 0
  | 9 => s.schOverlay off
  | 10 => s.hsfRead off
  | 11 => s.hslRead off
  | 12 => s.memRead off
  | 13 => if off = Reg.MON_FIR_COEF ∧ !s.copySel off then 0 else s.monRead off
  | 14 => s.ctlRead ses off
  | 15 => s.evtRead off
  | 16 => s.pmcRead off
  | 17 => s.pwrRead off
  | _ => s.pmcRead off

/-- Whether a register's block, or path sub-block, is present (R24, R454). -/
def State.present (s : State) (off : Nat) : Bool :=
  match blockOf off with
  | 3 => s.inst 0
  | 4 => s.inst 1
  | 8 => s.inst 2
  | 9 => s.inst 3
  | 5 => s.rte.active
  | 6 => s.rte.active
  | 10 => s.rte.active
  | 11 => s.rte.active
  | 18 => s.rte.active
  | _ => true

/-- The stored fields of the item that a register addresses; the copy in force where the select names it. -/
def State.storedWord (s : State) (off : Nat) (d : RegDesc) : Word :=
  let b := baseOff off
  let key := regKey off (s.item off)
  let p : Path := if off = b then .a else .b
  let w :=
    if unitHeld b then 0
    else if s.copySel off then
      (if b = Reg.SCH_GATE_DATA then
        s.tblWord (gateTable (pathOf (s.fld Reg.SCH_GATE_SEL 14 14))) (s.fld Reg.SCH_GATE_SEL 13 0)
      else if isCoefOff b then sparseGet regReset (s.path p).txd.coefAct key else 0)
    else if b = Reg.PA_RXD_FE_COEF ∧ s.item off = 0 then setField (sparseGet regReset s.cfg key) 27 16 0
    else sparseGet regReset s.cfg key
  let w := if d.basic ∧ off ∈ s.custom then setField w 3 0 0xF else w
  w &&& storedMask d

/-- What a read of the register at `off` gives (R454): absent and unmapped registers read zero. -/
def State.regWord (s : State) (ses off : Nat) : Word :=
  match regDesc off with
  | some d => if s.present off then s.storedWord off d ||| BitVec.ofNat 32 (s.overlay ses off) else 0
  | none => 0

/-- A read's side effect: the lower words that it latches (R84, R219, R472). -/
def State.readLatch (s : State) (off : Nat) : State :=
  let b := baseOff off
  let p : Path := if off = b then .a else .b
  if !s.present off then s
  else if b = Reg.MST_TIME_SEC_HI then
    { s with mst := { s.mst with latchLo := BitVec.ofNat 32 s.mst.sec, latchNs := BitVec.ofNat 32 s.mst.ns } }
  else if b = Reg.PA_LFR_TX_FC_HI then s.updLfr p fun l => { l with txLatch := BitVec.ofNat 32 s.txFc }
  else if b = Reg.PA_LFR_RX_FC_HI then
    s.updLfr p fun l => { l with rxLatch := if l.inSf then BitVec.ofNat 32 l.expected else 0 }
  else if Reg.PMC_CNT0 ≤ b ∧ b < Reg.PMC_CNT0 + 4 * 8192 then
    let n := (b - Reg.PMC_CNT0) / 4
    if s.pmcUpper n then s
    else
      let up := [1, 2, 3].filter fun i => (List.range i).all fun j => flagOf (s.pmcCfg (n + j)) 31
      let take (m : Sparse Word) (i : Nat) : Sparse Word :=
        sparseSet (fun _ => 0) (n + i) (sparseGet (fun _ => 0) s.pmc.cnt (n + i)) m
      { s with pmc := { s.pmc with latched := up.foldl take s.pmc.latched } }
  else s

/-- Reads a register of BAR0: what it latches, and the word. -/
def State.readReg (s : State) (ses off : Nat) : State × Word := (s.readLatch off, s.regWord ses off)

end Sys2Proof.Machine
end

