-- ==== Sys2Proof/Machine/Profiles.lean ====
section
/-!
DEFINITION. The basic mode words (R10, R11): the unit that a register belongs to, and the fields that each profile of
each unit determines (R102, R107, R134, R155, R174, R192, R218, R250, R280, R345, R365, R395, R418, R444, R494).
-/
namespace Sys2Proof.Machine

/-- One field that a profile sets: register, item, bits and value. -/
structure ProfField where
  off : Nat
  idx : Nat
  hi  : Nat
  lo  : Nat
  val : Nat
  deriving DecidableEq, Repr

/-- The basic mode word of the unit that a register belongs to (R10), for Path A's offsets. -/
def basicWord (b : Nat) : Option Nat :=
  if b < 0x00400000 then none
  else if b < 0x00440000 then some Reg.PA_CNV_BASIC
  else if b < 0x00480000 then some Reg.PA_RXD_BASIC
  else if b < 0x004C0000 then some Reg.PA_TXD_BASIC
  else if b < 0x00500000 then some Reg.PA_TRK_BASIC
  else if b < 0x00540000 then some Reg.PA_FEC_BASIC
  else match blockOf b with
    | 3 => some Reg.PA_LFR_BASIC
    | 5 => some Reg.CNT_BASIC
    | 6 => some Reg.CRY_BASIC
    | 8 => some Reg.PKT_BASIC
    | 9 => some Reg.SCH_BASIC
    | 10 => some Reg.HSF_BASIC
    | 11 => some Reg.HSL_BASIC
    | 12 => some Reg.MEM_BASIC
    | 13 => some Reg.MON_BASIC
    | 17 => some Reg.PWR_BASIC
    | _ => none

/-- The bit of the image's `EXPERT_LOCK` mask that locks the unit of a register (R13, R58). -/
def expertBit (off : Nat) : Option Nat :=
  let b := baseOff off
  let side := if off = b then 0 else 1
  if b < 0x00400000 then (if blockOf b = 2 then some 20 else none)
  else if b < 0x00800000 then
    some (side + 2 * (if b < 0x00440000 then 0 else if b < 0x00480000 then 1 else if b < 0x004C0000 then 2
      else if b < 0x00500000 then 3 else if b < 0x00540000 then 4 else 5))
  else match blockOf b with
    | 5 => some 12
    | 6 => some 13
    | 8 => some 14
    | 9 => some 15
    | 10 => some 16
    | 11 => some 17
    | 12 => some 18
    | 13 => some 19
    | 14 => some 25
    | 15 => some 24
    | 16 => some 23
    | 17 => some 21
    | 18 => some 22
    | _ => none

/-! ### The paths' units -/

/-- The swing of all four DACs, and the values of profiles 0 and 1 (R101, R102). -/
def State.cnvProfile (s : State) (p : Path) (prof mv : Nat) : List ProfField :=
  let good := prof == 0 && s.tru.cnvRecordOk
  (List.range 4).flatMap fun d =>
    let dac := if good then s.tru.word (17 + 4 * pathNum p + d) else 0
    [⟨Reg.PA_CNV_DAC_TRIM, d, 27, 16, bitsOf dac 59 48⟩, ⟨Reg.PA_CNV_DAC_TRIM, d, 15, 10, (mv - 300) / 10⟩,
     ⟨Reg.PA_CNV_DAC_TRIM, d, 9, 0, bitsOf dac 41 32⟩,
     ⟨Reg.PA_CNV_DAC_TAP0, d, 25, 16, 256⟩, ⟨Reg.PA_CNV_DAC_TAP0, d, 9, 0, bitsOf dac 25 16⟩,
     ⟨Reg.PA_CNV_DAC_TAP0 + 4, d, 25, 16, 0⟩, ⟨Reg.PA_CNV_DAC_TAP0 + 4, d, 9, 0, bitsOf dac 9 0⟩,
     ⟨Reg.PA_CNV_DAC_TAP0 + 8, d, 25, 16, 0⟩, ⟨Reg.PA_CNV_DAC_TAP0 + 8, d, 9, 0, 0⟩,
     ⟨Reg.PA_CNV_DAC_TAP0 + 12, d, 25, 16, 0⟩, ⟨Reg.PA_CNV_DAC_TAP0 + 12, d, 9, 0, 0⟩]

/-- R134. -/
def rxdProfile (prof : Nat) : List ProfField :=
  let go (avg load win mu half dd slew scale : Nat) : List ProfField :=
    [⟨Reg.PA_RXD_FDE_CTRL, 0, 18, 16, avg⟩, ⟨Reg.PA_RXD_FDE_CTRL, 0, 15, 0, load⟩,
     ⟨Reg.PA_RXD_POL_CTRL, 0, 12, 8, win⟩, ⟨Reg.PA_RXD_POL_CTRL, 0, 3, 0, mu⟩,
     ⟨Reg.PA_RXD_CPR_CTRL, 0, 6, 0, half⟩, ⟨Reg.PA_RXD_CPR_CTRL, 0, 8, 8, dd⟩,
     ⟨Reg.PA_RXD_AGC, 0, 15, 8, slew⟩, ⟨Reg.PA_RXD_DEMAP_CTRL, 0, 1, 0, scale⟩]
  match prof with
  | 0 => go 2 0x0100 8 4 32 1 32 2
  | 1 => go 1 0x0100 2 2 32 1 32 2
  | 2 => go 2 0x0100 8 4 8 1 32 2
  | _ => go 4 0x0400 16 5 64 1 32 1

/-- R155. -/
def txdProfile (prof : Nat) : List ProfField :=
  let shape := match prof with | 0 => (16, 512) | 1 => (4, 512) | 2 => (32, 512) | _ => (16, 448)
  let gains := (List.range 4).map fun n => (⟨Reg.PA_TXD_TRK_PWR0 + 4 * n, 0, 31, 0, 0⟩ : ProfField)
  let mask := (List.range 256).map fun n => (⟨Reg.PA_TXD_MASK, n, 11, 0, 1024⟩ : ProfField)
  let pcf := (List.range 128).map fun n =>
    (⟨Reg.PA_TXD_PCF, n, 11, 0, if n % 32 = 15 then 1024 else 0⟩ : ProfField)
  [⟨Reg.PA_TXD_SHAPE, 0, 5, 0, shape.1⟩, ⟨Reg.PA_TXD_SHAPE, 0, 27, 16, shape.2⟩] ++ gains ++ mask ++ pcf

/-- R174. -/
def trkProfile (prof : Nat) : List ProfField :=
  let x := match prof with | 0 => (0, 1024, 64) | 1 => (1, 1024, 64) | _ => (1, 8192, 96)
  [⟨Reg.PA_TRK_LEV_CTRL, 0, 0, 0, x.1⟩, ⟨Reg.PA_TRK_LEV_CTRL, 0, 1, 1, x.1⟩,
   ⟨Reg.PA_TRK_LEV_CTRL, 0, 31, 16, x.2.1⟩, ⟨Reg.PA_TRK_LEV_CTRL, 0, 15, 8, x.2.2⟩, ⟨Reg.PA_TRK_LEV_CTRL, 0, 7, 4, 6⟩]

/-- R192. -/
def fecProfile (prof : Nat) : List ProfField :=
  let x := match prof with | 0 => (0, 16, 16) | 1 => (1, 16, 16) | _ => (1, 64, 4)
  [⟨Reg.PA_FEC_CTRL, 0, 0, 0, x.1⟩, ⟨Reg.PA_FEC_LOOP, 0, 31, 16, x.2.1⟩, ⟨Reg.PA_FEC_LOOP, 0, 7, 0, x.2.2⟩,
   ⟨Reg.PA_FEC_CTRL, 0, 11, 8, 12⟩]

/-- R218. -/
def lfrProfile (prof : Nat) : List ProfField :=
  let x := match prof with | 0 => (0, 0, 7, 9766, 0) | 1 => (3, 1, 7, 9766, 0) | _ => (0, 0, 3, 977, 26214)
  [⟨Reg.PA_LFR_CTRL, 0, 11, 9, x.1⟩, ⟨Reg.PA_LFR_CTRL, 0, 8, 8, x.2.1⟩, ⟨Reg.PA_LFR_CTRL, 0, 2, 2, 1⟩,
   ⟨Reg.PA_LFR_DEG_CTRL, 0, 27, 24, x.2.2.1⟩, ⟨Reg.PA_LFR_DEG_CTRL, 0, 19, 0, x.2.2.2.1⟩,
   ⟨Reg.PA_LFR_DEG_BER, 0, 19, 0, x.2.2.2.2⟩]

/-! ### The device's units -/

/-- R250: in every container of both paths. -/
def cntProfile (prof : Nat) : List ProfField :=
  let x := match prof with | 0 => (0, 0, 64) | 1 => (3, 1, 64) | _ => (0, 0, 16)
  (⟨Reg.CNT_CTRL, 0, 15, 8, x.2.2⟩ : ProfField) :: (List.range 512).flatMap fun n =>
    [⟨Reg.CNT_C_CTRL, n, 2, 0, x.1⟩, ⟨Reg.CNT_C_CTRL, n, 6, 6, x.2.1⟩, ⟨Reg.CNT_C_CTRL, n, 5, 5, 1⟩]

/-- R280: in both paths, and in every container. -/
def cryProfile (prof : Nat) : List ProfField :=
  let x := match prof with | 0 => (32, 0, 500, 1) | 1 => (32, 1, 500, 1) | 2 => (28, 1, 500, 1) | _ => (32, 0, 2000, 4)
  ((List.range 2).flatMap fun n =>
    [(⟨Reg.CRY_POLICY, n, 5, 0, x.1⟩ : ProfField), ⟨Reg.CRY_POLICY, n, 8, 8, x.2.1⟩,
     ⟨Reg.CRY_POLICY, n, 31, 16, x.2.2.1⟩, ⟨Reg.CRY_POLICY, n, 15, 12, x.2.2.2⟩])
  ++ (List.range 512).map fun n => ⟨Reg.CRY_C_CTRL, n, 0, 0, 1⟩

/-- R345. -/
def pktProfile (prof : Nat) : List ProfField :=
  let x := match prof with | 0 => (64, 0, 0) | 1 => (64, 0, 1) | 2 => (64, 1, 0) | _ => (160, 0, 0)
  [⟨Reg.PKT_CTRL, 0, 15, 8, x.1⟩, ⟨Reg.PKT_CTRL, 0, 1, 1, x.2.1⟩, ⟨Reg.PKT_CTRL, 0, 2, 2, x.2.2⟩]

/-- R365. -/
def schProfile (prof : Nat) : List ProfField :=
  [⟨Reg.SCH_CTRL, 0, 31, 16, match prof with | 0 => 1000 | 1 => 100 | _ => 0⟩]

/-- R395. -/
def hsfProfile (prof : Nat) : List ProfField :=
  let x := match prof with | 0 => (1, 1) | 1 => (0, 1) | _ => (0, 3)
  (List.range 32).flatMap fun n => [⟨Reg.HSF_PORT_CTRL, n, 9, 8, x.1⟩, ⟨Reg.HSF_PORT_CTRL, n, 6, 4, x.2⟩]

def hslProfile (prof : Nat) : List ProfField :=
  (List.range 16).map fun n => ⟨Reg.HSL_LANE_CTRL, n, 15, 8, if prof = 0 then 16 else 64⟩

/-- R418. -/
def memProfile (prof : Nat) : List ProfField :=
  let x := match prof with | 0 => (1, 60) | 1 => (1, 10) | 2 => (1, 3600) | _ => (0, 60)
  [⟨Reg.MEM_SCRUB_CTRL, 0, 31, 31, x.1⟩, ⟨Reg.MEM_SCRUB_CTRL, 0, 16, 0, x.2⟩]

/-- R444: for both paths. -/
def monProfile (prof : Nat) : List ProfField :=
  let x := match prof with
    | 0 => (0, 50, 64, 64, 20000, 4) | 1 => (1, 50, 64, 64, 20000, 4) | _ => (1, 500, 32, 16, 60000, 5)
  (List.range 2).flatMap fun p =>
    [(⟨Reg.MON_DITH0, p, 21, 12, x.2.1⟩ : ProfField), ⟨Reg.MON_DITH0, p, 9, 0, x.2.2.1⟩,
     ⟨Reg.MON_DITH1, p, 12, 0, x.2.2.2.1⟩, ⟨Reg.MON_DITH1, p, 31, 16, x.2.2.2.2.1⟩]
    ++ (List.range 6).flatMap fun i =>
      [⟨Reg.MON_LOOP_CTRL, 8 * p + i, 15, 15, x.1⟩, ⟨Reg.MON_LOOP_CTRL, 8 * p + i, 11, 8, x.2.2.2.2.2⟩]

/-- R494. -/
def pwrProfile (prof : Nat) : List ProfField :=
  let x := match prof with | 0 => (100, 30, 120, 130) | 1 => (100, 50, 115, 125) | _ => (1000, 30, 120, 130)
  [⟨Reg.PWR_CTRL, 0, 13, 0, x.1⟩, ⟨Reg.PWR_CTRL, 0, 23, 16, x.2.1⟩, ⟨Reg.PWR_THERM, 0, 15, 8, x.2.2.1⟩,
   ⟨Reg.PWR_THERM, 0, 23, 16, x.2.2.2⟩]

/-- The fields that a write of `w` to the basic mode word at `off` determines, with their offsets on its path. -/
def State.profFields (s : State) (off : Nat) (w : Word) : List ProfField :=
  let b := baseOff off
  let p : Path := if off = b then .a else .b
  let prof := fieldOf w 3 0
  let here (l : List ProfField) : List ProfField := l.map fun f => { f with off := f.off + (off - b) }
  if b = Reg.PA_CNV_BASIC then here (s.cnvProfile p prof (fieldOf w 25 16))
  else if b = Reg.PA_RXD_BASIC then here (rxdProfile prof)
  else if b = Reg.PA_TXD_BASIC then here (txdProfile prof)
  else if b = Reg.PA_TRK_BASIC then here (trkProfile prof)
  else if b = Reg.PA_FEC_BASIC then here (fecProfile prof)
  else if b = Reg.PA_LFR_BASIC then here (lfrProfile prof)
  else if b = Reg.CNT_BASIC then cntProfile prof
  else if b = Reg.CRY_BASIC then cryProfile prof
  else if b = Reg.PKT_BASIC then pktProfile prof
  else if b = Reg.SCH_BASIC then schProfile prof
  else if b = Reg.HSF_BASIC then hsfProfile prof
  else if b = Reg.HSL_BASIC then hslProfile prof
  else if b = Reg.MEM_BASIC then memProfile prof
  else if b = Reg.MON_BASIC then monProfile prof
  else if b = Reg.PWR_BASIC then pwrProfile prof
  else []

end Sys2Proof.Machine
end

