-- ==== Sys2Proof/Machine/Reset.lean ====
section
/-!
DEFINITION. Resets of the device, what survives them, the release of reset and boot (R482 to R484, R489 to R493), the
thermal states (R490, R491), and the loss of a reference (R29).
-/
namespace Sys2Proof.Machine

/-! ### Device reset (R483) -/

/-- What an interrupted store leaves in its slot (R47). -/
def State.storeEnds (s : State) : State := match s.rte.op with | some (.store b) => s.storeCut b | _ => s

/-- The time source and the ceiling that reset takes from the boot profile (R483, R489); what `CEILING` holds of a ceiling
that does not fit its nine bits is free (log 92). -/
def State.fromProfile (s : State) : State :=
  let f := s.tru.profile
  let ceil := if f.ceil < 512 then f.ceil else Config.freeNat s.freeCtr 489 % 512
  let s := (s.setFld Reg.MST_TIME_CTRL 1 0 f.time).setFld Reg.PWR_CEILING 8 0 ceil
  { s with mst := { s.mst with time := if s.disciplined then .acquiring else .free } }

/-- A device reset with its cause. What survives: OTP and flash with what an interrupted commit or store leaves there,
the reset record, `NEXT_BOOT` except at power-on, the levels of the pins, and the holds that keep the device in reset. -/
def State.deviceReset (s : State) (cause : Nat) : State :=
  let on := decide (cause = 1)
  let o := s.storeEnds
  let r := State.reset
  let pwr := { r.pwr with
    lineRef := o.pwr.lineRef, hostRef := o.pwr.hostRef, sysRef := o.pwr.sysRef
    pinHold := o.pwr.pinHold, tripHold := o.pwr.tripHold && !on, swHold := o.pwr.swHold && !on
    cause := cause, count := if on then 0 else wrapTo 16 (o.pwr.count + 1), rail := if on then 0 else o.pwr.rail }
  { r with
    pending := s.pending, freeCtr := s.freeCtr, out := s.out
    tru := { r.tru with otp := (s.tru.cut s.freeCtr).otp }
    rte := { r.rte with slotA := o.rte.slotA, slotB := o.rte.slotB, flashSize := o.rte.flashSize, nextBoot := if on then 0 else o.rte.nextBoot }
    evt := { r.evt with sectors := s.evt.sectors }
    hsl := { r.hsl with vddRing := s.hsl.vddRing }
    ctl := { r.ctl with pcieUp := s.ctl.pcieUp && !on }
    pwr := pwr } |>.fromProfile

def State.updPwr (s : State) (f : PwrState → PwrState) : State := { s with pwr := f s.pwr }

/-- A reset that a pin, a supply or a reference holds. -/
def State.pinReset (s : State) (cause : Nat) : State := (s.updPwr fun w => { w with pinHold := true }).deviceReset cause

/-- `POWER_ON`. -/
def execPowerOn : State → Host.Outcome State Fault Refusal := completeAlways fun s => s.pinReset 1

/-- `RESET_N_LOW`. -/
def execResetNLow : State → Host.Outcome State Fault Refusal := completeAlways fun s => s.pinReset 2

/-- `SYSTEM_REFERENCE_LOST`: as if `RESET_N` were asserted, with its own code (R29, R483). -/
def execSystemReferenceLost : State → Host.Outcome State Fault Refusal :=
  completeAlways fun s => (s.updPwr fun w => { w with sysRef := false }).pinReset 3

/-- `SUPPLY_RESET`: a detector sees its rail below 88 % (R484). There are five rails. -/
def execSupplyReset (rail : BitVec 4) : State → Host.Outcome State Fault Refusal :=
  completeAlways fun s =>
    if 5 ≤ rail.toNat then s else (s.updPwr fun w => { w with rail := rail.toNat }).pinReset 4

/-- `SUPPLY_WARNING` (R484). -/
def execSupplyWarning (rail : BitVec 4) : State → Host.Outcome State Fault Refusal :=
  complete fun s =>
    let n := rail.toNat
    if 5 ≤ n then s
    else (s.updPwr fun w => { w with warned := w.warned ||| 2 ^ n }).raiseItem 294 0 n n 0

/-- The accepted write of 0xA5 to `PWR_SW_RESET`. -/
def State.softReset (s : State) : State := (s.updPwr fun w => { w with swHold := true }).deviceReset 6

/-! ### The release of reset (R482, R492) -/

/-- The device leaves reset when nothing holds it there any more: boot begins, and the load that the boot profile asks
for (R48, R493). -/
def State.leaveReset (s : State) : State :=
  if s.pwr.pinHold || s.pwr.tripHold || s.pwr.swHold || !s.pwr.inReset then s
  else
    let s := (s.updPwr fun w => { w with inReset := false }).overCheck
    let src := s.tru.profile.src
    if src = 3 then s else s.rteOp (.load src)

/-- `RESET_RELEASE`: `RESET_N` is high, every rail in range and every reference running. -/
def execResetRelease : State → Host.Outcome State Fault Refusal :=
  completeAlways fun s =>
    let s := s.updPwr fun w => { w with pinHold := false, lineRef := true, hostRef := true, sysRef := true }
    ({ s with hsl := { s.hsl with vddRing := true } }).leaveReset

/-- `SW_RESET_HOLD_END`: the 10 us of a software reset are over. -/
def execSwResetHoldEnd : State → Host.Outcome State Fault Refusal :=
  completeAlways fun s => (s.updPwr fun w => { w with swHold := false }).leaveReset

/-- `TRIP_HOLD_END`: the 1 s of a thermal trip is over. -/
def execTripHoldEnd : State → Host.Outcome State Fault Refusal :=
  completeAlways fun s => (s.updPwr fun w => { w with tripHold := false }).leaveReset

/-! ### Thermal states (R490, R491) -/

/-- A threshold of `PWR_THERM` in 1/64 degC: 8 `WARN`, 16 `HOT`, 24 `TRIP`. -/
def State.thermAt (s : State) (lo : Nat) : Int := ((s.fld Reg.PWR_THERM (lo + 7) lo * 64 : Nat) : Int)

/-- A state with 5 degC of hysteresis. -/
def hysteresis (was : Bool) (t thr : Int) : Bool := if was then decide (thr - 320 ≤ t) else decide (thr ≤ t)

/-- The decoders that hold more than 12 iterations are asked to return the excess. -/
def State.askExcess (s : State) : State :=
  let ask (p : Path) (b : BitVec 2) : BitVec 2 :=
    if 12 * (s.rxModeOf p).iterCost < (s.fec p).gd then b ||| (1#2 <<< pathNum p) else b
  s.updPwr fun w => { w with excess := ask .b (ask .a w.excess) }

/-- The readings of the sensors, of which there are 12. -/
def PwrState.takeTemps (w : PwrState) (raw : List Int) : PwrState :=
  let t := (List.range 12).map fun i => raw.getD i 0 + w.thermOff.getD i 0
  { w with temps := t, temp1s := List.zipWith max w.temp1s t }

/-- `THERMAL_READING`: the grid runs on through resets; in reset the states are judged without events (log 78). -/
def execThermalReading (raw : List Int) : State → Host.Outcome State Fault Refusal :=
  completeAlways fun s =>
    let s := s.updPwr fun w => w.takeTemps raw
    let top := s.pwr.temps.foldl max (s.pwr.temps.headD 0)
    let run := if s.thermAt 24 ≤ top then s.pwr.tripRun + 1 else 0
    if 3 ≤ run then (s.updPwr fun w => { w with tripHold := true }).deviceReset 5
    else
      let wasW := s.pwr.warn
      let wasH := s.pwr.hot
      let warn := hysteresis wasW top (s.thermAt 8)
      let hot := hysteresis wasH top (s.thermAt 16)
      let s := s.updPwr fun w => { w with tripRun := run, warn := warn, hot := hot }
      let t := toField 16 top
      let tell (s : State) (src : Nat) (was now : Bool) : State :=
        if was == now || s.pwr.inReset then s else s.raise src 0 0 (if now then t else cleared t) 0
      let s := tell (tell s 290 wasW warn) 291 wasH hot
      let s := if wasH == hot || s.pwr.inReset then s else s.ceilingChanged
      if hot && !wasH then s.askExcess else s

/-! ### The line reference (R29) -/

/-- The receive DSP follows its converter side to off (R110); the transmit DSP does so at the next frame boundary
(R154). -/
def State.dspFollow (s : State) (p : Path) : State :=
  let s := if s.rxdOn p ∨ (s.path p).rxd.acq = 0 then s else s.rxdOff p
  if s.rxdOn p then s else (s.lfrUnlocked p).lfrMonitor p

/-- `LINE_REFERENCE_LOST`. -/
def execLineReferenceLost : State → Host.Outcome State Fault Refusal :=
  completeAlways fun s =>
    if !s.pwr.lineRef then s
    else
      let s := s.updPwr fun w => { w with lineRef := false }
      if s.pwr.inReset then s
      else
        let s := [Path.a, Path.b].foldl (fun s p => if s.pathUp p then (s.lineLost p).dspFollow p else s) s
        s.raise 295 1 0 0 0

/-- `LINE_REFERENCE_PRESENT`. -/
def execLineReferencePresent : State → Host.Outcome State Fault Refusal :=
  completeAlways fun s =>
    if s.pwr.lineRef then s
    else
      let s := s.updPwr fun w => { w with lineRef := true }
      if s.pwr.inReset then s else s.raise 295 2 0 0 0

end Sys2Proof.Machine
end

