-- ==== Sys2Proof/Machine/Dumps.lean ====
section
/-!
DEFINITION. Periodic dumps (R474 to R476): the snapshot that a milestone second boundary takes, and its completion.
-/
namespace Sys2Proof.Machine

/-- An entry of the register image: offset, the value that selects the item, and the register's value (R475). -/
def dumpEntry (off sel : Nat) (w : Word) : Bytes := beBytes 4 off ++ beBytes 4 sel ++ beBytes 4 w.toNat

/-- Entries of the registers at `offs` for every select value in `sels`; `selReg` holds the select value. -/
def State.dumpGroup (s : State) (selReg : Nat) (offs sels : List Nat) : List Bytes :=
  offs.flatMap fun off => sels.map fun v =>
    dumpEntry off v ((s.setReg selReg (BitVec.ofNat 32 v)).regWord 0 off)

/-- Entries of registers without a select. -/
def State.dumpPlain (s : State) (offs : List Nat) : List Bytes := offs.map fun off => dumpEntry off 0 (s.regWord 0 off)

/-- Offsets of `n` registers from `off`. -/
def offsets (off n : Nat) : List Nat := (List.range n).map fun i => off + 4 * i

/-- The paths that are instantiated. -/
def State.paths (s : State) : List Path := [Path.a, Path.b].filter fun p => s.pathUp p

/-- The statistics of a path that are latched at the boundary (R133, R188). -/
def State.dumpStats (s : State) (p : Path) : List Bytes :=
  let tracks := List.range (s.rxModeOf p).trackCount
  s.dumpPlain (offsets (pathReg p Reg.PA_RXD_STAT_LATCH) 8)
    ++ s.dumpGroup (pathReg p Reg.PA_RXD_SNR_SEL) [pathReg p Reg.PA_RXD_SNR] (tracks ++ tracks.map (· + 16))
    ++ s.dumpPlain (offsets (pathReg p Reg.PA_FEC_STAT_LATCH) 8)

/-- The defect state and the performance counters of a path. -/
def State.dumpPm (s : State) (p : Path) : List Bytes :=
  s.dumpPlain [pathReg p Reg.PA_LFR_STATUS]
    ++ s.dumpGroup (pathReg p Reg.PA_LFR_PM_SEL) (offsets (pathReg p Reg.PA_LFR_PM_ES) 3) [0, 1]

/-- The select values of the containers of a path. -/
def State.contSels (s : State) (p : Path) : List Nat :=
  ((List.range 256).filter fun c => (s.contsOf p).contains c).map fun c => 256 * pathNum p + c

/-- The legacy lanes that a connection names (R39). -/
def ImageCfg.laneEnds (c : ImageCfg) : List Nat :=
  (List.range 16).filter fun l => c.conns.any fun x => x.ends.any fun e => e.typ == 1 && e.num == l

/-- The register image (R475). -/
def State.dumpImage (s : State) : List Bytes :=
  let conts := s.paths.flatMap s.contSels
  let enc := s.paths.filter fun p => s.encrypted p
  let queues := if s.inst 3 then (List.range 8192).filter fun q => (s.queueEnt q).enabled else []
  s.paths.flatMap s.dumpStats
    ++ (if s.inst 2 then s.dumpPlain (offsets Reg.PKT_ST_LATCH 6) else [])
    ++ s.paths.flatMap s.dumpPm
    ++ s.dumpGroup Reg.CNT_C_SEL [Reg.CNT_C_STATUS, Reg.CNT_C_CNT0, Reg.CNT_C_CNT1] conts
    ++ s.dumpGroup Reg.CRY_PATH_SEL [Reg.CRY_EPOCH, Reg.CRY_KEY_AGE] (enc.map pathNum)
    ++ s.dumpGroup Reg.CRY_C_SEL [Reg.CRY_C_STATUS, Reg.CRY_C_AUTH] (enc.flatMap s.contSels)
    ++ s.dumpGroup Reg.CNT_SLIP_SEL [Reg.CNT_SLIP] s.rte.cfg.laneEnds
    ++ s.dumpGroup Reg.SCH_Q_SEL [Reg.SCH_Q_DEPTH, Reg.SCH_Q_SOJ] queues

/-- The device counters and the overflow map. -/
def State.dumpCounters (s : State) : List Bytes :=
  let words (m : Sparse Word) (n : Nat) : List Bytes := (sparseGetList (fun _ => (0 : Word)) m 0 n).map fun w => beBytes 4 w.toNat
  words s.pmc.cnt 8192 ++ words s.pmc.ovf 256

/-- The place that an index of the signature array stands for. -/
def placeAt (i : Nat) : Place := (i / 524288, i / 4 % 131072, i % 4)

/-- The packet and byte counts of the context at a place: from its cache line, or from the memory die, where an
uncorrectable context gives none (R476). -/
def State.flowCounts (s : State) (x : Place) : Option (Nat × Nat) :=
  match s.pkt.cache.findSome? fun e => e.2.find? fun l => l.place == x with
  | some l => some (l.pkts, l.bytes)
  | none =>
    if (s.mem.firstBad s.freeCtr (ctxAddr x) 64).isSome then none
    else
      let b := s.mem.readBytes s.freeCtr (ctxAddr x) 64
      some (beAt b 48 5, beAt b 53 7)

/-- The entry of a context in the flow counter section, and whether it reads uncorrectable. -/
def State.flowEntry (s : State) (x : Place) : Bytes × Bool :=
  let head := beBytes 1 x.1 ++ beBytes 1 x.2.2 ++ beBytes 4 x.2.1 ++ beBytes 2 0
  match s.flowCounts x with
  | some (pk, by_) => (head ++ beBytes 8 pk ++ beBytes 8 by_, false)
  | none => (head ++ List.replicate 16 (0xFF : Byte), true)

/-- Rounds up to a multiple of 8. -/
def align8 (n : Nat) : Nat := ceilDiv n 8 * 8

/-- Whole entries that fit from `off` on in a buffer of `limit` bytes. -/
def takeFit (limit : Nat) : Nat → List Bytes → Bytes
  | _, [] => []
  | off, e :: es => if off + e.length ≤ limit then e ++ takeFit limit (off + e.length) es else []

/-- The sections one after the other from `off`: the directory entries, the bytes, and whether an entry was cut. -/
def laySections (limit : Nat) : Nat → List (Nat × List Bytes) → Bytes × Bytes × Bool
  | _, [] => ([], [], false)
  | off, (typ, es) :: rest =>
    let data := takeFit limit off es
    let padded := padTo (align8 data.length) data
    let (dir, body, cut) := laySections limit (off + padded.length) rest
    (beBytes 2 typ ++ beBytes 2 0 ++ beBytes 4 off ++ beBytes 4 data.length ++ beBytes 4 (crc32 data) ++ dir,
      padded ++ body, cut || decide (data.length < (es.map (·.length)).sum))

/-- Size of a dump buffer in bytes. -/
def State.dumpSize (s : State) : Nat := s.fld Reg.PMC_DUMP_BUF 23 0 * 4096

/-- The dump of a snapshot at second `sec`, with the uncorrectable contexts that it met (R475). -/
def State.dumpBytes (s : State) (sec : Nat) : DumpJob :=
  let flows : List (Bytes × Bool) :=
    if flagOf (s.reg Reg.PMC_DUMP_CTRL) 30 then s.pkt.sig.map fun e => s.flowEntry (placeAt e.1) else []
  let sections : List (Nat × List Bytes) :=
    [(1, s.dumpCounters), (2, s.dumpImage)]
      ++ (if flagOf (s.reg Reg.PMC_DUMP_CTRL) 30 then [(3, flows.map fun e => e.1)] else [])
  let n := sections.length
  let (dir, body, cut) := laySections s.dumpSize (align8 (64 + 16 * n)) sections
  let total := align8 (64 + 16 * n) + body.length
  let head := ascii "ADMP" ++ beBytes 2 1 ++ beBytes 1 n ++ beBytes 1 (b2n cut + 2 * b2n (flows.any fun e => e.2))
    ++ beBytes 4 s.pmc.dumpNum ++ beBytes 6 sec ++ beBytes 4 s.evt.seq.toNat ++ beBytes 4 total
    ++ List.replicate 34 (0 : Byte)
  ⟨head ++ beBytes 4 (crc32 head) ++ padTo (align8 (16 * n)) dir ++ body, cut⟩

def State.dumpEn (s : State) : Bool := flagOf (s.reg Reg.PMC_DUMP_CTRL) 31

/-- The dump reads the context at a place: its line in the cache, or else the memory die (R403, R476). -/
def State.dumpRead (s : State) (x : Place) : State :=
  match s.pkt.cache.findSome? fun e => e.2.find? fun l => l.place == x with
  | none => s.noteRead 4 (ctxAddr x) 64
  | some l => match s.cacheFind l.key with
    | (s, some _) => s
    | (s, none) => s.noteRead 4 (ctxAddr x) 64

/-- A snapshot at a milestone second boundary, or a skipped one (R474). -/
def State.dumpSecond (s : State) (sec : Nat) : State :=
  let m := s.pmc
  let count := s.fld Reg.PMC_DUMP_BUF 31 24 + 1
  if !s.dumpEn ∨ sec % max 1 (s.fld Reg.PMC_DUMP_CTRL 15 0) ≠ 0 then s
  else if m.job.isSome ∨ (m.dev + 1) % count = s.fld Reg.PMC_DUMP_PTR 7 0 then
    ({ s with pmc := { m with missed := satTo 8 (m.missed + 1) } }).raise 303 3 0 0 0
  else
    let s := if flagOf (s.reg Reg.PMC_DUMP_CTRL) 30 then
        s.pkt.sig.foldl (fun s e => s.dumpRead (placeAt e.1)) s
      else s
    { s with pmc := { m with job := some (s.dumpBytes sec), dumpNum := wrapTo 32 (m.dumpNum + 1) } }

/-- Address of the buffer that the device fills. -/
def State.dumpAddr (s : State) : Nat :=
  (s.reg Reg.PMC_DUMP_BASE_HI).toNat * 2 ^ 32 + (s.reg Reg.PMC_DUMP_BASE_LO).toNat + s.pmc.dev * s.dumpSize

/-- `DUMP_WRITTEN`: the dump and, last, its header are in host memory (R474). -/
def execDumpWritten : State → Host.Outcome State Fault Refusal :=
  complete fun s =>
    match s.pmc.job with
    | none => s
    | some j =>
      let m := s.pmc
      let count := s.fld Reg.PMC_DUMP_BUF 31 24 + 1
      let s := (s.emit (.dma (s.dumpAddr + 64) (j.bytes.drop 64))).emit (.dma s.dumpAddr (j.bytes.take 64))
      let m := { m with job := none, dumps := wrapTo 16 (m.dumps + 1), dev := (m.dev + 1) % count
                        trunc := if j.cut then satTo 8 (m.trunc + 1) else m.trunc }
      let s := { s with pmc := m }
      if flagOf (s.reg Reg.PMC_DUMP_VEC) 6 then s.signal (s.fld Reg.PMC_DUMP_VEC 5 0) else s

end Sys2Proof.Machine
end

