-- ==== Sys2Proof/Machine/Seconds.lean ====
section
/-!
DEFINITION. The milestone second boundary and everything that acts at it (R519), steps of milestone time (R65, R76), and
the markers and messages that discipline it (R61 to R64, R391).
-/
namespace Sys2Proof.Machine

/-! ### The second boundary -/

/-- What is measured over a second that a step ends: not stated (log 77). -/
def freeObs (ctr i : Nat) : SecondObs :=
  let f (k : Nat) : Nat := Config.freeNat ctr (5190 + 16 * i + k)
  { dgdMean := f 3, dgdPeak := f 4, pdl := f 5, sop := f 6 }

/-- The units of a path at a second boundary; `ended` is the second that ends. -/
def State.pathSecond (s : State) (p : Path) (ended : Nat) (o : SecondObs) : State :=
  if s.pathUp p then
    let secLo := s.mst.sec % 2 ^ 32
    ((s.rxdSecond p o secLo).fecSecond p secLo).lfrSecond p ended
  else s

/-- Temperatures: the highest reading of the second that ends (R495). -/
def PwrState.second (w : PwrState) : PwrState :=
  let top (i : Nat) : Int :=
    let t := w.temp1s.getD i (-32768)
    if t = -32768 then w.temps.getD i 0 else t
  { w with tempMax := (List.range 12).map top, temp1s := List.replicate 12 (-32768) }

/-- A milestone second boundary (R519): counts are latched, the limits and quotas of a second start again, and the
snapshots and tests of the new second start. -/
def State.secondBoundary (s : State) (ended : Nat) (oA oB : SecondObs) (use : List Nat) (cap : Nat) : State :=
  let m := s.mst
  let s := { s with
    evt := { s.evt with raised := [], spillFlush := decide (s.evt.spill ≠ []) }
    mst := { m with perSum := 0, perCnt := 0, period := if m.perCnt = 0 then m.period else (m.perSum, m.perCnt) }
    pwr := s.pwr.second
    tru := { (if s.tru.br.isSome then s.reseed else s).tru with rngFails := 0 } }
  let s := (s.pathSecond .a ended oA).pathSecond .b ended oB
  let s := if s.inst 2 then s.pktSecond (s.mst.sec % 2 ^ 32) else s
  let s := if s.inst 3 then s.schSecond else s
  let s := ((s.lanesSecond).memSecond use cap).ringSecond
  (s.dumpSecond s.mst.sec).waysideSecond s.mst.sec

/-- `MILESTONE_SECOND`: milestone time reaches the next second (R519). -/
def execMilestoneSecond (obsA obsB : SecondObs) (arbUse : List Nat) (cap : Nat) :
    State → Host.Outcome State Fault Refusal :=
  complete fun s =>
    let t := (s.mst.sec + 1) * 1000000000 * oneNs
    let d := t - s.nowFine
    let up := if s.boundaryTime + s.frameAdvance < t then s.upNs + d / oneNs else s.upNs
    let ended := s.mst.sec
    ({ s.setNow t with phase := s.phase + d, upNs := up }).secondBoundary ended obsA obsB arbUse cap

/-! ### Steps (R65, R76) -/

/-- Entries whose fixing moment a step has passed: an entry less than 64 superframes ahead is fixed late. -/
def State.refix (s : State) (e : QEntry) : State :=
  let open' (p : Path) : Bool := (e.part p).inScope && (e.part p).target.isNone
  if e.withdrawn ∨ !(open' .a || open' .b) ∨ s.now + superframes128 < e.time then s
  else if e.time < s.now + superframes64 then
    let f := s.targetFor (s.nowFine + superframes64 * oneNs)
    let s := if open' .a then s.fixAt .a e.handle f else s
    let s := if open' .b then s.fixAt .b e.handle f else s
    s.raise 301 2 0 e.handle e.kinds.toNat
  else
    let s := if open' .a then s.fixEntry .a e.handle else s
    if open' .b then s.fixEntry .b e.handle else s

/-- The counter steps to `t`, in 2^-32 ns. -/
def State.stepTo (s : State) (t : Nat) : State :=
  let was := s.mst.sec
  let forward := decide (s.nowFine < t)
  let s := s.setNow t
  let s := { s with phase := min s.phase s.nowFine, mst := { s.mst with stepped := true, slew := 0 } }
  let s := s.raise 300 0 0 0 0
  let s := if forward then s.mst.queue.foldl (fun s e => s.refix e) s else s
  if s.mst.sec = was then s
  else s.secondBoundary was (freeObs s.freeCtr 0) (freeObs s.freeCtr 1)
    ((List.range 8).map fun i => Config.freeNat s.freeCtr (5400 + i)) (Config.freeNat s.freeCtr 5408)

/-- `SET`: the counter takes the value of `MST_SET_*`; the host source is locked from then on (R64, R65). -/
def State.setTime (s : State) : State :=
  let sec := s.fld Reg.MST_SET_SEC_HI 15 0 * 2 ^ 32 + (s.reg Reg.MST_SET_SEC_LO).toNat
  let s := s.stepTo ((sec * 1000000000 + (s.reg Reg.MST_SET_NS).toNat) * oneNs)
  if s.timeSrc = 3 then s.setTimeState .locked else s

/-! ### Markers and messages -/

/-- A qualified second in `LOCKED` disciplines the counter: the offset at the marker is slewed, and the rate changes by
what would have avoided it (log 102). -/
def State.discipline (s : State) (off : Int) : State :=
  { s with mst := { s.mst with slew := off, rate := s.mst.rate + clampAbs off (100000 * oneNs) * 1024 / 1000000000 } }

/-- Milestone time at local time `t` of the frame period in progress, 2^-32 ns. -/
def State.timeAt (s : State) (t : Nat) : Nat := s.boundaryTime + (t - s.upNs) * s.frameAdvance / 1024

/-- A second marker, `since` ns after the one before it, is captured at its own time within the frame (R511). It stands for
the time that the message since then has named, `delay` ns earlier (R61, R64). -/
def State.marker (s : State) (since delay : Nat) : State :=
  let at_ := s.moment (s.mst.markAt + since)
  let s := s.timeTo (s.timeAt at_)
  let m := s.mst
  let good := m.markerSeen && decide (999900000 ≤ since ∧ since ≤ 1000100000) && m.msgTime.isSome && m.msgGood
  let q := if good then m.qualified + 1 else 0
  let bad := if m.markerSeen && m.msgTime.isNone then m.badSecs + 1 else 0
  let msg := m.msgTime
  let s := { s with mst := { m with
    markerSeen := true, markAt := at_, qualified := q, badSecs := bad, msgTime := none, msgGood := false } }
  match msg with
  | none => s
  | some (sec, ns) =>
    let t := (sec * 1000000000 + ns - delay) * oneNs
    let off : Int := (t : Int) - (s.nowFine : Int)
    let far := decide (10000 * oneNs < off.natAbs)
    if m.time = .locked then
      (if good then s.discipline off else s)
    else if 3 ≤ q then
      let s := if far then s.stepTo t else { s with mst := { s.mst with slew := off } }
      s.setTimeState .locked
    else s

/-- `PPS_IN_EDGE`: a rising edge of `PPS_IN` (R61, R64). -/
def execPpsInEdge (sinceNs : Nat) : State → Host.Outcome State Fault Refusal :=
  complete fun s => if s.timeSrc = 1 then s.marker sinceNs 0 else s

/-- `TOD_MESSAGE`: a complete message on `TOD_IN` (R62). -/
def execTodMessage (msg : Bytes) (sinceNs : Nat) : State → Host.Outcome State Fault Refusal :=
  complete fun s => if s.timeSrc = 1 then s.timeMessage msg sinceNs else s

/-- `RING_SECOND_MARKER`: a received /RM/. An inserted station that is no master forwards it, and a station whose source
is the ring takes it from its time lane (R391). -/
def execRingSecondMarker (lane15 : Bool) (sinceNs : Nat) : State → Host.Outcome State Fault Refusal :=
  complete fun s =>
    if !s.ringOn then s
    else
      let s := if s.timeMaster then s else s.ringSend (ringTx lane15) ringMark
      if s.timeSrc = 2 ∧ lane15 = s.timeLane then s.marker sinceNs (s.fld Reg.MST_RING_DELAY 19 0) else s

end Sys2Proof.Machine
end

