-- ==== Sys2Proof/Machine/Judge.lean ====
section
/-!
DEFINITION. How a write is judged (R13, R57, R449, R454, R455, R462, R517, R518): the codes, the values that a register
refuses, the class I fields whose unit runs, and the refusals of the owning chapters. The order of the codes where
several apply is log 71.
-/
namespace Sys2Proof.Machine

/-! ### Access result codes (R455) -/

def acOk : Nat := 0x0
def acClassI : Nat := 0x1
def acValue : Nat := 0x2
def acRwl : Nat := 0x3
def acExpert : Nat := 0x4
def acBusy : Nat := 0x5
def acFrozen : Nat := 0x6
def acSeqLock : Nat := 0x7
def acStageFull : Nat := 0x8
def acAbsent : Nat := 0x9
def acUnmapped : Nat := 0xA
def acWidth : Nat := 0xB
def acStaged : Nat := 0xC
def acState : Nat := 0xD
def acRetry : Nat := 0xE
def acNotAllowed : Nat := 0xF

/-- A result that leaves the register unchanged (R456). -/
def refusedCode (c : Nat) : Bool := decide (1 ≤ c ∧ c ≤ 0xB) || c == acState

/-- The first code of a list that is not `OK`. -/
def firstCode (l : List Nat) : Nat := (l.find? fun c => c != 0).getD 0

/-- A code where a condition holds. -/
def codeIf (b : Bool) (c : Nat) : Nat := if b then c else 0

/-! ### Values that do not depend on time (R517) -/

/-- The range of a count point's index (R471). -/
def pmcIndexOk (cls idx : Nat) : Bool :=
  if cls = 0 then true
  else if cls ≤ 3 then decide (idx < 8192)
  else if cls ≤ 6 then decide (idx < 512)
  else if cls ≤ 0xA then decide (idx < 32)
  else if cls ≤ 0xC then decide (idx < 65536)
  else decide (idx < 304)

/-- A table window's select names an entry and a word that the table has (R346, R366). -/
def tblSelOk (t i w : Nat) : Bool := decide (i < entryCount t ∧ w < entryWords t)

/-- A scope names no block that no domain may cover, nor one of another domain (R460). -/
def State.scopeOk (s : State) (d : Nat) (w : Word) : Bool :=
  (List.range 19).all fun b => !flagOf w b || (b != 0 && b != 7 && b != 14 &&
    (List.range 8).all fun e => e == d || !flagOf (s.reg (Reg.CTL_LOCK_SCOPE0 + 4 * e)) b)

/-- The values that a register refuses beyond the ranges of its fields. -/
def State.valueOk (s : State) (off : Nat) (w : Word) : Bool :=
  let b := baseOff off
  let p : Path := if off = b then .a else .b
  if b = Reg.MST_Q_CMD then !(flagOf w 0 && flagOf w 1)
  else if b = Reg.PA_RXD_CD_HINT then decide ((signedOf 20 (fieldOf w 19 0)).natAbs ≤ dMax (s.rxModeOf p).k)
  else if b = Reg.PA_RXD_THR then decide (fieldOf w 23 16 ≤ fieldOf w 31 24)
  else if b = Reg.PA_TRK_RAIL_SEL then
    (loopKind (fieldOf w 15 0)).isSome && fieldOf w 15 12 == 1 + pathNum p
  else if b = Reg.HSF_RAIL_SEL then (loopKind (fieldOf w 15 0)).isSome && fieldOf w 15 12 == 0
  else if b = Reg.CNT_SLOT_SEL then
    (match s.mode (pathOf (fieldOf w 9 9)) with | some m => decide (fieldOf w 8 0 < m.slots) | none => false)
  else if b = Reg.PKT_TBL_SEL then tblSelOk (0x0D00 + fieldOf w 26 24) (fieldOf w 21 8) (fieldOf w 4 0)
  else if b = Reg.SCH_TBL_SEL then tblSelOk (0x0E00 + fieldOf w 24 24) (fieldOf w 23 8) (fieldOf w 1 0)
  else if b = Reg.PWR_THERM then
    decide (fieldOf w 15 8 < fieldOf w 23 16 ∧ fieldOf w 23 16 < fieldOf w 31 24)
  else if Reg.CTL_LOCK_SCOPE0 ≤ b ∧ b < Reg.CTL_LOCK_SCOPE0 + 32 then s.scopeOk ((b - Reg.CTL_LOCK_SCOPE0) / 4) w
  else if Reg.PMC_CFG0 ≤ b ∧ b < Reg.PMC_CFG0 + 4 * 8192 then pmcIndexOk (fieldOf w 29 24) (fieldOf w 15 0)
  else if b = Reg.TRU_CMD then decide (1 ≤ fieldOf w 7 0 ∧ fieldOf w 7 0 ≤ 5)
  else true

/-- Whether the registers' chain of counters around `n` is one that R472 allows. -/
def chainsOk (cfg : Nat → Word) (n : Nat) : Bool :=
  let chained (i : Nat) : Bool := flagOf (cfg i) 31
  ((List.range 6).map fun k => n + k - 4).all fun i =>
    !chained i || (decide (i < 8191) && fieldOf (cfg (i + 1)) 29 24 == 0
      && !(chained (i + 1) && chained (i + 2) && chained (i + 3)))

/-! ### Locks and class I (R13, R57, R518) -/

/-- The image locks the RWL fields of the register (R57). -/
def State.rwlLocked (s : State) (off : Nat) : Bool := s.rte.active && s.rte.cfg.rwl.contains off

/-- The image locks expert access to the register's unit (R13). -/
def State.expertLocked (s : State) (off : Nat) : Bool :=
  s.rte.active && (match expertBit off with | some i => s.rte.cfg.expert.getLsbD i | none => false)

/-- The fields of a register whose unit's actual state is running, as R108, R110, R313, R366, R385, R379, R394, R474 say
for their class I fields. -/
def State.runMask (s : State) (off : Nat) : Word :=
  let b := baseOff off
  let p : Path := if off = b then .a else .b
  let all : Word := 0xFFFFFFFF#32
  let up (x : SideState) : Bool := sideActual x != offSt
  let tx := up (s.path p).cnv.tx
  let rx := up (s.path p).cnv.rx
  let when_ (c : Bool) (m : Word) : Word := if c then m else 0
  let item := s.item off
  if b = Reg.PA_CNV_CTRL then when_ rx all
  else if b = Reg.PA_CNV_MAP then when_ rx 0xAF0#32 ||| when_ tx 0x50F#32
  else if b = Reg.PA_RXD_LAMBDA then when_ ((s.path p).rxd.acq != 0) all
  else if Reg.TRU_PAGE_BASE_HI ≤ b ∧ b ≤ Reg.TRU_PAGE_LIMIT_LO then when_ (s.pageEn (s.fld Reg.TRU_PAGE_SEL 4 0)) all
  else if b = Reg.PKT_HASH_SEED ∨ b = Reg.SCH_CTRL then all
  else if b = Reg.HSF_PORT_CTRL then when_ (s.actual (16 + item) == runningSt) all
  else if b = Reg.HSF_LANE_CTRL then
    when_ (match s.rte.cfg.portOfLane item with | some r => s.actual (16 + r.num) == runningSt | none => false) all
  else if b = Reg.HSL_LANE_CTRL then when_ (s.actual (48 + item) == runningSt) all
  else if b = Reg.HSL_RING_CTRL then when_ (s.actual 62 == runningSt || s.actual 63 == runningSt) all
  else if Reg.PMC_DUMP_BASE_HI ≤ b ∧ b ≤ Reg.PMC_DUMP_BUF then when_ (flagOf (s.reg Reg.PMC_DUMP_CTRL) 31) all
  else 0

/-! ### Refusals of the owning chapters -/

/-- The frequency of a fine-tune code (R171), in Hz. -/
def State.ftHz (s : State) (p : Path) (code : Nat) : Int :=
  let hz := ((code : Int) - 0x8000) * s.pfld p Reg.PA_CNV_LASER_CFG 31 16
  if s.pflag p Reg.PA_CNV_LASER_CFG 8 then -hz else hz

/-- Host writes to the slot table's next copy are refused (R230). -/
def State.slotHeld (s : State) (p : Path) : Bool :=
  s.nextLocked p 0 || (match s.rte.amd with | some a => hasKind (a.kinds p) 0 | none => false)

/-- The output that a write of a loop's output field asks for: refused where such a commit would be (R171): a value
outside the loop's range with `VALUE`, every other refusal of R168 with `STATE` (log 71). -/
def State.fixCode (s : State) (id : Nat) (v : Int) : Nat :=
  match loopKind id with
  | none => acState
  | some k => firstCode [codeIf (decide (v < k.lo ∨ k.hi < v)) acValue, codeIf (!s.railFixOk id v) acState]

/-- The values that the owning chapters refuse, by what other registers and copies hold: a refusal for its `VALUE` is
made at staging too (R462, log 150). -/
def State.valueFits (s : State) (off : Nat) (w : Word) : Bool :=
  let b := baseOff off
  let p : Path := if off = b then .a else .b
  let fits (id : Nat) (v : Int) : Bool := s.fixCode id v != acValue
  if b = Reg.PA_CNV_LASER_FT then
    s.pfld p Reg.PA_CNV_LASER_CFG 31 16 == 0 || fits (loopId p 2 0) (s.ftHz p (fieldOf w 15 0))
  else if b = Reg.PA_TRK_PROF then
    let sel := s.reg (pathReg p Reg.PA_TRK_PROF_SEL)
    let t := fieldOf sel 3 0
    fieldOf sel 5 4 != 0 || (decide (t < (s.txMode p).trackCount) && fits (loopId p 1 t) (fieldOf w 7 0))
  else if b = Reg.CNT_SLOT_GEN_A ∨ b = Reg.CNT_SLOT_GEN_B then
    let p : Path := if b = Reg.CNT_SLOT_GEN_A then .a else .b
    s.slotHeld p || fieldOf w 15 0 == (s.mstPath p).tx.slot.toNat || s.slotNextOk p
  else if b = Reg.MON_DITH0 then
    decide (s.fldI Reg.MON_DITH1 (s.item b) 31 16 + 1000 ≤ fieldOf w 21 12 * 1000)
  else if b = Reg.MON_DITH1 then
    decide (fieldOf w 31 16 + 1000 ≤ s.fldI Reg.MON_DITH0 (s.item b) 21 12 * 1000)
  else if b = Reg.MON_DAC_CODE then
    fits (optLoop (pathOf (s.fld Reg.MON_OPT_SEL 0 0)) (s.fld Reg.MON_LOOP_SEL 2 0)) (fieldOf w 15 0)
  else if Reg.PMC_CFG0 ≤ b ∧ b < Reg.PMC_CFG0 + 4 * 8192 then
    let n := (b - Reg.PMC_CFG0) / 4
    chainsOk (fun i => if i = n then w else s.pmcCfg i) n
  else if b = Reg.PWR_BASIC then
    decide ((match fieldOf w 3 0 with | 1 => 125 | _ => 130) < s.fld Reg.PWR_THERM 31 24)
  else true

/-- Conditions of the path units. -/
def State.latePath (s : State) (p : Path) (b off : Nat) (w : Word) : Nat :=
  let old := s.reg off
  if b = Reg.PA_CNV_CTRL then
    let c := (s.path p).cnv
    codeIf (!s.pwr.lineRef && ((flagOf w 0 && flagOf old 0 && c.tx == .lineOff)
      || (flagOf w 1 && flagOf old 1 && c.rx == .lineOff))) acState
  else if b = Reg.PA_CNV_LASER_CFG then
    codeIf (flagOf old 0 && fieldOf w 5 4 != fieldOf old 5 4) acState
  else if b = Reg.PA_CNV_LASER_CMD then codeIf (flagOf w 31 && (s.laser p).busy) acBusy
  else if b = Reg.PA_CNV_LASER_FT then
    firstCode [codeIf (s.pfld p Reg.PA_CNV_LASER_CFG 31 16 == 0) acState,
      s.fixCode (loopId p 2 0) (s.ftHz p (fieldOf w 15 0))]
  else if isCoefOff b ∨ b = Reg.PA_CNV_BASIC ∨ b = Reg.PA_TXD_BASIC ∨ b = Reg.PA_TXD_COEF_GEN then
    codeIf (s.copySel off || s.nextLocked p 4) acFrozen
  else if b = Reg.PA_TRK_PROF then
    let sel := s.reg (pathReg p Reg.PA_TRK_PROF_SEL)
    let t := fieldOf sel 3 0
    firstCode [codeIf (fieldOf sel 5 4 != 0) acState, s.fixCode (loopId p 1 t) (fieldOf w 7 0)]
  else if b = Reg.PA_LFR_TRACE_RX then codeIf (s.copySel off) acState
  else 0

/-- Conditions of the device's units. A write that sets `SET` and changes `SRC` is refused by the `SRC` that it writes and
by the time state that the old source has given (R65, log 109). -/
def State.lateUnit (s : State) (b : Nat) (w : Word) : Nat :=
  if b = Reg.RTE_CTRL then
    firstCode [codeIf (w &&& 0x7C#32 != 0 && s.rte.op.isSome) acBusy,
      codeIf (w &&& 0x3C#32 == 0x20#32 && !s.amdCancelOk) acState]
  else if b = Reg.MST_TIME_CTRL then
    codeIf (flagOf w 2 && s.mst.time == .locked && (fieldOf w 1 0 == 1 || fieldOf w 1 0 == 2)) acState
  else if b = Reg.CNT_SLOT_ENTRY then
    codeIf (s.copySel b || s.slotHeld (pathOf (s.fld Reg.CNT_SLOT_SEL 9 9))) acFrozen
  else if b = Reg.CNT_SLOT_GEN_A ∨ b = Reg.CNT_SLOT_GEN_B then
    let p : Path := if b = Reg.CNT_SLOT_GEN_A then .a else .b
    codeIf (s.slotHeld p) acFrozen
  else if b = Reg.CNT_C_TRACE_RX then codeIf (s.copySel b) acState
  else if b = Reg.SCH_GATE_DATA then
    codeIf (s.copySel b || s.nextLocked (pathOf (s.fld Reg.SCH_GATE_SEL 14 14)) 3) acFrozen
  else if b = Reg.SCH_GATE_GEN_A then codeIf (s.nextLocked .a 3) acFrozen
  else if b = Reg.SCH_GATE_GEN_B then codeIf (s.nextLocked .b 3) acFrozen
  else if b = Reg.TRU_CMD then codeIf (flagOf w 31 && s.tru.busy.isSome) acBusy
  else if b = Reg.PKT_FLOW_CMD then codeIf (flagOf w 31 && s.pkt.cmd.isSome) acBusy
  else if b = Reg.MEM_REPAIR_CMD then codeIf (flagOf w 31 && (s.mem.repairBusy || s.mem.repairWait)) acBusy
  else if b = Reg.MON_CTRL then codeIf (flagOf w 0 && (s.mon.calWait || s.mon.calRun)) acBusy
  else if b = Reg.MON_FIR_COEF then codeIf (s.copySel b) acFrozen
  else if b = Reg.MON_DAC_CODE then
    s.fixCode (optLoop (pathOf (s.fld Reg.MON_OPT_SEL 0 0)) (s.fld Reg.MON_LOOP_SEL 2 0)) (fieldOf w 15 0)
  else if b = Reg.CTL_STATE then codeIf (flagOf w 31 && s.actual (s.fld Reg.CTL_STATE_SEL 5 0) == absentSt) acState
  else if b = Reg.EVT_SPILL_CMD then codeIf (flagOf w 31 && s.evt.spillRead.isSome) acBusy
  else 0

/-- The refusals of a basic write's expert fields (R11): class I fields of running ports (R395). -/
def State.lateBasic (s : State) (b : Nat) (w : Word) : Nat :=
  if b = Reg.HSF_BASIC then
    codeIf ((hsfProfile (fieldOf w 3 0)).any fun f =>
      s.actual (16 + f.idx) == runningSt && s.fldI f.off f.idx f.hi f.lo != f.val) acClassI
  else 0

/-! ### The judgement -/

/-- Who writes: a session, or the register writes of a full load (R49). -/
inductive Writer where
  | host | load
  deriving DecidableEq, Repr

/-- The checks that do not depend on time (R462). -/
def State.staticCode (s : State) (by_ : Writer) (off : Nat) (w : Word) : Nat :=
  if unmappedFrom ≤ off then acUnmapped
  else match regDesc off with
    | none => acAbsent
    | some d =>
      if !s.present off then acAbsent
      else firstCode [codeIf (!(valuesOk d w && s.valueOk off w && s.valueFits off w)) acValue,
        codeIf (by_ == .host && s.rwlLocked off && ((w ^^^ s.storedWord off d) &&& lockMask d) != 0) acRwl,
        codeIf (by_ == .host && !d.basic && s.expertLocked off) acExpert]

/-- Class I, and the refusals of the owning chapters. -/
def State.lateCode (s : State) (by_ : Writer) (off : Nat) (w : Word) : Nat :=
  match regDesc off with
  | none => 0
  | some d =>
    let b := baseOff off
    let p : Path := if off = b then .a else .b
    firstCode [codeIf (by_ == .host && ((w ^^^ s.storedWord off d) &&& idleMask d &&& s.runMask off) != 0) acClassI,
      if 0x00400000 ≤ b ∧ b < 0x00800000 then s.latePath p b off w else s.lateUnit b w, s.lateBasic b w]

/-- What a write at this moment is answered, without staging. -/
def State.judge (s : State) (by_ : Writer) (off : Nat) (w : Word) : Nat :=
  firstCode [s.staticCode by_ off w, s.lateCode by_ off w]

end Sys2Proof.Machine
end

