-- ==== Sys2Proof/Machine/HostAccess.lean ====
section
/-!
DEFINITION. What an accepted write does (R9, R10, R70, and the registers' own chapters), the results of writes (R456),
sequence locks (R460 to R463), and the write that every session and every command shares.
-/
namespace Sys2Proof.Machine

/-! ### Storing -/

/-- Stores the fields of a register item: class M fields enter the shadow (R70), the others take force. -/
def State.storeItem (s : State) (off idx : Nat) (d : RegDesc) (w : Word) : State :=
  let key := regKey off idx
  let m := milestoneMask d
  let now := sparseGet regReset s.cfg key
  let s := { s with cfg := sparseSet regReset key (mergeWrite (storedMask d &&& ~~~m) now w) s.cfg }
  if m = 0 then s
  else { s with shadow := noteAt key (mergeWrite m ((noted s.shadow key).getD now) w) s.shadow }

/-- One field of a register item, stored in the same way. -/
def State.storeField (s : State) (off idx hi lo v : Nat) : State :=
  match regDesc off with
  | none => s
  | some d =>
    let key := regKey off idx
    let m := fieldMask hi lo
    if milestoneMask d &&& m = 0 then s.setFldI off idx hi lo v
    else
      let now := (noted s.shadow key).getD (sparseGet regReset s.cfg key)
      { s with shadow := noteAt key (setField now hi lo v) s.shadow }

/-- The word of a table window goes to the table's shadow (R343, R353). -/
def State.storeTable (s : State) (off : Nat) (w : Word) : State :=
  let (t, i, k, _) := s.tblSel off
  { s with tblShadow := noteAt (tblKey t (entryWords t * i + k)) w s.tblShadow }

/-- The write of the register's stored fields. -/
def State.storeReg (s : State) (off : Nat) (d : RegDesc) (w : Word) : State :=
  let b := baseOff off
  if b = Reg.PKT_TBL_DATA ∨ b = Reg.SCH_TBL_DATA then s.storeTable b w
  else if unitHeld b ∧ b ≠ Reg.MON_FCAL_DATA then s
  else s.storeItem off (s.item off) d w

/-! ### Effects of the paths' registers -/

/-- Sticky bits of a path that a written 1 clears. -/
def State.clearPath (s : State) (p : Path) (b : Nat) (w : Word) : State :=
  if b = Reg.PA_CNV_STATUS then
    s.updCnv p fun c => { c with txDenied := c.txDenied && !flagOf w 5, rxDenied := c.rxDenied && !flagOf w 4 }
  else if b = Reg.PA_TXD_STATUS then s.updTxd p fun t => { t with profRefused := t.profRefused && !flagOf w 1 }
  else if b = Reg.PA_TRK_RAIL_STATUS then
    s.updRail (s.pfld p Reg.PA_TRK_RAIL_SEL 15 0) fun r => { r with refused := r.refused && !flagOf w 5 }
  else if b = Reg.PA_LFR_DEF_STICKY then
    s.updLfr p fun l => { l with sticky := l.sticky &&& ~~~(BitVec.ofNat 8 w.toNat) }
  else s

/-- The next copy of kind `k` with generation `g`: staged where `g` differs from the transmit generation in force
(R152, R231, R363). -/
def State.stageNext (s : State) (p : Path) (k : Nat) (w : Word) : State :=
  let g := BitVec.ofNat 16 (fieldOf w 15 0)
  if g = (s.mstPath p).tx.get k then (s.unstageTx p k).unstageRx p k else s.stage p k g

/-- Pending rails of a window, by the distance from its select register. -/
def State.railWrite (s : State) (id r : Nat) (w : Word) : State :=
  match r with
  | 0x04 => s.updRail id fun x => { x with pMin := signedOf 32 w.toNat }
  | 0x08 => s.updRail id fun x => { x with pMax := signedOf 32 w.toNat }
  | 0x0C => s.updRail id fun x => { x with pStep := w.toNat }
  | 0x10 =>
    let s := s.updRail id fun x => { x with pFreeze := flagOf w 16, pDwell := fieldOf w 15 0 }
    if flagOf w 31 then s.railApply id else s
  | _ => s

/-- New rails of a levelling loop may exclude the profiles in force (R169). -/
def State.railFollow (s : State) (id : Nat) : State :=
  if id / 0x1000 ≠ 0 ∧ id / 0x100 % 16 = 1 then s.selfLevel (loopPath id) else s

/-- Channels whose enable a write of `GCC_CTRL` changes start anew (R215). -/
def State.gccEnables (s : State) (p : Path) (old w : Word) : State :=
  (List.range 8).foldl (fun s g => if flagOf old g == flagOf w g then s else s.gccReset p g) s

/-- What a write of a path register does beside storing; `old` is the word before. -/
def State.wrotePath (s : State) (p : Path) (b : Nat) (old w : Word) : State :=
  if b = Reg.PA_CNV_CTRL then (s.txEnWritten p (flagOf old 0) (flagOf w 0)).rxEnWritten p (flagOf old 1) (flagOf w 1)
  else if b = Reg.PA_CNV_LASER_CFG then
    let s := if flagOf w 3 then s.updLaser p fun l => { l with rst := true } else s
    if flagOf old 0 == flagOf w 0 then s else s.laserPortEn p (flagOf w 0)
  else if b = Reg.PA_CNV_LASER_CMD then
    (if flagOf w 31 then s.laserGo p (flagOf w 24) (fieldOf w 23 16) (fieldOf w 15 0) else s)
  else if b = Reg.PA_CNV_LASER_FT then s.railFix (loopId p 2 0) (s.ftHz p (fieldOf w 15 0))
  else if b = Reg.PA_RXD_CTRL then (if flagOf w 3 then s.updRxd p fun r => { r with restart := true } else s)
  else if b = Reg.PA_TXD_COEF_GEN then s.stageNext p 4 w
  else if b = Reg.PA_TRK_LEV_CTRL then s.levelEnable p (flagOf old 0)
  else if b = Reg.PA_TRK_PROF then
    let id := loopId p 1 (s.pfld p Reg.PA_TRK_PROF_SEL 3 0)
    (s.railFix id (fieldOf w 7 0)).railFollow id
  else if Reg.PA_TRK_RAIL_SEL < b ∧ b ≤ Reg.PA_TRK_RAIL_CTRL then
    let id := s.pfld p Reg.PA_TRK_RAIL_SEL 15 0
    let s := s.railWrite id (b - Reg.PA_TRK_RAIL_SEL) w
    if b = Reg.PA_TRK_RAIL_CTRL ∧ flagOf w 31 then s.railFollow id else s
  else if b = Reg.PA_LFR_GCC_CTRL then s.gccEnables p old w
  else if b = Reg.PA_LFR_CTRL ∨ b = Reg.PA_LFR_TRACE_RX then s.timJudge p
  else s.clearPath p b w

/-! ### Effects of the device's registers -/

/-- Sticky bits that a written 1 clears. -/
def State.clearUnit (s : State) (ses b : Nat) (w : Word) : State :=
  if b = Reg.RTE_STATUS then s.setRte fun r => { r with failed := r.failed && !flagOf w 2 }
  else if b = Reg.MST_TIME_STATUS then { s with mst := { s.mst with stepped := s.mst.stepped && !flagOf w 3 } }
  else if b = Reg.HSF_RAIL_STATUS then
    s.updRail (s.fld Reg.HSF_RAIL_SEL 15 0) fun r => { r with refused := r.refused && !flagOf w 5 }
  else if b = Reg.MON_STATUS then
    s.setMon fun m => { m with fcalBad := m.fcalBad && !flagOf w 7, calDenied := m.calDenied && !flagOf w 5 }
  else if b = Reg.MON_RESULT then s.setMon fun m => { m with resOver := m.resOver && !flagOf w 30 }
  else if b = Reg.MON_CH_INFO then
    s.updChain (s.fld Reg.MON_CH_SEL 2 0) fun c =>
      { c with stkHi := c.stkHi && !flagOf w 4, stkLo := c.stkLo && !flagOf w 3, refused := c.refused && !flagOf w 0 }
  else if b = Reg.CTL_ACC_STATUS then s.updSession ses fun x => { x with refused := x.refused && !flagOf w 27 }
  else if Reg.EVT_PEND0 ≤ b ∧ b < Reg.EVT_PEND0 + 40 then
    let gone := w.toNat * 2 ^ (8 * (b - Reg.EVT_PEND0))
    { s with evt := { s.evt with pend := s.evt.pend - (s.evt.pend &&& gone) } }
  else if b = Reg.EVT_SPILL_STAT then { s with evt := { s.evt with spillDone := s.evt.spillDone && !flagOf w 31 } }
  else if Reg.PMC_OVF0 ≤ b ∧ b < Reg.PMC_OVF0 + 4 * 256 then
    let k := (b - Reg.PMC_OVF0) / 4
    let left := sparseGet (fun _ => (0 : Word)) s.pmc.ovf k &&& ~~~w
    { s with pmc := { s.pmc with ovf := sparseSet (fun _ => 0) k left s.pmc.ovf } }
  else if b = Reg.WST_STATUS then
    let gone := fieldOf w 7 4
    { s with pmc := { s.pmc with wstFailed := s.pmc.wstFailed - (s.pmc.wstFailed &&& gone) } }
  else if b = Reg.PWR_SUPPLY then s.updPwr fun x => { x with warned := x.warned - (x.warned &&& fieldOf w 4 0) }
  else s

/-- Entry `i` of the slot table's next copy. -/
def State.slotWrite (s : State) (w : Word) : State :=
  let sel := s.reg Reg.CNT_SLOT_SEL
  s.updPcnt (pathOf (fieldOf sel 9 9)) fun t =>
    { t with next := modifyAt (fun _ => fieldOf w 15 0) (fieldOf sel 8 0) t.next }

/-- `CRY_CMD`: each command whose bit is 1, on the selected path (R267, R269). -/
def State.cryCommand (s : State) (w : Word) : State :=
  let p := pathOf (s.fld Reg.CRY_PATH_SEL 0 0)
  let s := if flagOf w 30 then s.eraseKeys p (fieldOf w 7 0) (flagOf w 9) else s
  let s := if flagOf w 29 then s.eraseAllKeys p else s
  if flagOf w 31 then s.rekeyNow p else s

/-- `TRU_CMD` with `GO` (R312). -/
def State.truCommand (s : State) (op : Nat) : State :=
  match op with
  | 1 => s.provision
  | 2 => s.transfer
  | 3 => s.decommission
  | 4 => s.bootProfile
  | 5 => s.certLoad
  | _ => s

/-- `TRU_PAGE_CTRL`: `RESET`, or `EN` cleared (R311). -/
def State.pageCtrl (s : State) (old w : Word) : State :=
  let n := s.fld Reg.TRU_PAGE_SEL 4 0
  if flagOf w 31 ∨ (flagOf old 0 ∧ !flagOf w 0) then s.pageReset n (flagOf w 0) else s

/-- `MST_TIME_CTRL`: a change of source, then `SET`, where one write asks for both (R61, R65, log 109). -/
def State.timeCtrl (s : State) (old w : Word) : State :=
  let s := if fieldOf old 1 0 = fieldOf w 1 0 then s else s.sourceChanged
  if flagOf w 2 then s.setTime else s

/-- `MON_CTRL`: each command whose bit is 1. -/
def State.monCommand (s : State) (w : Word) : State :=
  let s := if flagOf w 1 then s.setMon fun m => { m with resValid := false } else s
  let s := if flagOf w 2 then s.fcalApply else s
  if flagOf w 0 then s.selfCal else s

/-- `MON_CH_CTRL`: enabling a chain makes its outputs unsettled (R432); `APPLY` commits (R430). -/
def State.chainCtrl (s : State) (old w : Word) : State :=
  let i := s.fld Reg.MON_CH_SEL 2 0
  let s := if flagOf w 0 ∧ !flagOf old 0 then s.unsettle i else s
  if flagOf w 31 then s.chainApply i else s

/-- A vector that is unmasked while its message is pending sends it (R465). -/
def State.vectorCtrl (s : State) (n : Nat) (w : Word) : State :=
  if n % 4 = 3 ∧ !flagOf w 0 ∧ s.evt.pba.getLsbD (n / 4) then
    let s := { s with evt := { s.evt with pba := s.evt.pba &&& ~~~(BitVec.ofNat 64 (2 ^ (n / 4))) } }
    s.signal (n / 4)
  else s

/-- `PMC_DUMP_CTRL`: dumps count from 0 after `EN` is set (R475). -/
def State.dumpCtrl (s : State) (old w : Word) : State :=
  if flagOf w 31 ∧ !flagOf old 31 then { s with pmc := { s.pmc with dumpNum := 0 } } else s

/-- Writing a counter's configuration sets it to 0 (R471). -/
def State.pmcWrote (s : State) (n : Nat) : State :=
  { s with pmc := { s.pmc with cnt := sparseSet (fun _ => 0) n 0 s.pmc.cnt } }

/-- What a write of `CNT_`, `CRY_`, `TRU_`, `PKT_`, `SCH_`, `HSF_` or `HSL_` does beside storing. -/
def State.wroteMiddle (s : State) (b : Nat) (old w : Word) : State :=
  if b = Reg.CNT_SLOT_ENTRY then s.slotWrite w
  else if b = Reg.CNT_SLOT_GEN_A then s.stageNext .a 0 w
  else if b = Reg.CNT_SLOT_GEN_B then s.stageNext .b 0 w
  else if b = Reg.CRY_POLICY then
    (if fieldOf old 5 0 = fieldOf w 5 0 then s else s.rekeyExpWritten (pathOf (s.fld Reg.CRY_PATH_SEL 0 0)))
  else if b = Reg.CRY_CMD then s.cryCommand w
  else if b = Reg.TRU_CMD then (if flagOf w 31 then s.truCommand (fieldOf w 7 0) else s)
  else if b = Reg.TRU_PAGE_CTRL then s.pageCtrl old w
  else if b = Reg.PKT_FLOW_CMD then (if flagOf w 31 then s.flowCommand (fieldOf w 2 0) else s)
  else if b = Reg.SCH_GATE_GEN_A then s.stageNext .a 3 w
  else if b = Reg.SCH_GATE_GEN_B then s.stageNext .b 3 w
  else if b = Reg.HSF_PORT_CTRL then
    let n := s.fld Reg.HSF_PORT_SEL 4 0
    let s := s.presetTaken n
    let s := if flagOf old 0 == flagOf w 0 then s else s.portEn n (flagOf w 0)
    if flagOf w 31 then s.portRestartCmd n else s
  else if Reg.HSF_RAIL_SEL < b ∧ b ≤ Reg.HSF_RAIL_CTRL then
    s.railWrite (s.fld Reg.HSF_RAIL_SEL 15 0) (b - Reg.HSF_RAIL_SEL) w
  else if b = Reg.HSL_LANE_CTRL then
    let n := s.fld Reg.HSL_LANE_SEL 3 0
    let s := if flagOf old 0 == flagOf w 0 then s else s.laneEn n (flagOf w 0)
    if flagOf w 31 then s.laneRestartCmd n else s
  else if b = Reg.HSL_RING_CTRL then (if flagOf old 0 ∧ !flagOf w 0 then s.ringClose 3 else s)
  else s

/-- What a write of the other blocks does beside storing. -/
def State.wroteUnit (s : State) (ses b : Nat) (old w : Word) : State :=
  if b = Reg.RTE_CTRL then s.rteCommand w
  else if b = Reg.RTE_SLOT then s.setRte fun r => { r with nextBoot := fieldOf w 9 8 }
  else if b = Reg.MST_TIME_CTRL then s.timeCtrl old w
  else if b = Reg.MST_Q_CMD then
    (if flagOf w 0 then s.hostAdd else if flagOf w 1 then s.hostCancel (fieldOf w 7 2) else s)
  else if b = Reg.MEM_LEDGER_SEL then (if flagOf w 31 then s.ledgerClear else s)
  else if b = Reg.MEM_REPAIR_CMD then (if flagOf w 31 then s.repairCommit else s)
  else if b = Reg.MON_CTRL then s.monCommand w
  else if b = Reg.MON_CAL then (if old = w then s else s.unsettleAll fun _ _ => true)
  else if b = Reg.MON_SEQ_CTRL then (if flagOf w 31 then s.seqGo (s.fld Reg.MON_SEQ_SEL 2 0) else s)
  else if b = Reg.MON_CH_CTRL then s.chainCtrl old w
  else if b = Reg.MON_DAC_CODE then
    s.dacCode (pathOf (s.fld Reg.MON_OPT_SEL 0 0)) (s.fld Reg.MON_LOOP_SEL 2 0) (fieldOf w 15 0)
  else if b = Reg.CTL_STATE then
    (if flagOf w 31 then { s with ctl := { s.ctl with restarts := s.ctl.restarts ++ [s.fld Reg.CTL_STATE_SEL 5 0] } }
     else s)
  else if b = Reg.CTL_LOCK_LEASE then s.updSession ses fun x => { x with lease := fieldOf w 9 0 }
  else if Reg.MSIX_TABLE ≤ b ∧ b < Reg.MSIX_TABLE + 1024 then s.vectorCtrl ((b - Reg.MSIX_TABLE) / 4) w
  else if b = Reg.EVT_JRN_RD then s.lossMarker
  else if b = Reg.EVT_SPILL_CMD then
    (if flagOf w 31 then { s with evt := { s.evt with spillRead := some (fieldOf w 23 0) } } else s)
  else if b = Reg.PMC_DUMP_CTRL then s.dumpCtrl old w
  else if Reg.PMC_CFG0 ≤ b ∧ b < Reg.PMC_CFG0 + 4 * 8192 then s.pmcWrote ((b - Reg.PMC_CFG0) / 4)
  else if b = Reg.PWR_CEILING then s.ceilingChanged
  else if b = Reg.PWR_CTRL then
    let s := if fieldOf old 23 16 = fieldOf w 23 16 then s else s.ceilingChanged
    if fieldOf old 13 0 = fieldOf w 13 0 then s else s.timeoutChanged
  else if b = Reg.PWR_SW_RESET then s.softReset
  else s.clearUnit ses b w

/-! ### An accepted write -/

/-- The basic mode word of the unit of the register at `off`, on its path. -/
def basicOff (off : Nat) : Option Nat := (basicWord (baseOff off)).map fun b => b + (off - baseOff off)

/-- An expert write makes the unit's profile custom; a basic write ends that (R10, R12). -/
def State.markProfile (s : State) (off : Nat) (d : RegDesc) : State :=
  match basicOff off with
  | none => s
  | some k =>
    if d.basic then { s with custom := s.custom.filter fun o => o != k }
    else if d.fields.isEmpty ∨ k ∈ s.custom then s
    else { s with custom := s.custom ++ [k] }

/-- The fields of the selected profile (R10), and what their change does. -/
def State.basicWrite (s : State) (off : Nat) (w : Word) : State :=
  let keyA := s.fldI Reg.CRY_POLICY 0 5 0
  let keyB := s.fldI Reg.CRY_POLICY 1 5 0
  let levA := s.pflag .a Reg.PA_TRK_LEV_CTRL 0
  let levB := s.pflag .b Reg.PA_TRK_LEV_CTRL 0
  let s := (s.profFields off w).foldl (fun s f => s.storeField f.off f.idx f.hi f.lo f.val) s
  if off = Reg.CRY_BASIC then
    let s := if keyA = s.fldI Reg.CRY_POLICY 0 5 0 then s else s.rekeyExpWritten .a
    if keyB = s.fldI Reg.CRY_POLICY 1 5 0 then s else s.rekeyExpWritten .b
  else if off = Reg.PWR_BASIC then s.ceilingChanged.timeoutChanged
  else if off = Reg.HSF_BASIC then (List.range 32).foldl (fun s f => s.presetTaken f) s
  else (((s.levelEnable .a levA).levelEnable .b levB).timJudge .a).timJudge .b

/-- An accepted write takes effect. -/
def State.applyWrite (s : State) (ses off : Nat) (w : Word) : State :=
  match regDesc off with
  | none => s
  | some d =>
    let b := baseOff off
    let p : Path := if off = b then .a else .b
    let old := s.storedWord off d
    let s := (s.storeReg off d w).markProfile off d
    if d.basic then s.basicWrite off w
    else if 0x00400000 ≤ b ∧ b < 0x00800000 then s.wrotePath p b old w
    else if 0x00C00000 ≤ b ∧ b < 0x02000000 then s.wroteMiddle b old w
    else s.wroteUnit ses b old w

/-- Commands that are refused while their unit is busy say so in the unit's own result too (R312, R331, R412). -/
def State.busyNote (s : State) (off : Nat) (w : Word) : State :=
  if off = Reg.TRU_CMD then s.truCommand (fieldOf w 7 0)
  else if off = Reg.PKT_FLOW_CMD then s.flowCommand (fieldOf w 2 0)
  else if off = Reg.MEM_REPAIR_CMD then s.repairCommit
  else s

/-! ### Results (R456) -/

/-- A session's last write and its result. -/
def State.noteAccess (s : State) (ses code off : Nat) : State :=
  s.updSession ses fun x => { x with result := code, addr := off, refused := x.refused || refusedCode code }

/-- A refused write is reported to its session and journalled as a kind 2 record (R456, R467). -/
def State.refuseWrite (s : State) (ses code off : Nat) (w : Word) : State :=
  (s.noteAccess ses code off).occ ⟨2, 302, code, ses, off, w.toNat, false, 0⟩

/-! ### The write of a session (R460 to R462) -/

/-- What the sequence locks answer: the session's own domain stages the write, another's refuses it. -/
def State.lockCode (s : State) (ses off : Nat) : Nat :=
  match s.domainOf (blockOf off) with
  | none => acOk
  | some d => match (s.lock d).owner with
    | none => acOk
    | some n => if n = ses then acStaged else acSeqLock

/-- A session writes the register at `off`: the answer's code, and the state. -/
def State.hostWrite (s : State) (ses off : Nat) (w : Word) : State × Nat :=
  let lock := if unmappedFrom ≤ off ∨ (regDesc off).isNone ∨ !s.present off then acOk else s.lockCode ses off
  let code :=
    if lock = acSeqLock then acSeqLock
    else if lock = acStaged then
      firstCode [s.staticCode .host off w,
        match s.domainOf (blockOf off) with
        | some d => if 256 ≤ (s.lock d).staged.length then acStageFull else acStaged
        | none => acStaged]
    else s.judge .host off w
  if refusedCode code then
    let s := if code = acBusy then s.busyNote off w else s
    (s.refuseWrite ses code off w, code)
  else if code = acStaged then
    match s.domainOf (blockOf off) with
    | some d => ((s.updLock d fun l => { l with staged := l.staged ++ [(off, w)] }).noteAccess ses code off, code)
    | none => (s, code)
  else ((s.noteAccess ses code off).applyWrite ses off w, code)

/-- A write with byte enables (R449): all four, or it is refused. -/
def State.busWrite (s : State) (ses off : Nat) (w : Word) (enables : BitVec 4) : State × Nat :=
  if enables = 0xF#4 then s.hostWrite ses off w else (s.refuseWrite ses acWidth off w, acWidth)

/-! ### Lock commands (R461) -/

def lkOk : Nat := 0
def lkHeld : Nat := 1
def lkNotOwner : Nat := 2
def lkRefused : Nat := 3
def lkBroken : Nat := 4

/-- Staged writes judged in order, each as if those before it had been written: the state after all of them, or the
index of the first that would be refused. -/
def State.commitRun (s : State) (ses : Nat) : Nat → List (Nat × Word) → State ⊕ Nat
  | _, [] => .inl s
  | i, (off, w) :: l =>
    if refusedCode (s.judge .host off w) then .inr i else (s.applyWrite ses off w).commitRun ses (i + 1) l

/-- The result of a lock command in the session's `CTL_LOCK_STATUS`. -/
def State.lockResult (s : State) (ses dom code index : Nat) : State :=
  s.updSession ses fun x => { x with lockResult := code, lockDom := dom, lockIndex := index }

/-- `ACQUIRE`. -/
def State.lockAcquire (s : State) (ses dom : Nat) : State :=
  let l := s.lock dom
  if l.owner.isSome then s.lockResult ses dom lkHeld 0
  else (s.updLock dom fun _ => ⟨some ses, false, []⟩).lockResult ses dom (if l.broken then lkBroken else lkOk) 0

/-- The command bits of a register that ask for right-of-way at once. -/
def grantBits (b : Nat) : Word :=
  if b = Reg.MON_CTRL then 1#32 else if b = Reg.TRU_CMD ∨ b = Reg.MEM_REPAIR_CMD then 0x80000000#32 else 0#32

/-- A staged write without the right-of-way that it asks for. -/
def State.commitWrite (s : State) (ses : Nat) (x : Nat × Word) : State :=
  match regDesc x.1 with
  | none => s
  | some d =>
    if s.pwr.inReset then s
    else if baseOff x.1 = Reg.PA_CNV_CTRL then (s.storeReg x.1 d x.2).markProfile x.1 d
    else s.applyWrite ses x.1 (x.2 &&& ~~~grantBits (baseOff x.1))

/-- The requests of the staged writes, made in one cycle: in ascending index of R486 (R462, R487). `was` is the state
before the commit. -/
def State.commitGrants (s was : State) (l : List (Nat × Word)) : State :=
  let asks (off : Nat) : List Word := (l.filter fun x => x.1 == off && (x.2 &&& grantBits off) != 0).map fun x => x.2
  let paths := [Path.a, Path.b].filter fun p => l.any fun x => x.1 == pathReg p Reg.PA_CNV_CTRL
  let s := paths.foldl (fun s p => s.txEnWritten p (was.txEn p) (s.txEn p)) s
  let s := paths.foldl (fun s p => s.rxEnWritten p (was.rxEn p) (s.rxEn p)) s
  let s := (asks Reg.MON_CTRL).foldl (fun s _ => s.selfCal) s
  let s := (asks Reg.TRU_CMD).foldl (fun s w => s.truCommand (fieldOf w 7 0)) s
  (asks Reg.MEM_REPAIR_CMD).foldl (fun s _ => s.repairCommit) s

/-- The staged writes applied within one access cycle. -/
def State.commitApply (s : State) (ses : Nat) (l : List (Nat × Word)) : State :=
  let t := l.foldl (fun s x => s.commitWrite ses x) s
  if t.pwr.inReset then t else t.commitGrants s l

/-- `COMMIT`. -/
def State.lockCommit (s : State) (ses dom : Nat) : State :=
  match s.commitRun ses 0 (s.lock dom).staged with
  | .inl _ => ((s.commitApply ses (s.lock dom).staged).updLock dom fun _ => freshLock).lockResult ses dom lkOk 0
  | .inr i => s.lockResult ses dom lkRefused i

/-- A lock command of a session: 1 `ACQUIRE`, 2 `RENEW`, 3 `COMMIT`, 4 `ABORT`. -/
def State.lockCommand (s : State) (ses op dom : Nat) : State :=
  if op = 1 then s.lockAcquire ses dom
  else if (s.lock dom).owner ≠ some ses then s.lockResult ses dom lkNotOwner 0
  else match op with
    | 3 => s.lockCommit ses dom
    | 4 => (s.updLock dom fun _ => freshLock).lockResult ses dom lkOk 0
    | _ => s.lockResult ses dom lkOk 0

/-- A session's write, lock commands included: `CTL_LOCK_CMD` lies in a block that no domain covers, so that it is never
staged. -/
def State.sessionWrite (s : State) (ses off : Nat) (w : Word) (enables : BitVec 4) : State × Nat :=
  let (s, code) := s.busWrite ses off w enables
  if code = acOk ∧ off = Reg.CTL_LOCK_CMD ∧ flagOf w 31 then
    (s.lockCommand ses (fieldOf w 26 24) (fieldOf w 2 0), code)
  else (s, code)

end Sys2Proof.Machine
end

