-- ==== Sys2Proof/Machine/Load.lean ====
section
/-!
DEFINITION. Steps 1 to 9 of a full load (R40, R41, R49, R50, R320, R329, R334, R520): verifying the image in staging, and
applying its records.
-/
namespace Sys2Proof.Machine

/-- A state, or the failure that an application ends with. -/
abbrev Applied := State ⊕ (Nat × Nat)

/-- Applies items in order, from index `i` on, until one fails. -/
def applyItems {α : Type} (f : State → Nat → α → Applied) : Nat → List α → State → Applied
  | _, [], s => .inl s
  | i, x :: l, s => match f s i x with
    | .inl t => applyItems f (i + 1) l t
    | .inr e => .inr e

def Applied.andThen (a : Applied) (f : State → Applied) : Applied :=
  match a with
  | .inl s => f s
  | .inr e => .inr e

/-- The records with their index in the image. -/
def indexed (rs : List Rec) : List (Nat × Rec) := (List.range rs.length).zip rs

/-- Applies the records of a section in file order. -/
def applyRecs (f : State → Nat → Rec → Applied) (sec : Nat) (rs : List Rec) (s : State) : Applied :=
  applyItems (fun s _ x => f s x.1 x.2) 0 ((indexed rs).filter fun x => x.2.typ / 256 == sec) s

/-! ### Structure (R39, R142, R520) -/

/-- A path of the new image: its uniform profiles, its slot table, which the image's table records or the default placement
give, its receive mode, and the values that the calibration record seeds (R102, R142, R223). -/
def State.pathStructure (s : State) (rs : List Rec) (p : Path) : State :=
  if !s.pathUp p then s
  else
    let m := s.txMode p
    let t := s.rte.cfg.fullSlots rs p
    let s := s.seedPath p
    let s := (s.updTxd p fun x => { x with prof := m.uniform, profNext := m.uniform }).updTrk p fun x =>
      { x with rxProf := m.uniform, rxProfNext := m.uniform }
    let s := s.updPcnt p fun x => { x with tx := t, rx := t, next := t }
    let s := s.updPath p fun x => { x with rxMode := some m }
    if s.calBad then s.raise (pathSrc p 4) 0 0 0 0 else s

/-- The new configuration takes the place of the old one; the tables of its units hold zeros (R402). -/
def State.structureTake (s : State) (rs : List Rec) : State :=
  let s := s.tablesFresh.setRte fun r => { r with active := true, cfg := imageCfg rs }
  (s.pathStructure rs .a).pathStructure rs .b

/-! ### Fill (R41, R329) -/

def Rec.fillStart (r : Rec) : Nat := beAt r.data 8 8
def Rec.fillLen (r : Rec) : Nat := beAt r.data 16 8

/-- Whether a fill directive keeps the rules of R41; `pkt` tells that the image instantiates the packet layer. -/
def Rec.fillOk (pkt : Bool) (r : Rec) : Bool :=
  let a := r.fillStart
  let n := r.fillLen
  if r.u8 0 = 0 then
    a % 32 == 0 && n % 32 == 0 && decide (a + n ≤ stagingBase) && (!pkt || n == 0 || decide (0x04000000 ≤ a))
  else a % 8 == 0 && n % 8 == 0 && decide (a + n ≤ (if pkt then 0x02C00000 else 0x03000000))

/-- The first fill directive that breaks a rule. -/
def fillFault (pkt : Bool) (rs : List Rec) : Option (Nat × Nat) :=
  match (indexed rs).find? (fun x => x.2.typ == 0x0201 && !x.2.fillOk pkt) with
  | some x => some (flFill, x.1)
  | none => none

/-- Whether a load needs the fill grant. -/
def needsFill (rs : List Rec) : Bool :=
  (imageCfg rs).has 2 || rs.any fun r => r.typ == 0x0201

/-- Writes the pattern to every word of a range, of the memory die or of the packet buffer SRAM (R41). -/
def State.fillRange (s : State) (r : Rec) : State :=
  let a := r.fillStart
  let n := r.fillLen
  if r.u8 0 = 0 then
    s.deviceWrite a ((List.range (n / 8)).flatMap fun _ => bytesAt r.data 24 8)
  else
    s.sramFill (a / 8) (n / 8) (bytesAt r.data 24 8)

/-- The fill directives, and the clear of the flow table. -/
def State.fillAll (s : State) (rs : List Rec) : State :=
  let s := if s.inst 2 then s.pktClear else s
  (rs.filter fun r => r.typ == 0x0201).foldl (fun s r => s.fillRange r) s

/-! ### Registers (R40, R52) -/

/-- The session number that the loader's own writes carry. -/
def loaderSession : Nat := 2

/-- One item of a `REG_WRITE` record. -/
def State.loadItem (s : State) (i : Nat) (x : Nat × Word) : Applied :=
  if s.pwr.inReset then .inl s
  else if refusedCode (s.judge .load x.1 x.2) then .inr (flRegister, i)
  else .inl (s.applyWrite loaderSession x.1 x.2)

/-- All register writes of an image, in file order. The item index that a `REGISTER` failure carries counts them over all
records of the image (log 105). -/
def allWrites (rs : List Rec) : List (Nat × Word) := (rs.filter fun r => r.typ == 0x0301).flatMap fun r => r.writes

/-! ### Tables (R52, R223, R320, R334 to R343, R348, R354, R363, R443, R471) -/

/-- Reserved bits of a result (R328). Bits 7 and 6 of byte 0 count as reserved in a wildcard rule too (log 135). -/
def resultForm (b : Bytes) : Bool := beAt b 0 1 / 64 == 0 && beAt b 4 1 % 32 == 0 && allZero (bytesAt b 5 3)

/-- One edit of an action record (R337). -/
def editOk (b : Bytes) : Bool :=
  let op := beAt b 0 1
  let len := beAt b 2 1
  let at_ := beAt b 3 1
  decide (1 ≤ op ∧ op ≤ 3 ∧ 1 ≤ len ∧ len ≤ 32 ∧ at_ ≤ 31) && (op == 3 || decide (at_ + len ≤ 32)) && allZero (bytesAt b 4 2)

/-- An action record. -/
def actionOk (b : Bytes) : Bool :=
  let kind := beAt b 0 1
  let dest := beAt b 2 2
  let n := beAt b 4 1
  decide (kind ≤ 2 ∧ beAt b 1 1 ≤ 15 ∧ n ≤ 4) && allZero (bytesAt b 5 3)
    && (kind != 1 || decide (dest < 512)) && (kind != 2 || decide (dest < 16384))
    && (List.range 4).all fun i =>
      let e := bytesAt b (8 + 6 * i) 6
      if i < n then editOk e else allZero e

/-- A policer entry (R348). -/
def policerOk (b : Bytes) : Bool :=
  let f := beAt b 0 1
  !f.testBit 4 && allZero (bytesAt b 8 8) && (!f.testBit 6 || beAt b 4 1 == 0)
    && (!f.testBit 7 || decide (1 ≤ beAt b 1 3 ∧ 1 ≤ beAt b 4 4))

/-- A queue entry (R354). -/
def queueOk (b : Bytes) : Bool :=
  let f := beAt b 0 1
  bitsOf f 6 2 == 0 && allZero (bytesAt b 11 5) && (!f.testBit 7 || decide (1 ≤ beAt b 1 1))

/-- Whether the content of entry `i` of a table keeps the rules of its chapter. -/
def entryContent (t i : Nat) (b : Bytes) : Bool :=
  match t with
  | 0x0D00 => beAt b 104 1 % 128 == 0 && allZero (bytesAt b 105 7) && resultForm (bytesAt b 96 8)
  | 0x0D01 => actionOk b
  | 0x0D02 => decide (beAt b 0 4 % 32 + 0x8000 * bitsOf (beAt b 0 4) 15 15 = beAt b 0 4)
  | 0x0D03 => resultOk (bytesAt b 40 8)
  | 0x0D04 => beAt b 0 2 % 0x8000 == 0 && decide (beAt b 2 2 < 16384 ∧ beAt b 4 2 < 16384) && allZero (bytesAt b 6 2)
  | 0x0E00 => i == 0 || policerOk b
  | 0x0E01 => queueOk b
  | 0x1100 => fcalOk b
  | _ => true

/-- The entries of a table record. -/
def Rec.entries (r : Rec) : List Bytes := (List.range (r.u32 12)).map fun i => bytesAt r.data (16 + r.u32 8 * i) (r.u32 8)

/-- Whether a table record has a table of the image, its entry size, an index range inside it, and entries that keep the
rules of the table's chapter (R52). -/
def State.tableOk (s : State) (r : Rec) : Bool :=
  match s.tableShape (r.u32 0) with
  | none => false
  | some (size, count) =>
    r.u32 8 == size && decide (r.u32 4 + r.u32 12 ≤ count)
      && (r.u32 0 != 0x0D03 || r.u32 4 == 0) && (r.u32 0 != 0x1100 || r.u32 12 == 1)
      && ((List.range (r.u32 12)).zip r.entries).all fun x => entryContent (r.u32 0) (r.u32 4 + x.1) x.2

/-- Writes an entry of a class M or gate table to the copy in force. -/
def State.entryTake (s : State) (t i : Nat) (b : Bytes) : State :=
  let n := b.length / 4
  let tables := (List.range n).foldl (fun m k =>
    sparseSet (fun _ => 0) (tblKey t (n * i + k)) (BitVec.ofNat 32 (beAt b (4 * k) 4)) m) s.tables
  ({ s with tables := tables }).sramWrite 3 ((List.range n).map fun k => tblKey t (n * i + k))

/-- An entry of a class M or gate table takes force, with what its change does to its unit (R353, R354). -/
def State.entryApply (s : State) (t i : Nat) (b : Bytes) : State :=
  let pol := s.polEntry i
  let q := s.queueEnt i
  let s := s.entryTake t i b
  if t = polTable then s.polChanged i pol else if t = queueTable then s.queueChanged i q else s

/-- A configuration entry of a device counter, judged as its register would be but for the chains (R471). -/
def State.counterEntry (s : State) (i : Nat) (b : Bytes) : Option State :=
  let off := Reg.PMC_CFG0 + 4 * i
  let w := BitVec.ofNat 32 (beAt b 0 4)
  match regDesc off with
  | none => none
  | some d =>
    if valuesOk d w && s.valueOk off w then some ((s.setReg off (w &&& storedMask d)).pmcWrote i) else none

/-- A slot table entry of a full image: the copy that both directions use takes it (R40). -/
def State.slotLoad (s : State) (p : Path) (i e : Nat) : State :=
  s.updPcnt p fun x => { x with tx := x.tx.set i e, rx := x.rx.set i e }

/-- A table record of a full image has written the copy in force of a double-buffered table, which is copied into the
next copy (R40): whatever register writes had put there before is gone (log 99). -/
def State.copyNext (s : State) (t : Nat) : State :=
  match t with
  | 0x0A00 => s.updPcnt .a fun x => { x with next := x.tx }
  | 0x0A01 => s.updPcnt .b fun x => { x with next := x.tx }
  | 0x0E02 => s.gateRefill .a
  | 0x0E03 => s.gateRefill .b
  | _ => s

/-- One entry of a table at full load: it writes the copy in force. -/
def State.loadEntry (s : State) (t i : Nat) (b : Bytes) : Option State :=
  match t with
  | 0x0A00 => some (s.slotLoad .a i (beAt b 0 4))
  | 0x0A01 => some (s.slotLoad .b i (beAt b 0 4))
  | 0x0D03 => match s.insertKey (b.take 40) (storedResult (bytesAt b 40 8) false) with
    | (s, code, _) => if code = fOk then some s else none
  | 0x1100 => some (s.fcalTake b)
  | 0x1200 => s.counterEntry i b
  | _ => some (s.entryApply t i b)

/-- A `TABLE_LOAD` record at full load. -/
def State.loadTable (s : State) (n : Nat) (r : Rec) : Applied :=
  if !s.tableOk r then .inr (flTable, n)
  else
    let step (s : State) (i : Nat) (b : Bytes) : Applied :=
      match s.loadEntry (r.u32 0) i b with | some t => .inl t | none => .inr (flTable, n)
    (applyItems step (r.u32 4) r.entries s).andThen fun s =>
      if r.u32 0 = 0x1200 ∧ !(List.range (r.u32 12)).all (fun k => chainsOk s.pmcCfg (r.u32 4 + k)) then .inr (flTable, n)
      else .inl (s.copyNext (r.u32 0))

/-- Bits that the instructions of an opcode use (R318, R319); none for a reserved opcode. -/
def instrMask (op : Nat) (byReg : Bool) : Option Nat :=
  let a := 0x03C00000
  let b := 0x003C0000
  let c := 0x0003C000
  match op with
  | 0x00 => some 0xFF
  | 0x01 => some 0
  | 0x02 => some (a + 0x300 + 0xFF)
  | 0x03 => some (a + 0x300 + b)
  | 0x04 => some (a + 0xFFFF)
  | 0x05 => some (a + 0xFFFF)
  | 0x18 => some (b + c)
  | 0x19 => some (b + 0xFFFF)
  | 0x1C => some (a + 0x3FFF)
  | 0x20 => some (0x10000 + if byReg then b else 0xFF)
  | 0x21 => some b
  | 0x24 => some (a + 0x1F00 + 0xFF)
  | 0x25 => some (a + b)
  | 0x28 => some b
  | 0x29 => some 0xFF
  | 0x30 => some 0
  | 0x13 => some (a + b + 0x1F)
  | 0x14 => some (a + b + 0x1F)
  | _ => if 0x08 ≤ op ∧ op ≤ 0x0E then some (a + b + c) else if 0x10 ≤ op ∧ op ≤ 0x12 then some (a + b + 0x3FFF) else none

/-- Bytes of a key field; 0 for a reserved one (R319). -/
def keyFieldSize (a : Nat) : Nat :=
  match a with | 0 => 16 | 1 => 16 | 2 => 2 | 3 => 2 | 4 => 1 | 5 => 3 | 6 => 4 | _ => 0

/-- The loader's check of an engine instruction (R320). -/
def engineWordOk (w : Nat) : Bool :=
  let op := bitsOf w 31 26
  let a := bitsOf w 25 22
  let len := bitsOf w 12 8
  match instrMask op (w.testBit 16) with
  | none => false
  | some m =>
    decide (w % 0x04000000 &&& m = w % 0x04000000)
      && (!(op == 0x02 || op == 0x03) || bitsOf w 9 8 != 3)
      && (op != 0x1C || decide (a ≤ 4))
      && (op != 0x25 || decide (a ≤ 6))
      && (op != 0x24 || (decide (a ≤ 6 ∧ 1 ≤ len ∧ len ≤ keyFieldSize a) && (decide (2 ≤ a) || len == 4 || len == 16)))

/-- A `PROGRAM_LOAD` record. -/
def State.loadProgram (s : State) (n : Nat) (r : Rec) : Applied :=
  let first := r.u32 0
  let ws := r.words 8 (r.u32 4)
  if !s.inst 2 || decide (16384 < first + r.u32 4) || !ws.all engineWordOk then .inr (flTable, n)
  else
    let store := sparseSetList (fun _ => 0) first (ws.map fun w => BitVec.ofNat 32 w) s.rte.program
    .inl (s.setRte fun x => { x with program := store })

/-- A record of the table section. -/
def State.loadTables (s : State) (n : Nat) (r : Rec) : Applied :=
  if r.typ = 0x0402 then s.loadProgram n r else s.loadTable n r

/-! ### Guard rails (R39, R168) -/

/-- Whether a loop belongs to a unit that is present. -/
def State.loopPresent (s : State) (id : Nat) : Bool :=
  (loopKind id).isSome && (id / 0x1000 == 0 || id / 256 % 16 == 5 || id / 256 % 16 == 6 || s.pathUp (loopPath id))

/-- The bounds that a `GUARD_RAIL` record gives. -/
def Rec.railMin (r : Rec) : Int := signedOf 32 (r.u32 4)
def Rec.railMax (r : Rec) : Int := signedOf 32 (r.u32 8)

/-- Whether a `GUARD_RAIL` record names a loop that is present and keeps the first three rules of R168. -/
def State.railFormOk (s : State) (r : Rec) : Bool :=
  s.loopPresent (r.u16 0) && railForm (r.u16 0) r.railMin r.railMax (r.u32 12)

/-- A `GUARD_RAIL` record has the effect of the writes of the pending set and of `APPLY` (R168). -/
def State.railRec (s : State) (r : Rec) : State :=
  let take (f : State → Nat → Int → Int → Nat → Bool → Nat → State) (s : State) : State :=
    f s (r.u16 0) r.railMin r.railMax (r.u32 12) ((r.u16 2).testBit 0) (r.u32 16)
  take State.railTake (take State.railPend s)

/-- A `GUARD_RAIL` record of a full image. The profiles follow the rails when the load is done (R169). -/
def State.loadRail (s : State) (n : Nat) (r : Rec) : Applied :=
  if s.railFormOk r && s.railFits (r.u16 0) r.railMax then .inl (s.railRec r) else .inr (flRegister, n)

/-! ### The end of a load (R49, R152, R363, R520) -/

/-- Generations, coefficient set and next copies of a path at full load. -/
def State.pathLoaded (s : State) (p : Path) : State :=
  if !s.pathUp p then s
  else
    let w (off : Nat) : BitVec 16 := BitVec.ofNat 16 (s.fld off 15 0)
    let slot := w (match p with | .a => Reg.CNT_SLOT_GEN_A | .b => Reg.CNT_SLOT_GEN_B)
    let gate := w (match p with | .a => Reg.SCH_GATE_GEN_A | .b => Reg.SCH_GATE_GEN_B)
    let coef := w (pathReg p Reg.PA_TXD_COEF_GEN)
    let g : Gens := ⟨slot, 0, 0, gate, coef, 0⟩
    (s.coefTake p).updMstPath p fun m => { m with tx := g, rx := g, staged := [], rxStaged := [] }

/-- Step 9, and the events of the load. -/
def State.loadDone (s : State) (src : Nat) (img : Bytes) : State :=
  let s := ((s.pathLoaded .a).pathLoaded .b).binsStart
  let s := s.setRte fun r => { r with
    active := true, src := src, version := beAt img 10 1, gen := BitVec.ofNat 32 (beAt img 12 4), amdNum := 0
    digest := sha384 (img.take (sigStart img)), advance := (beAt img 7 1).testBit 0, fabric := r.fabric + 1, op := none }
  let s := ((((s.lanesUp.overCheck).selfLevel .a).selfLevel .b).contLocals .a).contLocals .b
  let s := s.raise 256 0 0 src 0
  if s.pwr.booted then s
  else (s.updPwr fun x => { x with booted := true }).raise 292 0 0 s.pwr.cause s.pwr.count

/-- The records of an image under its fill grant, after the structure records (R40). -/
def State.loadRecords (s : State) (src : Nat) (img : Bytes) : State :=
  let rs := imageRecs img
  let s := ((s.structureTake rs).fillAll rs).rteOp .applying
  let s := s.setGrant 6 0
  let done := (((applyItems State.loadItem 0 (allWrites rs) s).andThen (applyRecs State.loadTables 4 rs)).andThen
    (applyRecs State.loadRail 5 rs))
  match done with
  | .inr f => s.loadBroken f
  | .inl t => if t.pwr.inReset then t else t.loadDone src img

/-- Step 8: the teardown, the fill directives' rules, and the grant of the fill section (R41, R49, R50). -/
def State.loadApply (s : State) (src : Nat) (img : Bytes) : State :=
  let rs := imageRecs img
  let g := imageCfg rs
  let s := if s.rte.active then s.teardown else s
  match fillFault (g.has 2) rs with
  | some f => s.loadBroken f
  | none =>
    if !needsFill rs then s.loadRecords src img
    else
      let s := s.rteOp (.fillWait src g.base img)
      match s.rowAnswer 1200 with
      | .granted => (s.setGrant 6 1200).loadRecords src img
      | .queued => s.enqueue 6 1200
      | .denied => (s.noteDenied 6).loadBroken (flRow, 0)

/-- Steps 2 to 9 on the first `n` bytes of staging. -/
def State.loadFrom (s : State) (src n : Nat) : State :=
  match s.readStaging n with
  | (s, .inr f) => s.rteFail 257 f
  | (s, .inl img) => match s.imageFault img with
    | some f => s.rteFail 257 f
    | none => s.loadApply src img

/-- A slot's content is copied into staging before anything is verified (R46). -/
def State.loadSlot (s : State) (src : Nat) (x : Bytes) (ups : Upsets) : State :=
  ((s.copySlot x).suffer ups).loadFrom src x.length

/-- A load from slot A or B whose content has been read: a flash error fails the load, whatever the slot holds (R49,
R510). -/
def State.loadNamed (s : State) (src : Nat) (flashError : Option Nat) (ups : Upsets) : State :=
  match flashError, s.slotBytes (src == 2) with
  | some n, _ => s.rteFail 257 (flFlashRead, n)
  | none, none => s.rteFail 257 (flNoImage, 0)
  | none, some x => s.loadSlot src x ups

/-- A load in auto chooses its slot when both have been read (R48). -/
def State.loadAuto (s : State) (flashError : Option Nat) (ups : Upsets) : State :=
  match s.autoSelect flashError with
  | (s, .inl k) => s.loadNamed k none ups
  | (s, .inr f) => s.rteFail 257 f

/-- `LOAD_FINISHED`: the source has been read. Deciphering a slot waits for the sector key, which the trust core has
once it has released OTP (R492). -/
def execLoadFinished (flashError : Option Nat) (ups : Upsets) : State → Host.Outcome State Fault Refusal :=
  complete fun s =>
    match s.rte.op with
    | some (.load src) =>
      if src = 3 then (s.suffer ups).loadFrom src s.rteLen
      else if !s.tru.ready then s
      else if src = 0 then s.loadAuto flashError ups
      else s.loadNamed src flashError ups
    | _ => s

end Sys2Proof.Machine
end

