-- ==== Sys2Proof/Machine/Amend.lean ====
section
/-!
DEFINITION. Route amendments (R53 to R55, R143, R166, R170): what accepts one, what an accepted one stages, and what
applies at its milestone.
-/
namespace Sys2Proof.Machine

/-- Whether a record changes m or FEC of a path. -/
def modeChanged (old new : Option PathMode) : Bool :=
  match old, new with
  | some o, some n => o.m != n.m || o.fec != n.fec
  | _, _ => false

/-- A table that an amendment may load: double-buffered or of class M. -/
def amdTables : List Nat := [0x0A00, 0x0A01, 0x0D00, 0x0D01, 0x0D02, 0x0D04, 0x0E00, 0x0E01, 0x0E02, 0x0E03]

/-- Tables of class M. -/
def classMTables : List Nat := [0x0D00, 0x0D01, 0x0D02, 0x0D04, 0x0E00, 0x0E01]

def hasTable (rs : List Rec) (t : Nat) : Bool := rs.any fun r => r.typ == 0x0401 && r.u32 0 == t

/-- Writes whose register lies in a path's own block. -/
def pathWrites (rs : List Rec) (p : Path) : List (Nat × Word) :=
  (allWrites rs).filter fun x => blockOf x.1 == 3 + pathNum p

/-- Whether an amendment writes the coefficient set of a path (R67, R152). -/
def coefWrites (rs : List Rec) (p : Path) : Bool :=
  (allWrites rs).any fun x =>
    let b := baseOff x.1
    (isCoefOff b || b == Reg.PA_CNV_BASIC || b == Reg.PA_TXD_BASIC || b == Reg.PA_TXD_COEF_GEN) && x.1 == pathReg p b

/-- The kinds that an amendment sets on a path. -/
def State.amdKinds (s : State) (g : ImageCfg) (rs : List Rec) (p : Path) : BitVec 7 :=
  if !s.pathUp p then 0
  else
    let mode := modeChanged (s.mode p) (g.mode p)
    let bit (i : Nat) (b : Bool) : Nat := if b then 2 ^ i else 0
    BitVec.ofNat 7 (bit 0 (hasTable rs (0x0A00 + pathNum p) || g.slots p != (s.pcnt p).tx.length) + bit 2 mode + bit 5 mode
      + bit 3 (hasTable rs (0x0E02 + pathNum p)) + bit 4 (coefWrites rs p) + bit 6 (!(pathWrites rs p).isEmpty))

/-- Whether an amendment changes something outside the paths' own units by bit 6. -/
def deviceShadow (rs : List Rec) : Bool :=
  classMTables.any (hasTable rs) || (allWrites rs).any fun x => blockOf x.1 != 3 && blockOf x.1 != 4

/-- Another change that is under way and that the amendment would disturb: a levelling change (R166), or a next copy
that is frozen or not released (R73, R80), for which the spec names no code (log 133). -/
def State.amdBlocked (s : State) (g : ImageCfg) (rs : List Rec) : Bool :=
  [Path.a, Path.b].any fun p =>
    let k := s.amdKinds g rs p
    (List.range 6).any (fun i => hasKind k i && s.nextLocked p i) || (hasKind k 5 && (s.trk p).change.isSome)

/-! ### Records (R53) -/

/-- Whether a connection names an endpoint. -/
def ImageCfg.names (g : ImageCfg) (typ num : Nat) : Bool := (g.endsOf typ).any fun e => e.num == num

/-- A port or lane record: a removal of what has a record and no connection that remains, or a record that leaves a port
of a retained connection as it was. -/
def State.wiringOk (s : State) (g : ImageCfg) (r : Rec) : Bool :=
  let old := s.rte.cfg
  let kept (typ num : Nat) : Bool := old.conns.any fun c => g.conns.contains c && c.ends.any fun e => e.typ == typ && e.num == num
  if r.typ = 0x0103 then
    let had := old.ports.find? fun x => x.num == r.u8 0
    if r.removes then had.isSome && !g.names 0 (r.u8 0)
    else !(kept 0 (r.u8 0)) || had == some r.port
  else
    let had := old.lanes.find? fun x => x.1 == r.u8 0
    if r.removes then had.isSome && !g.names 1 (r.u8 0)
    else !(kept 1 (r.u8 0)) || had == some (r.u8 0, r.u8 1)

/-- One register write of an amendment: of classes L and M only, and one that neither the locks of the active image, which
`old` has (R57), nor anything else would refuse. -/
def State.amdItem (old s : State) (n : Nat) (x : Nat × Word) : Applied :=
  let held := match regDesc x.1 with
    | some d =>
      let change := x.2 ^^^ s.storedWord x.1 d
      change &&& idleMask d != 0 || (old.rwlLocked x.1 && change &&& lockMask d != 0)
        || (!d.basic && old.expertLocked x.1)
    | none => true
  if held || refusedCode (s.judge .load x.1 x.2) then .inr (flAmdRecord, n) else .inl (s.applyWrite loaderSession x.1 x.2)

/-- A record is judged on a copy of the device that has the resulting configuration; `old` is the device. The levelling
rails of a path whose m or FEC changes are judged together against the new B, once all are in place (R170). -/
def State.amdRec (old s : State) (n : Nat) (r : Rec) : Applied :=
  let need (b : Bool) : Applied := if b then .inl s else .inr (flAmdRecord, n)
  match r.typ with
  | 0x0102 =>
    let p := pathOf (r.u8 0)
    need (match old.mode p with
      | some m => old.pathUp p && r.mode.k == m.k && r.mode.tracks == m.tracks
      | none => false)
  | 0x0103 => need (old.wiringOk s.rte.cfg r)
  | 0x0104 => need (old.wiringOk s.rte.cfg r)
  | 0x0105 => need true
  | 0x0106 => need true
  | 0x0301 => applyItems (fun t _ x => old.amdItem t n x) 0 r.writes s
  | 0x0401 => need (amdTables.contains (r.u32 0) && s.tableOk r)
  | 0x0501 =>
    let p := loopPath (r.u16 0)
    let later := isLevelId (r.u16 0) && modeChanged (old.mode p) (s.mode p)
    if s.railFormOk r && (later || s.railFits (r.u16 0) r.railMax) then .inl (s.railRec r) else .inr (flAmdRecord, n)
  | 0x0601 => need true
  | 0x0602 => need true
  | 0x0603 => need true
  | _ => .inr (flAmdRecord, n)

/-! ### The resulting configuration -/

/-- The slot table of a path after the amendment. -/
def State.amdSlots (s : State) (g : ImageCfg) (rs : List Rec) (p : Path) : List Nat :=
  let n := g.slots p
  let now := (s.pcnt p).tx.take n
  slotsWith rs p n (now ++ List.replicate (n - now.length) 0)

/-- `STRUCTURE`: the checks of R18, the record rules of R39 with R223, and the rail check of R170. `t` is the copy that
has taken the amendment's rails. -/
def State.amdStructure (s t : State) (g : ImageCfg) (rs : List Rec) : Option (Nat × Nat) :=
  let both := [Path.a, Path.b]
  match r18Fault g s.fused rs with
  | some n => some (flStructure, n)
  | none =>
    if !(rs.all (fun r => r.ok true) && g.rulesOk && both.all fun p => !g.has (pathNum p) || g.slotsOk p (s.amdSlots g rs p))
    then some (flStructure, 10)
    else if both.all fun p => !modeChanged (s.mode p) (g.mode p) || (match g.mode p with
        | some m => m.fitsMax ((t.levelRails p).map fun r => (r.2 : Int))
        | none => true)
    then none
    else some (flStructure, 11)

/-- The milestone time that the host has set for an amendment. -/
def State.amdTime (s : State) : Nat × Nat :=
  (s.fld Reg.RTE_AMD_TIME_SEC_HI 15 0 * 2 ^ 32 + (s.reg Reg.RTE_AMD_TIME_SEC_LO).toNat, (s.reg Reg.RTE_AMD_TIME_NS).toNat)

/-- The checks that tie an amendment to the active image, up to the pending one. -/
def State.amdBase (s : State) (b : Bytes) : Option (Nat × Nat) :=
  if !s.rte.active || beAt b 24 4 != s.rte.gen.toNat || bytesAt b 32 48 != s.rte.digest then
    some (flAmdBase, 0)
  else if beAt b 28 2 ≠ s.rte.amdNum + 1 then some (flAmdSeq, s.rte.amdNum + 1)
  else if s.rte.amd.isSome || s.amdBlocked (amendCfg s.rte.cfg (imageRecs b)) (imageRecs b) then some (flAmdPending, 0)
  else none

/-- The copy on which an amendment's records are judged, after all of them, or the failure. -/
def State.amdTrial (s : State) (g : ImageCfg) (rs : List Rec) : Applied :=
  applyItems (fun t _ x => s.amdRec t x.1 x.2) 0 (indexed rs) (s.setRte fun r => { r with cfg := g })

/-- What refuses an amendment after its verification, or the copy with its rails. -/
def State.amdJudge (s : State) (b : Bytes) : Applied :=
  let rs := imageRecs b
  let g := amendCfg s.rte.cfg rs
  let (sec, ns) := s.amdTime
  match (((s.fileFault b 2 b.length).orElse fun _ => sectionFault b).orElse fun _ => s.amdBase b) with
  | some f => .inr f
  | none => (s.amdTrial g rs).andThen fun t =>
    match s.amdStructure t g rs with
    | some f => .inr f
    | none =>
      if sec * 1000000000 + ns < s.now + superframes64 then .inr (flAmdNotice, 0)
      else if 64 ≤ s.mst.queue.length then .inr (flQueue, 0)
      else .inl t

/-! ### Acceptance (R54, R143) -/

/-- The next copies that an amendment stages on a path; `t` has its rails. -/
def State.amdStage (s t : State) (g : ImageCfg) (rs : List Rec) (p : Path) : State :=
  let k := s.amdKinds g rs p
  let gens := (s.mstPath p).tx
  let m := (g.mode p).getD (s.txMode p)
  let s :=
    if hasKind k 0 then
      let reg := match p with | .a => Reg.CNT_SLOT_GEN_A | .b => Reg.CNT_SLOT_GEN_B
      let s := s.updPcnt p fun x => { x with next := s.amdSlots g rs p }
      (s.setFld reg 15 0 (gens.slot + 1).toNat).stage p 0 (gens.slot + 1)
    else s
  let s :=
    if hasKind k 5 then
      let s := s.updPath p fun x => { x with rxModeNext := some m }
      let prof := fitRails m (t.levelRails p) m.uniform
      let s := (s.profStage p m prof).updTrk p fun x => { x with rxProfNext := prof, rxNextGen := gens.track + 1 }
      ((s.stage p 5 (gens.mode + 1)).stage p 2 (gens.track + 1)).stageRx p 2 (gens.track + 1)
    else s
  let s :=
    if hasKind k 4 then
      let g := if t.coefNext p = gens.coef.toNat then gens.coef + 1 else BitVec.ofNat 16 (t.coefNext p)
      ((s.coefFrom p t.cfg).setFld (pathReg p Reg.PA_TXD_COEF_GEN) 15 0 g.toNat).stage p 4 g
    else s
  if hasKind k 3 then
    let reg := match p with | .a => Reg.SCH_GATE_GEN_A | .b => Reg.SCH_GATE_GEN_B
    let put (s : State) (r : Rec) : State :=
      ((List.range (r.u32 12)).zip r.entries).foldl (fun s x =>
        s.setRegI Reg.SCH_GATE_DATA (16384 * pathNum p + r.u32 4 + x.1) (BitVec.ofNat 32 (beAt x.2 0 4))) s
    let s := (rs.filter fun r => r.typ == 0x0401 && r.u32 0 == 0x0E02 + pathNum p).foldl put (s.gateRefill p)
    (s.setFld reg 15 0 (gens.gate + 1).toNat).stage p 3 (gens.gate + 1)
  else s

/-- The entries of the class M tables that an amendment loads. -/
def amdEntries (rs : List Rec) : List (Nat × Nat × Bytes) :=
  (rs.filter fun r => r.typ == 0x0401 && classMTables.contains (r.u32 0)).flatMap fun r =>
    ((List.range (r.u32 12)).zip r.entries).map fun x => (r.u32 0, r.u32 4 + x.1, x.2)

/-- An accepted amendment is staged and enters the milestone queue. Its class M writes wait in the amendment, not in the
shadows that the host reads and writes (log 134). -/
def State.amdAccept (s t : State) (b : Bytes) : State :=
  let rs := imageRecs b
  let g := amendCfg s.rte.cfg rs
  let kA := s.amdKinds g rs .a
  let kB := s.amdKinds g rs .b
  let (sec, ns) := s.amdTime
  let dev : BitVec 7 := if deviceShadow rs then 0x40 else 0
  let num := beAt b 28 2
  let n : NewEntry :=
    { sec := sec, ns := ns, device := true, pathA := kA != 0, pathB := kB != 0, kinds := kA ||| kB ||| dev,
      owner := .loader, amdNum := num, per := some (kA, kB, deviceShadow rs) }
  let h := s.newHandle
  let a : Amendment :=
    { num := num, cfg := g, writes := allWrites rs, tables := amdEntries rs
      rails := (rs.filter fun r => r.typ == 0x0501).map fun r => r.data
      handle := h, rewire := rs.any fun r => r.typ == 0x0106, kindsA := kA, kindsB := kB }
  let s := (s.amdStage t g rs .a).amdStage t g rs .b
  let s := s.setRte fun r => { r with amd := some a, op := none }
  (s.enterEntry n h).raise 258 0 0 num h

/-- `AMEND_VERIFIED`. -/
def execAmendVerified (ups : Upsets) : State → Host.Outcome State Fault Refusal :=
  complete fun s =>
    if s.rte.op ≠ some .amend then s
    else
      let s := s.suffer ups
      match s.readStaging s.rteLen with
      | (s, .inr f) => s.rteFail 260 f
      | (s, .inl b) => match s.amdJudge b with
        | .inr f => s.rteFail 260 f
        | .inl t => s.amdAccept t b

/-! ### The milestone of an amendment -/

/-- The words that wait under a register key take force. -/
def State.shadowTake (s : State) (key : Nat) : State :=
  match noted s.shadow key with
  | none => s
  | some w =>
    let m := match regDesc (key % 0x4000000) with | some d => milestoneMask d | none => 0
    { s with cfg := sparseSet regReset key (mergeWrite m (sparseGet regReset s.cfg key) w) s.cfg
             shadow := sparseDrop (fun k => k == key) s.shadow }

/-- Words of the class M tables take force and wait no longer, with what a changed policer or queue entry does (R343, R353,
R354). -/
def State.wordsTake (s : State) (ks : Sparse Word) : State :=
  let entries (t : Nat) : List Nat :=
    ((ks.filter fun x => x.1 / 0x1000000 == t).map fun x => x.1 % 0x1000000 / entryWords t).eraseDups
  let pols := (entries polTable).map fun i => (i, s.polEntry i)
  let queues := (entries queueTable).map fun i => (i, s.queueEnt i)
  let s : State :=
    { s with tables := ks.foldl (fun m x => sparseSet (fun _ => 0) x.1 x.2 m) s.tables
             tblShadow := sparseDrop (fun k => ks.any fun x => x.1 == k) s.tblShadow }
  let s := s.sramWrite 3 (ks.map fun x => x.1)
  let s := pols.foldl (fun s x => s.polChanged x.1 x.2) s
  queues.foldl (fun s x => s.queueChanged x.1 x.2) s

/-- A register write of an amendment at its milestone: class M fields too take force, and so does the word of a table
window (R53, R55). -/
def State.amdWrite (s : State) (x : Nat × Word) : State :=
  let key := regKey x.1 (s.item x.1)
  let s := (s.applyWrite loaderSession x.1 x.2).shadowTake key
  if x.1 = Reg.PKT_TBL_DATA ∨ x.1 = Reg.SCH_TBL_DATA then
    let (t, i, k, _) := s.tblSel x.1
    s.wordsTake [(tblKey t (entryWords t * i + k), x.2)]
  else s

/-- Ports and lanes that a new configuration takes away leave lock; new ones come up under the host lane rules. -/
def State.wiring (s : State) (old : ImageCfg) : State :=
  let g := s.rte.cfg
  let s := (old.ports.filter fun r => !g.ports.contains r).foldl (fun s r =>
    if (s.port r.num).state = 0 then s else s.portEnter r 0 0) s
  let s := (g.ports.filter fun r => !old.ports.contains r).foldl (fun s r =>
    s.portEn r.num (flagOf (s.regI Reg.HSF_PORT_CTRL r.num) 0)) s
  let s := (old.legacyLanes.filter fun l => !g.legacyLanes.contains l).foldl (fun s l =>
    if (s.lane l).state = 0 then s else s.laneEnter l 0) s
  (g.legacyLanes.filter fun l => !old.legacyLanes.contains l).foldl (fun s l =>
    s.laneEn l (flagOf (s.regI Reg.HSL_LANE_CTRL l) 0)) s

/-- Containers that are removed lose their queues and their state; a container with a new connection drops what its old
client left; conditions that enter a defect at once enter it for the containers that are new (R262). -/
def State.contsTake (s : State) (old : ImageCfg) : State :=
  let g := s.rte.cfg
  let s := (old.conts.filter fun c => (g.cont c.path c.num).isNone).foldl (fun s c =>
    (s.flushCont c.path c.num).updCont c.path c.num fun _ => freshCont) s
  let s := (g.conts.filter fun c => old.connOf c.path c.num != g.connOf c.path c.num).foldl (fun s c =>
    s.updCont c.path c.num fun x => { x with buf := [], qual := false, delin := 0, stream := [] }) s
  (s.contLocals .a).contLocals .b

/-- Host words that wait for an entry which an amendment has written: the amendment's value stands (R55). -/
def State.entryOver (s : State) (t i : Nat) (b : Bytes) : State :=
  let n := b.length / 4
  { s with tblShadow := sparseDrop (fun k => decide (tblKey t (n * i) ≤ k ∧ k < tblKey t (n * i) + n)) s.tblShadow }

/-- The pending amendment applies as one change (R54): configuration, register writes, class M tables, rails and locks.
Rails that exclude the profiles in force change them (R169). -/
def State.amdApply (s : State) : State :=
  match s.rte.amd with
  | none => s
  | some a =>
    let old := s.rte.cfg
    let s := s.setRte fun r => { r with
      cfg := a.cfg, amdNum := a.num, fabric := if a.rewire then r.fabric + 1 else r.fabric, amd := none }
    let s := (s.wiring old).contsTake old
    let s := a.writes.foldl (fun s x => s.amdWrite x) s
    let s := a.tables.foldl (fun s e => (s.entryApply e.1 e.2.1 e.2.2).entryOver e.1 e.2.1 e.2.2) s
    let s := a.rails.foldl (fun s b => s.railRec ⟨0x0501, b⟩) s
    ((s.overCheck.selfLevel .a).selfLevel .b).raise 259 0 0 a.num 0

end Sys2Proof.Machine
end

