-- ==== Sys2Proof/Machine/Apply.lean ====
section
/-!
DEFINITION. Applying milestones: the transmit side of a path on its target frame (R69, R74), class M shadows (R70),
device-scope entries (R72), and the receive side's applications (R79).
-/
namespace Sys2Proof.Machine

/-! ### Class M shadows (R70) -/

/-- Whether a waiting word belongs to a path's own units. -/
def pathKey (p : Path) (key : Nat) : Bool := blockOf (key % 0x4000000) == 3 + pathNum p

def deviceKey (key : Nat) : Bool := !pathKey .a key && !pathKey .b key

/-- The waiting register words of the units that a scope covers take force. -/
def State.shadowsTake (s : State) (covers : Nat → Bool) : State :=
  ((s.shadow.map fun e => e.1).filter covers).foldl (fun s key => s.shadowTake key) s

/-- All waiting words of the class M tables take force. -/
def State.tablesTake (s : State) : State := s.wordsTake s.tblShadow

/-! ### The transmit side (R74) -/

/-- The transmit generation of a kind takes the frozen value, and its next copy is no longer staged. -/
def State.txGen (s : State) (p : Path) (k : Nat) (g : BitVec 16) : State :=
  s.updMstPath p fun m => { m with tx := m.tx.set k g, staged := unstage m.staged k }

/-- The containers of both paths that hold transmit slots. -/
def State.slotHolders (s : State) : List (Path × Nat) :=
  ([Path.a, Path.b].flatMap fun q => (s.contsOf q).map fun c => (q, c)).filter fun x => s.txSlots x.1 x.2 != []

/-- The slot table swap of the transmit direction: containers that lose all their slots lose their queues (R233,
R354). -/
def State.slotTxApply (s : State) (p : Path) (g : BitVec 16) : State :=
  let old := s.slotHolders
  let s := s.slotTxSwap p g
  (old.filter fun x => s.txSlots x.1 x.2 == []).foldl (fun s x => s.flushCont x.1 x.2) s

/-- One kind applies at the transmit side with the frozen generation `g`, and its record; the target frame begins at
scheduler time `start` (R74, R82, R363). -/
def State.txApply (s : State) (p : Path) (start k : Nat) (g : BitVec 16) : State :=
  let old := (s.mstPath p).tx.get k
  let s := match k with
    | 0 => s.slotTxApply p g
    | 1 => s.keyTxMove p g
    | 2 => (s.updTxd p fun x => { x with prof := x.profNext }).txGen p 2 g
    | 3 => (s.gateApply p start).txGen p 3 g
    | 4 => (s.coefTake p).txGen p 4 g
    | _ => s.txGen p 5 g
  s.genRec 296 p k false old g

/-- Whether an entry's part on a path has its target at or before frame `f`, and is not done. -/
def QEntry.reached (e : QEntry) (p : Path) (f : Nat) : Bool :=
  let x := e.part p
  x.inScope && !x.done && (match x.target with | some t => frameLe t f | none => false)

/-- The amendment of a due entry applies, once (R54). -/
def State.amdDue (s : State) (due : List QEntry) : State :=
  match s.rte.amd with
  | none => s
  | some a => if due.any fun e => e.handle == a.handle then s.amdApply else s

/-- The entries whose target frame is `f`, which begins at scheduler time `start`, or has been missed apply on a path as
one change: kinds once each, then its shadows, then the amendment (R55, R69, R74). A withdrawn entry has nothing left to
do. Event 296 is raised where all kinds were dropped too (log 132). -/
def State.applyPath (s : State) (p : Path) (f start : Nat) : State :=
  let due := s.mst.queue.filter fun e => e.reached p f && !e.withdrawn
  let s := s.updQueue fun e => if e.reached p f then e.updPart p fun x => { x with done := true } else e
  let s := if due.any fun e => match (s.trk p).change with | some c => c.handle == e.handle | none => false
    then s.updTrk p fun t => { t with change := none } else s
  let sent := (f + 2 ^ 48 - 1) % 2 ^ 48
  if due = [] then s.sweepQueue sent
  else
    let kinds := due.foldl (fun k e => k ||| (e.part p).kinds) 0
    let gen (k : Nat) : BitVec 16 := match due.find? (fun e => hasKind (e.part p).kinds k) with
      | some e => (e.part p).frozen.get k
      | none => 0
    let s := ((List.range 6).filter fun k => hasKind kinds k).foldl (fun s k => s.txApply p start k (gen k)) s
    let s := if hasKind kinds 6 then s.shadowsTake (pathKey p) else s
    let s := (s.amdDue due).raise 296 0 (pathNum p) 0 0
    let s := if hasKind kinds 2 then s.selfLevel p else s
    s.sweepQueue sent

/-- `MILESTONE_APPLY`: the frame that begins next is the target frame of the path's due entries (R74). -/
def execMilestoneApply (p : Path) : State → Host.Outcome State Fault Refusal :=
  complete fun s => if s.pathUp p then s.applyPath p ((s.txFc + 1) % 2 ^ 48) ((s.upNs + 1024) * 65536) else s

/-! ### Device scope (R72) -/

/-- The device-scope parts of entries whose time is at or before `t` (2^-32 ns) apply as one change; `sent` is the frame
sent last. An amendment's part raises event 296 even where it changes nothing of this scope (log 132). -/
def State.applyDevice (s : State) (t sent : Nat) : State :=
  let isDue (e : QEntry) : Bool := !e.deviceDone && !e.withdrawn && decide (e.time * oneNs ≤ t)
  let due := s.mst.queue.filter isDue
  if due = [] then s
  else
    let s := s.updQueue fun e => if isDue e then { e with deviceDone := true } else e
    let s := if due.any fun e => e.devShadow then (s.shadowsTake deviceKey).tablesTake else s
    ((s.amdDue due).raise 296 0 2 0 0).sweepQueue sent

/-- `DEVICE_MILESTONE_APPLY`: the frame boundary that comes next is the first one at or after the time of device-scope
entries (R72). -/
def execDeviceMilestoneApply : State → Host.Outcome State Fault Refusal :=
  complete fun s => s.applyDevice (s.boundaryTime + s.frameAdvance) s.txFc

/-! ### The receive side (R79) -/

/-- The receive generation of a kind. -/
def State.rxGen (s : State) (p : Path) (k : Nat) (g : BitVec 16) : State :=
  s.updMstPath p fun m => { m with rx := m.rx.set k g, rxStaged := unstage m.rxStaged k }

/-- One kind applies at the receive side, with its record and event 297 (R79, R82). -/
def State.rxApply (s : State) (p : Path) (k : Nat) (g : BitVec 16) (late : Bool) : State :=
  let old := (s.mstPath p).rx.get k
  let s := match k with
    | 0 => s.slotRxSwap p g
    | 1 => s.keyRxMove p g
    | 2 => ((s.updTrk p fun t => { t with rxProf := t.rxProfNext }).rxGen p 2 g).newCycle p
    | _ => (((s.updPath p fun x => { x with rxMode := x.rxModeNext.orElse fun _ => x.rxMode, rxModeNext := none }).rxGen
        p 5 g).fecModeChange p).newCycle p
  (s.genRec 297 p k late old g).raise 297 (b2n late) (pathNum p) 0 0

/-- The generation of the next copy that the receive direction has yet to take. -/
def State.rxStagedGen (s : State) (p : Path) (k : Nat) : Option (BitVec 16) := stagedGen (s.mstPath p).rxStaged k

end Sys2Proof.Machine
end

