-- ==== Sys2Proof/Machine/Grants.lean ====
section
/-!
DEFINITION. The governor's queue (R487): granting its head, and timing its requests out.
-/
namespace Sys2Proof.Machine

/-- A queued OTP commit gets its grant and runs (R283): the floor of the loader, a repair or a trust core command. -/
def State.commitGranted (s : State) (c : Nat) : State :=
  let s := s.addGrant 10 c
  let s := s.setTru fun t => { t with busy := t.busy.map fun b => { b with waiting := false } }
  let s := { s with mem := { s.mem with repairWait := false } }
  match s.rte.op, s.tru.busy with
  | some .floorWait, some b => s.setRte fun r => { r with op := some (.floorCommit b.aim) }
  | _, _ => s

/-- What a queued request's grant starts: a side of a converter, decoder iterations, the fill of a load, a key agreement,
the self-calibration, an OTP commit. -/
def State.queuedGranted (s : State) (r : RowReq) : State :=
  match r.idx with
  | 0 => (s.setGrant 0 r.cost).startTx .a
  | 1 => (s.setGrant 1 r.cost).startTx .b
  | 2 => s.grantRx .a r.cost
  | 3 => s.grantRx .b r.cost
  | 4 => s.iterGranted .a
  | 5 => s.iterGranted .b
  | 6 => match s.rte.op with
    | some (.fillWait src _ img) => (s.setGrant 6 r.cost).loadRecords src img
    | _ => s
  | 7 => s.vGranted .a
  | 8 => s.vGranted .b
  | 9 => (s.addGrant 9 r.cost).calStart
  | _ => s.commitGranted r.cost

/-- Grants the head of the queue while it fits; `fuel` bounds the number of grants. -/
def State.serveQueue (s : State) : Nat → State
  | 0 => s
  | fuel + 1 => match s.pwr.queue with
    | [] => s
    | r :: rest =>
      if s.alloc + r.cost ≤ s.effCeiling then
        (({ s with pwr := { s.pwr with queue := rest } }).queuedGranted r).serveQueue fuel
      else s

/-- `ROW_GRANT_FROM_QUEUE`: grants have been returned; the queue is strictly first-in first-out. -/
def execRowGrantFromQueue : State → Host.Outcome State Fault Refusal :=
  complete fun s => s.serveQueue s.pwr.queue.length

/-- `ROW_TIMEOUT`: the queued request of this index has waited `TIMEOUT` ms. Local time, which advances with the frames,
has come to that moment at the latest with this command. -/
def execRowTimeout (idx : BitVec 4) : State → Host.Outcome State Fault Refusal :=
  complete fun s => if s.rowWaiting idx.toNat then s.timeOutQueued idx.toNat else s

end Sys2Proof.Machine
end

