-- ==== Sys2Proof/Machine/HostCommands.lean ====
section
/-!
DEFINITION. The commands that sessions give: register writes and reads over PCIe, the maintenance port and ring
management (R447 to R452), the tenant pages' counter view (R473), lock commands, and the rows that are writes of one
field.
-/
namespace Sys2Proof.Machine

/-! ### Which sessions act -/

/-- Whether the port of a session reaches the registers: the endpoint answers (R513), the boot profile enables the
maintenance port (R450), or the ring and its management are on (R451). -/
def State.reaches (s : State) : Session → Bool
  | .pcie => s.ctl.pcieUp
  | .maint => s.tru.ready && s.tru.profile.maint
  | .ring st => s.ringOn && flagOf (s.reg Reg.CTL_RING_MGMT) 0 && decide (1 ≤ st.toNat ∧ st.toNat ≤ 254)
      && st.toNat != s.station

/-- Whether ring management may write. -/
def State.ringWrites (s : State) : Bool := flagOf (s.reg Reg.CTL_RING_MGMT) 1

/-- A session's write through its own port: nothing happens where the port does not act, and a ring session is answered
`NOT_ALLOWED` while `WRITE_EN` is 0, which is then the result of its last write (R451, R456). -/
def State.portWrite (s : State) (ses : Session) (off : Nat) (w : Word) : State × Option Nat :=
  if !s.reaches ses then (s, none)
  else match ses with
    | .ring _ =>
      if s.ringWrites then
        let (s, code) := s.sessionWrite (sessionNum ses) off w 0xF#4
        (s, some code)
      else (s.noteAccess (sessionNum ses) acNotAllowed off, some acNotAllowed)
    | _ =>
      let (s, code) := s.sessionWrite (sessionNum ses) off w 0xF#4
      (s, some code)

/-- The answer that leaves through a session's port: a posted PCIe write has none. -/
def State.portAnswer (s : State) (ses : Session) (code : Option Nat) : State :=
  match ses, code with
  | .pcie, _ => s
  | _, none => s
  | _, some c => s.emit (.result ses c)

/-- A row that is a session's write of the word `w` at `off`. -/
def State.rowWrite (s : State) (ses : Session) (off : Nat) (w : Word) : State :=
  let (s, code) := s.portWrite ses off w
  s.portAnswer ses code

/-- The word that a write of one field leaves in the others: what the register holds, class M fields as last written. -/
def State.writeBase (s : State) (off : Nat) : Word :=
  match regDesc off with
  | none => 0
  | some d =>
    let now := s.storedWord off d
    match noted s.shadow (regKey off (s.item off)) with
    | some v => mergeWrite (milestoneMask d) now v
    | none => now

/-- A row that is a session's write of one field. -/
def State.rowField (s : State) (ses : Session) (off hi lo v : Nat) : State :=
  s.rowWrite ses off (setField (s.writeBase off) hi lo v)

/-- A row that is a session's write of a command bit, the other fields as they are. -/
def State.rowBit (s : State) (ses : Session) (off i : Nat) : State := s.rowField ses off i i 1

/-! ### Tenant pages over BAR2 (R303, R449, R473) -/

/-- The container that a page's counter view selects. -/
def Page.viewSel (x : Page) : Path × Nat :=
  let w := sparseGet (fun _ => (0 : Word)) x.view 0xA00
  (pathOf (fieldOf w 8 8), fieldOf w 7 0)

/-- Whether a count point belongs to a container: its queues, or itself (R473). -/
def countsCont (cls idx : Nat) (p : Path) (c : Nat) : Bool :=
  if 1 ≤ cls ∧ cls ≤ 3 then idx / 16 == 256 * pathNum p + c
  else decide (4 ≤ cls ∧ cls ≤ 6) && idx == 256 * pathNum p + c

/-- The counter view of a page. -/
def State.viewRead (s : State) (page off : Nat) : Word :=
  let x := s.page page
  let word (n : Nat) : Word := BitVec.ofNat 32 n
  let (p, c) := x.viewSel
  let ok := s.rte.active && s.grantCovers page 0 p c
  let y := s.cont p c
  let n := fieldOf (sparseGet (fun _ => (0 : Word)) x.view 0xA20) 12 0
  let cfg := s.pmcCfg n
  if off = 0xA00 ∨ off = 0xA20 ∨ (0xB00 ≤ off ∧ off < 0xB28) then sparseGet (fun _ => 0) x.view off
  else if off = 0xB2C then word (x.flowRes * 2 ^ 24 + b2n x.flowWait * 2 ^ 23)
  else if off = 0xB30 then word (x.flowPkts / 2 ^ 32)
  else if off = 0xB34 then word x.flowPkts
  else if off = 0xB38 then word (x.flowBytes / 2 ^ 32)
  else if off = 0xB3C then word x.flowBytes
  else if !ok then 0
  else if off = 0xA04 then word (2 ^ 31 + y.rep.toNat)
  else if off = 0xA08 then word y.aisFrames
  else if off = 0xA0C then word (put 31 16 (min 65535 y.jwUnread) + put 15 0 (min 65535 y.unitErr))
  else if off = 0xA10 then word (put 31 16 y.authOk + put 15 0 y.authFail)
  else if off = 0xA14 then word y.unchecked
  else if off = 0xA24 ∧ countsCont (fieldOf cfg 29 24) (fieldOf cfg 15 0) p c then word (s.pmcRead (Reg.PMC_CNT0 + 4 * n))
  else 0

/-- A read of BAR2. -/
def State.bar2Read (s : State) (off : Nat) : Word :=
  let page := off / 4096
  let o := off % 4096
  if 32 ≤ page ∨ !s.pageEn page then 0 else if 0xA00 ≤ o then s.viewRead page o else s.pageRead page o

/-- A write of BAR2. -/
def State.bar2Write (s : State) (off : Nat) (w : Word) : State :=
  let page := off / 4096
  let o := off % 4096
  let keep (m : Word) : State := s.updPage page fun x => { x with view := sparseSet (fun _ => 0) o (w &&& m) x.view }
  if 32 ≤ page ∨ !s.pageEn page then s
  else if o = 0xA00 then keep 0x1FF#32
  else if o = 0xA20 then keep 0x1FFF#32
  else if 0xB00 ≤ o ∧ o < 0xB28 then keep 0xFFFFFFFF#32
  else if o = 0xB28 then (if flagOf w 31 then s.tenantGo page else s)
  else s.pageWrite page o w

/-! ### Register access over PCIe -/

/-- The aligned word that holds an offset. -/
def wordAligned (off : Nat) : Nat := off / 4 * 4

/-- `REGISTER_WRITE`: a write with its byte enables. Tenant pages are reached over PCIe only. -/
def execRegisterWrite (ses : Session) (bar2 : Bool) (off : BitVec 26) (val : Word) (enables : BitVec 4) :
    State → Host.Outcome State Fault Refusal :=
  complete fun s =>
    let o := wordAligned off.toNat
    match ses with
    | .pcie =>
      if !s.ctl.pcieUp then s
      else if bar2 then
        (if enables = 0xF#4 then s.bar2Write o val else s.refuseWrite 0 acWidth o val)
      else (s.sessionWrite 0 o val enables).1
    | _ => if bar2 then s else s.rowWrite ses o val

/-- `REGISTER_READ`: a read over PCIe, with the latching that the register defines (R84, R449). -/
def execRegisterRead (bar2 : Bool) (off : BitVec 26) : State → Host.Outcome State Fault Refusal :=
  complete fun s =>
    let o := wordAligned off.toNat
    if !s.ctl.pcieUp then s
    else if bar2 then s.emit (.readData .pcie (s.bar2Read o))
    else
      let (s, w) := s.readReg 0 o
      s.emit (.readData .pcie w)

/-! ### The maintenance port (R450) -/

/-- Words of the memory die in the port's byte order. -/
def bytesOfWord (w : Word) : Bytes := leBytes 4 w.toNat

/-- `MNT_REGISTER_WRITE`. -/
def execMntRegisterWrite (off : BitVec 32) (val : Word) : State → Host.Outcome State Fault Refusal :=
  complete fun s => s.rowWrite .maint (wordAligned off.toNat) val

/-- `MNT_REGISTER_READ`; a transaction with a command byte that the port does not know is answered `UNMAPPED`. -/
def execMntRegisterRead (req : MntRequest) : State → Host.Outcome State Fault Refusal :=
  complete fun s =>
    if !s.reaches .maint then s
    else match req with
      | .unknown _ => s.emit (.result .maint acUnmapped)
      | .read off =>
        let (s, w) := s.readReg 1 (wordAligned off.toNat)
        (s.emit (.readData .maint w)).emit (.result .maint acOk)

/-- `MNT_MEMORY_WRITE`: an address beyond the memory die is answered `UNMAPPED` (log 81). -/
def execMntMemoryWrite (addr : BitVec 32) (val : Word) : State → Host.Outcome State Fault Refusal :=
  complete fun s =>
    if !s.reaches .maint then s
    else if 0x08000000 < addr.toNat + 4 then s.emit (.result .maint acUnmapped)
    else (s.windowWrite addr.toNat (bytesOfWord val)).emit (.result .maint acOk)

/-- The word that a memory read returns. -/
def State.mntTake (s : State) (a : Nat) : State × Word :=
  let (s, b, _) := s.windowRead a 4
  (s, BitVec.ofNat 32 (leNat b))

/-- `MNT_MEMORY_READ`: whether the read completes within the turnaround is a free value; if not, it answers `RETRY` and
goes on in the background. Data that a background read has held for at most 1 ms is returned. -/
def execMntMemoryRead (addr : BitVec 32) : State → Host.Outcome State Fault Refusal :=
  complete fun s =>
    let a := addr.toNat
    let answer (s : State) (w : Word) (code : Nat) : State := (s.emit (.readData .maint w)).emit (.result .maint code)
    let later (s : State) : State :=
      answer { s with ctl := { s.ctl with mntRead := some (a, none) } } 0 acRetry
    let fresh (s : State) : State :=
      if Config.freeNat s.freeCtr 450 % 2 = 0 then
        let (s, w) := s.mntTake a
        answer s w acOk
      else later s
    if !s.reaches .maint then s
    else if 0x08000000 < a + 4 then answer s 0 acUnmapped
    else match s.ctl.mntRead with
      | some (b, some (w, t)) =>
        if b = a ∧ s.upNs ≤ t + 1000000 then answer { s with ctl := { s.ctl with mntRead := none } } w acOk else fresh s
      | some (b, none) => if b = a then answer s 0 acRetry else fresh s
      | none => fresh s

/-- `MNT_READ_COMPLETE`: the background read completes. -/
def execMntReadComplete (ups : Upsets) : State → Host.Outcome State Fault Refusal :=
  complete fun s =>
    let s := s.suffer ups
    match s.ctl.mntRead with
    | some (a, none) =>
      let (s, w) := s.mntTake a
      { s with ctl := { s.ctl with mntRead := some (a, some (w, s.upNs)) } }
    | _ => s

/-- The maintenance session is reset. -/
def State.mntReset (s : State) : State :=
  let s := s.resetSession 1
  { s with ctl := { s.ctl with mntRead := none } }

/-- `MNT_SESSION_RESET`: command 0x99. -/
def execMntSessionReset : State → Host.Outcome State Fault Refusal :=
  complete fun s => if s.reaches .maint then s.mntReset.emit (.result .maint acOk) else s

/-- `MNT_CS_ABORT`: `MNT_CS_N` rises before the transaction is complete; the transaction has no effect. -/
def execMntCsAbort : State → Host.Outcome State Fault Refusal :=
  complete fun s => if s.reaches .maint then s.mntReset else s

/-! ### Ring management and ring messages (R389 to R392, R451) -/

/-- A response to a management request. -/
def mgmtAnswer (op tag : Byte) (code off : Nat) (w : Word) : Bytes :=
  [op, tag, BitVec.ofNat 8 code, 0] ++ beBytes 4 off ++ beBytes 4 w.toNat

/-- Acts on a management request from a station: the response goes to it. -/
def State.mgmtAct (s : State) (st : BitVec 8) (write : Bool) (tag : Byte) (off : Word) (val : Word) : State :=
  let o := wordAligned off.toNat
  let send (s : State) (op : Byte) (code : Nat) (w : Word) : State :=
    s.ringOriginate (ringMsg 2 s.station st.toNat 0 (mgmtAnswer op tag code off.toNat w))
  if !s.reaches (.ring st) then s
  else if write then
    match s.portWrite (.ring st) o val with
    | (s, some code) => send s 0x82 code (if refusedCode code || code = acNotAllowed then 0 else val)
    | (s, none) => s
  else
    let (s, w) := s.readReg (sessionNum (.ring st)) o
    send s 0x81 acOk w

/-- A whole message of type 0x02 that the station may act on, received on lane `l`. -/
def State.mgmtMessage (s : State) (l : Nat) (m : Bytes) : State :=
  let dest := beAt m 2 1
  let op := beAt m 6 1
  if !(s.ringOn && flagOf (s.reg Reg.CTL_RING_MGMT) 0) then s
  else if dest = 0xFF then s.ringMsgBad l
  else if dest ≠ s.station then s
  else if beAt m 4 2 ≠ 12 ∨ ¬ (op = 1 ∨ op = 2 ∨ op = 0x81 ∨ op = 0x82) then s.ringMsgBad l
  else if op = 0x81 ∨ op = 0x82 then s
  else
    s.ringActed.mgmtAct (BitVec.ofNat 8 (beAt m 1 1)) (op == 2) (m.getD 7 0) (BitVec.ofNat 32 (beAt m 10 4))
      (BitVec.ofNat 32 (beAt m 14 4))

/-- `RING_MESSAGE`: a message received on a ring lane is forwarded, removed or acted on, and what came since the message
before it is repeated. Invalid code groups count as violations of the lane and are passed on as /V/ (R387, R389); enough of
them end the lock of the lane (R379), and then the message goes no further. -/
def execRingMessage (lane15 : Bool) (msg before : List (BitVec 10)) (sinceNs : Nat) :
    State → Host.Outcome State Fault Refusal :=
  complete fun s =>
    let l := ringRx lane15
    if !s.ringOn || (s.lane l).state != 4 then s
    else
      let (s, gap) := s.laneRead l before
      let (s, groups) := s.laneRead l msg
      let out := ringBetween gap
      let bytes := groups.map dataByte
      let s := if gap = [] then s else s.ringSend (ringTx lane15) out.1
      let s := s.laneInvalid l (out.2 + bytes.count none)
      let n := msg.length + 2
      let ago := (badAgo Option.isSome bytes).map (· + 1)
        ++ (badAgo (fun g => (dataByte g).isSome || g == some (.k 0xBC)) gap).map (· + n)
      match s.ringWindow l (before.length + n) ago with
      | (s, true) => s.laneEnter l 1
      | (s, false) => match s.ringForward lane15 bytes with
        | (s, true) =>
          let m := bytes.filterMap id
          (match beAt m 0 1 with
          | 1 => s.ringTime lane15 m sinceNs
          | 2 => s.mgmtMessage l m
          | _ => s)
        | (s, false) => s

/-- A management request as a whole ring message, received on L14 (log 82). -/
def State.mgmtRequest (s : State) (source dest : BitVec 8) (payload : Bytes) : State :=
  let m := ringMsg 2 source.toNat dest.toNat 0 payload
  if !s.ringOn || (s.lane 14).state != 4 then s
  else match s.ringForward false (m.map some) with
    | (s, true) => s.mgmtMessage 14 m
    | (s, false) => s

/-- `RING_MGMT_READ`. -/
def execRingMgmtRead (source dest : BitVec 8) (tag : Byte) (off : Word) : State → Host.Outcome State Fault Refusal :=
  complete fun s => s.mgmtRequest source dest (mgmtAnswer 1 tag 0 off.toNat 0)

/-- `RING_MGMT_WRITE`. -/
def execRingMgmtWrite (source dest : BitVec 8) (tag : Byte) (off val : Word) :
    State → Host.Outcome State Fault Refusal :=
  complete fun s => s.mgmtRequest source dest (mgmtAnswer 2 tag 0 off.toNat val)

/-! ### Lock commands (R461) -/

/-- A lock command of a session. -/
def State.rowLock (s : State) (ses : Session) (op : Nat) (dom : BitVec 3) : State :=
  s.rowWrite ses Reg.CTL_LOCK_CMD (BitVec.ofNat 32 (2 ^ 31 + op * 2 ^ 24 + dom.toNat))

/-- `ACQUIRE`. -/
def execAcquire (ses : Session) (dom : BitVec 3) : State → Host.Outcome State Fault Refusal :=
  complete fun s => s.rowLock ses 1 dom

/-- `RENEW`. -/
def execRenew (ses : Session) (dom : BitVec 3) : State → Host.Outcome State Fault Refusal :=
  complete fun s => s.rowLock ses 2 dom

/-- `LOCK_COMMIT`. -/
def execLockCommit (ses : Session) (dom : BitVec 3) : State → Host.Outcome State Fault Refusal :=
  complete fun s => s.rowLock ses 3 dom

/-- `ABORT`. -/
def execAbort (ses : Session) (dom : BitVec 3) : State → Host.Outcome State Fault Refusal :=
  complete fun s => s.rowLock ses 4 dom

/-! ### Rows that write one register: loader and milestone unit -/

/-- The basic mode word of a unit. -/
def basicReg : BasicUnit → Nat
  | .cnv p => pathReg p Reg.PA_CNV_BASIC
  | .rxd p => pathReg p Reg.PA_RXD_BASIC
  | .txd p => pathReg p Reg.PA_TXD_BASIC
  | .trk p => pathReg p Reg.PA_TRK_BASIC
  | .fec p => pathReg p Reg.PA_FEC_BASIC
  | .lfr p => pathReg p Reg.PA_LFR_BASIC
  | .cnt => Reg.CNT_BASIC
  | .cry => Reg.CRY_BASIC
  | .pkt => Reg.PKT_BASIC
  | .sch => Reg.SCH_BASIC
  | .hsf => Reg.HSF_BASIC
  | .hsl => Reg.HSL_BASIC
  | .mem => Reg.MEM_BASIC
  | .mon => Reg.MON_BASIC
  | .pwr => Reg.PWR_BASIC

/-- `BASIC_PROFILE_WRITE` (R10, R11). -/
def execBasicProfileWrite (ses : Session) (u : BasicUnit) (profile : BitVec 4) :
    State → Host.Outcome State Fault Refusal :=
  complete fun s => s.rowField ses (basicReg u) 3 0 profile.toNat

/-- `LOAD` (R48, R49). -/
def execLoad (ses : Session) (src : BitVec 2) : State → Host.Outcome State Fault Refusal :=
  complete fun s =>
    s.rowWrite ses Reg.RTE_CTRL (setField (setField (s.writeBase Reg.RTE_CTRL) 1 0 src.toNat) 2 2 1)

/-- `STORE` (R47). -/
def execStore (ses : Session) (slotB : Bool) : State → Host.Outcome State Fault Refusal :=
  complete fun s =>
    s.rowWrite ses Reg.RTE_CTRL (setField (setField (s.writeBase Reg.RTE_CTRL) 7 7 (b2n slotB)) 6 6 1)

/-- `AMEND` (R54). -/
def execAmend (ses : Session) : State → Host.Outcome State Fault Refusal :=
  complete fun s => s.rowBit ses Reg.RTE_CTRL 3

/-- `COMMIT_FLOOR` (R44). -/
def execCommitFloor (ses : Session) : State → Host.Outcome State Fault Refusal :=
  complete fun s => s.rowBit ses Reg.RTE_CTRL 4

/-- `AMD_CANCEL` (R56). -/
def execAmdCancel (ses : Session) : State → Host.Outcome State Fault Refusal :=
  complete fun s => s.rowBit ses Reg.RTE_CTRL 5

/-- `TIME_SOURCE_WRITE` (R61). -/
def execTimeSourceWrite (ses : Session) (src : BitVec 2) : State → Host.Outcome State Fault Refusal :=
  complete fun s => s.rowField ses Reg.MST_TIME_CTRL 1 0 src.toNat

/-- `SET` (R65). -/
def execSet (ses : Session) : State → Host.Outcome State Fault Refusal :=
  complete fun s => s.rowBit ses Reg.MST_TIME_CTRL 2

/-- `ADD` (R68). -/
def execAdd (ses : Session) : State → Host.Outcome State Fault Refusal :=
  complete fun s => s.rowBit ses Reg.MST_Q_CMD 0

/-- `CANCEL` (R75). -/
def execCancel (ses : Session) (handle : BitVec 6) : State → Host.Outcome State Fault Refusal :=
  complete fun s =>
    s.rowWrite ses Reg.MST_Q_CMD (setField (setField (s.writeBase Reg.MST_Q_CMD) 7 2 handle.toNat) 1 1 1)

/-! ### Rows of the paths -/

/-- `TX_EN_WRITE` (R98). -/
def execTxEnWrite (ses : Session) (p : Path) (v : Bool) : State → Host.Outcome State Fault Refusal :=
  complete fun s => s.rowField ses (pathReg p Reg.PA_CNV_CTRL) 0 0 (b2n v)

/-- `RX_EN_WRITE` (R98). -/
def execRxEnWrite (ses : Session) (p : Path) (v : Bool) : State → Host.Outcome State Fault Refusal :=
  complete fun s => s.rowField ses (pathReg p Reg.PA_CNV_CTRL) 1 1 (b2n v)

/-- `MUTE_WRITE` (R100). -/
def execMuteWrite (ses : Session) (p : Path) (v : Bool) : State → Host.Outcome State Fault Refusal :=
  complete fun s => s.rowField ses (pathReg p Reg.PA_CNV_CTRL) 2 2 (b2n v)

/-- `GO` (R105). -/
def execGo (ses : Session) (p : Path) (write : Bool) (addr : BitVec 8) (data : BitVec 16) :
    State → Host.Outcome State Fault Refusal :=
  complete fun s =>
    s.rowWrite ses (pathReg p Reg.PA_CNV_LASER_CMD)
      (BitVec.ofNat 32 (2 ^ 31 + b2n write * 2 ^ 24 + addr.toNat * 2 ^ 16 + data.toNat))

/-- `RST` (R512). -/
def execRst (ses : Session) (p : Path) : State → Host.Outcome State Fault Refusal :=
  complete fun s => s.rowBit ses (pathReg p Reg.PA_CNV_LASER_CFG) 3

/-- `PORT_EN_WRITE` (R108). -/
def execPortEnWrite (ses : Session) (p : Path) (v : Bool) : State → Host.Outcome State Fault Refusal :=
  complete fun s => s.rowField ses (pathReg p Reg.PA_CNV_LASER_CFG) 0 0 (b2n v)

/-- `LASER_FT_CODE_WRITE` (R171). -/
def execLaserFtCodeWrite (ses : Session) (p : Path) (code : BitVec 16) : State → Host.Outcome State Fault Refusal :=
  complete fun s => s.rowWrite ses (pathReg p Reg.PA_CNV_LASER_FT) (BitVec.ofNat 32 code.toNat)

/-- `RXD_RUN_WRITE` (R110). -/
def execRxdRunWrite (ses : Session) (p : Path) (v : Bool) : State → Host.Outcome State Fault Refusal :=
  complete fun s => s.rowField ses (pathReg p Reg.PA_RXD_CTRL) 0 0 (b2n v)

/-- `RESTART_ACQUISITION` (R129). -/
def execRestartAcquisition (ses : Session) (p : Path) : State → Host.Outcome State Fault Refusal :=
  complete fun s => s.rowBit ses (pathReg p Reg.PA_RXD_CTRL) 3

/-- `TXD_RUN_WRITE` (R154). -/
def execTxdRunWrite (ses : Session) (p : Path) (v : Bool) : State → Host.Outcome State Fault Refusal :=
  complete fun s => s.rowField ses (pathReg p Reg.PA_TXD_CTRL) 0 0 (b2n v)

/-- `COEF_GEN_NEXT_WRITE` (R152). -/
def execCoefGenNextWrite (ses : Session) (p : Path) (next : BitVec 16) : State → Host.Outcome State Fault Refusal :=
  complete fun s => s.rowField ses (pathReg p Reg.PA_TXD_COEF_GEN) 15 0 next.toNat

/-- `APPLY` of a rail window (R168). -/
def execApply (ses : Session) (window : BitVec 2) (freeze : Bool) (dwell : BitVec 16) :
    State → Host.Outcome State Fault Refusal :=
  complete fun s =>
    let w := BitVec.ofNat 32 (2 ^ 31 + b2n freeze * 2 ^ 16 + dwell.toNat)
    match window.toNat with
    | 0 => s.rowWrite ses (pathReg .a Reg.PA_TRK_RAIL_CTRL) w
    | 1 => s.rowWrite ses (pathReg .b Reg.PA_TRK_RAIL_CTRL) w
    | 2 => s.rowWrite ses Reg.HSF_RAIL_CTRL w
    | _ => s

/-- `J_WRITE` (R171). -/
def execJWrite (ses : Session) (p : Path) (j : BitVec 8) : State → Host.Outcome State Fault Refusal :=
  complete fun s => s.rowWrite ses (pathReg p Reg.PA_TRK_PROF) (BitVec.ofNat 32 j.toNat)

/-- `GCC_TX_WR_WRITE` (R213). -/
def execGccTxWrWrite (ses : Session) (p : Path) (wr : BitVec 16) : State → Host.Outcome State Fault Refusal :=
  complete fun s => s.rowField ses (pathReg p Reg.PA_LFR_GCC_TX) 15 0 wr.toNat

/-- `GCC_EN_WRITE`: the enable bit of the selected channel (R213). -/
def execGccEnWrite (ses : Session) (p : Path) (v : Bool) : State → Host.Outcome State Fault Refusal :=
  complete fun s =>
    let g := s.pfld p Reg.PA_LFR_GCC_SEL 2 0
    s.rowField ses (pathReg p Reg.PA_LFR_GCC_CTRL) g g (b2n v)

/-! ### Rows of containers, encryption and the trust core -/

/-- `SLOT_ENTRY_WRITE` (R222, R231). -/
def execSlotEntryWrite (ses : Session) (entry : BitVec 16) : State → Host.Outcome State Fault Refusal :=
  complete fun s => s.rowWrite ses Reg.CNT_SLOT_ENTRY (BitVec.ofNat 32 entry.toNat)

/-- `SLOT_GEN_NEXT_WRITE` (R231). -/
def execSlotGenNextWrite (ses : Session) (p : Path) (next : BitVec 16) : State → Host.Outcome State Fault Refusal :=
  complete fun s =>
    s.rowField ses (match p with | .a => Reg.CNT_SLOT_GEN_A | .b => Reg.CNT_SLOT_GEN_B) 15 0 next.toNat

/-- `REKEY_EXP_WRITE`: on the selected path (R266). -/
def execRekeyExpWrite (ses : Session) (exp : BitVec 6) : State → Host.Outcome State Fault Refusal :=
  complete fun s => s.rowField ses Reg.CRY_POLICY 5 0 exp.toNat

/-- `REKEY_NOW` (R267). -/
def execRekeyNow (ses : Session) : State → Host.Outcome State Fault Refusal :=
  complete fun s => s.rowBit ses Reg.CRY_CMD 31

/-- `ERASE`: of the keys that the command register's fields name (R269). -/
def execErase (ses : Session) : State → Host.Outcome State Fault Refusal :=
  complete fun s => s.rowBit ses Reg.CRY_CMD 30

/-- `ERASE_ALL` (R269). -/
def execEraseAll (ses : Session) : State → Host.Outcome State Fault Refusal :=
  complete fun s => s.rowBit ses Reg.CRY_CMD 29

/-- A trust core command (R312). -/
def State.rowTrust (s : State) (ses : Session) (op : Nat) : State :=
  s.rowWrite ses Reg.TRU_CMD (BitVec.ofNat 32 (2 ^ 31 + op))

/-- `PROVISION`. -/
def execProvision (ses : Session) : State → Host.Outcome State Fault Refusal :=
  complete fun s => s.rowTrust ses 1

/-- `TRANSFER`. -/
def execTransfer (ses : Session) : State → Host.Outcome State Fault Refusal :=
  complete fun s => s.rowTrust ses 2

/-- `DECOMMISSION`. -/
def execDecommission (ses : Session) : State → Host.Outcome State Fault Refusal :=
  complete fun s => s.rowTrust ses 3

/-- `BOOT_PROFILE`. -/
def execBootProfile (ses : Session) : State → Host.Outcome State Fault Refusal :=
  complete fun s => s.rowTrust ses 4

/-- `CERT_LOAD`. -/
def execCertLoad (ses : Session) : State → Host.Outcome State Fault Refusal :=
  complete fun s => s.rowTrust ses 5

/-- `PAGE_RESET`: `RESET` written for the selected page, or its `EN` cleared (R311). -/
def execPageReset (ses : Session) (disable : Bool) : State → Host.Outcome State Fault Refusal :=
  complete fun s =>
    if disable then s.rowField ses Reg.TRU_PAGE_CTRL 0 0 0 else s.rowBit ses Reg.TRU_PAGE_CTRL 31

/-! ### Rows of the packet path, the scheduler and the host lanes -/

/-- A flow command (R331). -/
def State.rowFlow (s : State) (ses : Session) (op : Nat) : State :=
  s.rowWrite ses Reg.PKT_FLOW_CMD (BitVec.ofNat 32 (2 ^ 31 + op))

/-- `INSERT`. -/
def execInsert (ses : Session) : State → Host.Outcome State Fault Refusal :=
  complete fun s => s.rowFlow ses 1

/-- `DELETE`. -/
def execDelete (ses : Session) : State → Host.Outcome State Fault Refusal :=
  complete fun s => s.rowFlow ses 2

/-- `READ`. -/
def execRead (ses : Session) : State → Host.Outcome State Fault Refusal :=
  complete fun s => s.rowFlow ses 3

/-- `UPDATE`. -/
def execUpdate (ses : Session) : State → Host.Outcome State Fault Refusal :=
  complete fun s => s.rowFlow ses 4

/-- `CLEAR`. -/
def execClear (ses : Session) : State → Host.Outcome State Fault Refusal :=
  complete fun s => s.rowFlow ses 5

/-- `GATE_GEN_NEXT_WRITE` (R363). -/
def execGateGenNextWrite (ses : Session) (p : Path) (next : BitVec 16) : State → Host.Outcome State Fault Refusal :=
  complete fun s =>
    s.rowField ses (match p with | .a => Reg.SCH_GATE_GEN_A | .b => Reg.SCH_GATE_GEN_B) 15 0 next.toNat

/-- `EN` of the selected fast port (R385). -/
def execEn (ses : Session) (v : Bool) : State → Host.Outcome State Fault Refusal :=
  complete fun s => s.rowField ses Reg.HSF_PORT_CTRL 0 0 (b2n v)

/-- `RESTART` of the selected fast port (R385). -/
def execRestart (ses : Session) : State → Host.Outcome State Fault Refusal :=
  complete fun s => s.rowBit ses Reg.HSF_PORT_CTRL 31

/-- `LANE_EN` of the selected legacy lane (R379). -/
def execLaneEn (ses : Session) (v : Bool) : State → Host.Outcome State Fault Refusal :=
  complete fun s => s.rowField ses Reg.HSL_LANE_CTRL 0 0 (b2n v)

/-- `LANE_RESTART` of the selected legacy lane (R379). -/
def execLaneRestart (ses : Session) : State → Host.Outcome State Fault Refusal :=
  complete fun s => s.rowBit ses Reg.HSL_LANE_CTRL 31

/-! ### Rows of memory, monitor, control and power -/

/-- `COMMIT` of the remap table (R412). -/
def execCommit (ses : Session) : State → Host.Outcome State Fault Refusal :=
  complete fun s => s.rowBit ses Reg.MEM_REPAIR_CMD 31

/-- `LEDGER_CLEAR` (R409). -/
def execLedgerClear (ses : Session) : State → Host.Outcome State Fault Refusal :=
  complete fun s => s.rowBit ses Reg.MEM_LEDGER_SEL 31

/-- `SEQUENCE_GO` of the selected sequence (R424). -/
def execSequenceGo (ses : Session) : State → Host.Outcome State Fault Refusal :=
  complete fun s => s.rowBit ses Reg.MON_SEQ_CTRL 31

/-- `RES_ACK` (R425). -/
def execResAck (ses : Session) : State → Host.Outcome State Fault Refusal :=
  complete fun s => s.rowBit ses Reg.MON_CTRL 1

/-- `SELF_CAL` (R428). -/
def execSelfCal (ses : Session) : State → Host.Outcome State Fault Refusal :=
  complete fun s => s.rowBit ses Reg.MON_CTRL 0

/-- `MON_CAL_WRITE` (R428). -/
def execMonCalWrite (ses : Session) (val : Word) : State → Host.Outcome State Fault Refusal :=
  complete fun s => s.rowWrite ses Reg.MON_CAL val

/-- `CHAIN_APPLY` of the selected chain (R430). -/
def execChainApply (ses : Session) : State → Host.Outcome State Fault Refusal :=
  complete fun s => s.rowBit ses Reg.MON_CH_CTRL 31

/-- `FCAL_APPLY` (R429). -/
def execFcalApply (ses : Session) : State → Host.Outcome State Fault Refusal :=
  complete fun s => s.rowBit ses Reg.MON_CTRL 2

/-- `DAC_CODE_WRITE` of the selected optical loop (R443). -/
def execDacCodeWrite (ses : Session) (code : BitVec 16) : State → Host.Outcome State Fault Refusal :=
  complete fun s => s.rowWrite ses Reg.MON_DAC_CODE (BitVec.ofNat 32 code.toNat)

/-- `STATE_RESTART` of the selected unit (R459). -/
def execStateRestart (ses : Session) : State → Host.Outcome State Fault Refusal :=
  complete fun s => s.rowBit ses Reg.CTL_STATE 31

/-- `SPILL_READ` (R469). -/
def execSpillRead (ses : Session) (sector : BitVec 24) : State → Host.Outcome State Fault Refusal :=
  complete fun s => s.rowWrite ses Reg.EVT_SPILL_CMD (BitVec.ofNat 32 (2 ^ 31 + sector.toNat))

/-- `PMC_CFG_WRITE` (R471, R472). -/
def execPmcCfgWrite (ses : Session) (n : BitVec 13) (val : Word) : State → Host.Outcome State Fault Refusal :=
  complete fun s => s.rowWrite ses (Reg.PMC_CFG0 + 4 * n.toNat) val

/-- `PWR_SW_RESET`: 0xA5 written (R483). -/
def execPwrSwReset (ses : Session) : State → Host.Outcome State Fault Refusal :=
  complete fun s => s.rowWrite ses Reg.PWR_SW_RESET 0xA5

/-- `CEILING_WRITE` (R488). -/
def execCeilingWrite (ses : Session) (v : BitVec 9) : State → Host.Outcome State Fault Refusal :=
  complete fun s => s.rowField ses Reg.PWR_CEILING 8 0 v.toNat

/-- `TIMEOUT_WRITE` (R487). -/
def execTimeoutWrite (ses : Session) (v : BitVec 14) : State → Host.Outcome State Fault Refusal :=
  complete fun s => s.rowField ses Reg.PWR_CTRL 13 0 v.toNat

end Sys2Proof.Machine
end

