-- ==== Sys2Proof/Machine/RxFrames.lean ====
section
/-!
DEFINITION. A received line frame (R79, R81, R202 to R217, R227 to R264): alignment, tags and announcements, the overhead
fields, the channels, the containers; and the end of a profile search candidate (R131).
-/
namespace Sys2Proof.Machine

/-! ### Announcements and tags (R77 to R81) -/

/-- The generation that a usable announcement gives kind `k` at frame `fc`. -/
def PathMst.announcedAt (m : PathMst) (k fc : Nat) : Option (BitVec 16) :=
  match m.announced.find? (fun a => a.state == 1 && a.kinds.testBit k && a.target == fc) with
  | some a => some (a.gens.get k)
  | none => none

/-- The receive direction goes to generation `g` of kind `k` if its next copy carries it; during a mismatch the change is
marked late (R79, R81). -/
def State.rxSwitch (s : State) (p : Path) (k : Nat) (g : BitVec 16) : State :=
  let m := s.mstPath p
  if g ≠ m.rx.get k ∧ s.rxStagedGen p k = some g then s.rxApply p k g (m.mismatch.getLsbD k) else s

/-- The generations of a tag block or an announcement, from offset `off`. -/
def readGens (ov : Bytes) (off : Nat) : Gens :=
  let g (i : Nat) : BitVec 16 := BitVec.ofNat 16 (beAt ov (off + 2 * i) 2)
  ⟨g 0, g 1, g 2, g 3, g 4, g 5⟩

/-- The kinds that a receiver acts on: after the decoder, and before it. -/
def rxKinds : List Nat := [0, 1, 2, 5]

/-- A tag that moves without 64 superframes of usable announcement is a violation (R79, R216). -/
def State.tagNotice (s : State) (p : Path) (tag : Gens) (fc : Nat) : State :=
  let m := s.mstPath p
  match m.lastTag with
  | none => s
  | some old =>
    let noticed (k : Nat) : Bool := m.announced.any fun a =>
      a.state == 1 && a.kinds.testBit k && a.gens.get k == tag.get k && frameLe (a.firstFc + 1024) fc
    if (List.range 6).any fun k => old.get k != tag.get k && !noticed k then s.violation p vNotice else s

/-- A readable tag block counts for and against a mismatch of kind `k` (R81). -/
def State.mismatchStep (s : State) (p : Path) (tag : Gens) (k : Nat) : State :=
  let m := s.mstPath p
  let known := tag.get k == m.rx.get k
  let bad := !known && s.rxStagedGen p k != some (tag.get k)
  let u := if bad then m.unknownRun.getD k 0 + 1 else 0
  let g := if known then m.matchRun.getD k 0 + 1 else 0
  let was := m.mismatch.getLsbD k
  let now := if 3 ≤ u then true else if 3 ≤ g then false else was
  let bit := BitVec.ofNat 6 (2 ^ k)
  let s := s.updMstPath p fun m =>
    { m with unknownRun := modifyAt (fun _ => u) k m.unknownRun, matchRun := modifyAt (fun _ => g) k m.matchRun
             mismatch := if now then m.mismatch ||| bit else m.mismatch &&& ~~~bit }
  if was == now then s
  else (s.raise 298 (b2n now) (pathNum p) k 0).contLocals p

/-- A frame without a readable tag during a mismatch: a next copy that has come to carry the generation received last
takes force, late (R81). -/
def State.lateSwap (s : State) (p : Path) (k : Nat) : State :=
  match (s.mstPath p).lastTag with
  | some t => if (s.mstPath p).mismatch.getLsbD k then s.rxSwitch p k (t.get k) else s
  | none => s

/-- The changes of one received frame: the tag governs where it is readable, else the announcement, or the generation
that a mismatch has been waiting for (R79, R81). `fc` is the received counter, while in superframe. -/
def State.rxTags (s : State) (p : Path) (tag : Option Gens) (fc : Option Nat) (at' : Nat) : State :=
  match tag with
  | some t =>
    let s := s.tagNotice p t at'
    let s := rxKinds.foldl (fun s k => s.rxSwitch p k (t.get k)) s
    let s := s.updMstPath p fun m => { m with lastTag := some t, lastGate := t.gate, lastCoef := t.coef }
    rxKinds.foldl (fun s k => s.mismatchStep p t k) s
  | none =>
    let s := rxKinds.foldl (fun s k => s.lateSwap p k) s
    match fc with
    | some c => [0, 1].foldl (fun s k => match (s.mstPath p).announcedAt k c with
      | some g => s.rxSwitch p k g
      | none => s) s
    | none => s

/-- One announcement record (R77, R216). -/
def State.rxRecord (s : State) (p : Path) (ov : Bytes) (off : Nat) (fc : Option Nat) : State :=
  if !crcOk ov off 30 then s
  else
    let st := beAt ov off 1
    let h := beAt ov (off + 1) 1
    let target := beAt ov (off + 2) 6
    let mask := beAt ov (off + 8) 2
    if 2 < st ∨ 63 < h ∨ 128 ≤ mask ∨ !allZero (bytesAt ov (off + 24) 6) then s.violation p vRecord
    else match st, fc with
      | 1, some c =>
        if (s.mstPath p).announced.any fun a => a.handle == h && a.target == target then s
        else if frameLe target c then s.violation p vTarget
        else s.updMstPath p fun m =>
          let a : Announcement := ⟨1, h, target, mask, readGens ov (off + 10), beAt ov (off + 22) 2, c⟩
          { m with announced := a :: m.announced.filter fun a => a.handle != h }
      | 2, _ => s.updMstPath p fun m => { m with announced := m.announced.filter fun a => a.handle != h }
      | _, _ => s

/-- Announcements whose target has passed, and whose changes have been made, are forgotten. -/
def State.forgetRecords (s : State) (p : Path) (readable : Bool) (fc : Nat) : State :=
  s.updMstPath p fun m =>
    let open' (a : Announcement) : Bool := rxKinds.any fun k => a.kinds.testBit k && a.gens.get k != m.rx.get k
    { m with announced := m.announced.filter fun a => !frameLe a.target fc || !readable || open' a }

/-! ### The framer's part -/

/-- Frames without a correctable word, and the frames of a search candidate (R131). -/
def State.searchFrame (s : State) (p : Path) (dead readable : Bool) : State :=
  s.updRxd p fun r =>
    { r with deadRun := if dead then r.deadRun + 1 else 0
             searchFrames := if r.searchAt.isSome then r.searchFrames + 1 else r.searchFrames
             searchHit := r.searchHit || (r.searchAt.isSome && readable) }

/-- Frame and superframe alignment on a delivered frame, with the event of a counter that does not continue (R202,
R203). The previous expected counter advances with every frame that is delivered, out of frame too. -/
def State.alignFrame (s : State) (p : Path) (ov : Bytes) (clean : Bool) : State :=
  let s := s.updLfr p fun l => l.align ov
  if !(s.lfr p).inFrame then s.updLfr p fun l => { l with prevExp := l.prevExp.map fun e => (e + 1) % 2 ^ 48 }
  else
    let x := (s.lfr p).super (if clean then readCounter ov else none)
    let s := s.updLfr p fun _ => x.1
    if x.2 then s.raise (pathSrc p 38) 0 0 0 0 else s

/-- The mode under which a frame is decoded: during a search that of the candidate (R131). -/
def State.decodeMode (s : State) (p : Path) : PathMode :=
  if (s.path p).rxd.searchAt = some 1 then ((s.path p).rxModeNext).getD (s.rxModeOf p) else s.rxModeOf p

/-- The track profile under which a frame is demapped: during a search that of the candidate (R131). -/
def State.decodeProf (s : State) (p : Path) : List Nat :=
  let t := (s.path p).trk
  if (s.path p).rxd.searchAt = some 1 ∧ (s.rxStagedGen p 2).isSome then t.rxProfNext else t.rxProf

/-- An equalised frame goes through the tracker, the phase recovery, the demapper and the decoder (R121 to R125, R182):
what the frame's pilots tell, and the frame that the decoder delivers. -/
def State.decodeEqualised (s : State) (p : Path) (x : List (List Sig)) (rest : List (List (List Sig))) : State × RxFrame :=
  let m := s.decodeMode p
  let prof := s.decodeProf p
  let d := demodulate m prof (s.reg (pathReg p Reg.PA_RXD_POL_CTRL)) (s.reg (pathReg p Reg.PA_RXD_CPR_CTRL)) x
  let noise := (s.path p).rxd.snr.noiseOf
  let off := roundRat (d.slope * ((m.k : Nat) * 976562500))
  let llr := frameLlrs m prof (s.pfld p Reg.PA_RXD_DEMAP_CTRL 1 0) noise d.symbols
  let s := s.updRxd p fun r =>
    let stat := { r.chain.stat with sop := max r.chain.stat.sop (Config.sopRate (matEntries d.jones)) }
    let r := { r with chain := { r.chain with eqd := rest, jones := d.jones, stat := stat }, freq := r.freq + off }
    r.pilotFrame off d.slips d.pilots
  (s, decodeFrame m (s.pfld p Reg.PA_FEC_CTRL 11 8) (s.fec p).iMax llr)

/-- What a decoder's counts must be (R185, R188): an uncorrectable word has run all iterations, and bits are corrected in
correctable words only. -/
def countedFrame (f : RxFrame) (words : Nat) : RxFrame :=
  let bad := ((List.range words).filter fun w => f.uncorr.contains w).length
  { f with hits := min words (max f.hits bad), corr := if bad = words then 0 else f.corr }

/-- The frame that the decoder delivers: of the oldest equalised frame where the chain holds one, else as the command has
it. -/
def State.decoded (s : State) (p : Path) (f : RxFrame) : State × RxFrame :=
  match (s.path p).rxd.chain.eqd with
  | x :: rest => s.decodeEqualised p x rest
  | [] => (s, countedFrame f (s.decodeMode p).words)

/-- The age of the receive key, and its retirement (R264). `fc` is the received counter, while in superframe: a wrap that
passed out of superframe retires the key at the first frame that tells. -/
def State.rxKeyAge (s : State) (p : Path) (fc : Option Nat) : State :=
  if !anyKey (s.cry p).rxKeys.rx then s
  else
    let a := (s.cry p).rxAge
    let wrapped := match fc with | some c => wrapPassed (s.cry p).rxLast c | none => false
    let s := if decide (2 ^ 38 ≤ a) || wrapped then s.retireRx p else s
    s.updCry p fun c => { c with rxLast := if fc.isSome then fc else c.rxLast, rxAge := a + 1 }

/-- The overhead fields of a delivered frame while in frame; `clean` tells that no code word is uncorrectable, `word0`
that code word 0 is correctable. -/
def State.rxOverhead (s : State) (p : Path) (ov : Bytes) (clean word0 : Bool) : State :=
  let l := s.lfr p
  let fc := if l.inSf then some l.expected else none
  let at' := if l.inSf then l.expected else l.prevExp.getD l.expected
  let tagOk := clean && crcOk ov 40 22
  let s := if tagOk then s.updMstPath p fun m =>
      { m with farAmd := BitVec.ofNat 16 (beAt ov 52 2), farImage := BitVec.ofNat 32 (beAt ov 54 4) } else s
  let s := s.rxTags p (if tagOk then some (readGens ov 40) else none) fc at'
  let s := (s.rxRecord p ov 1152 fc).rxRecord p ov 1184 fc
  let s := if l.inSf then s.forgetRecords p tagOk l.expected else s
  let s := if clean && crcOk ov 24 14 then s.statusField p ov else s
  let traceOk := clean && crcOk ov 64 62
  let s := if l.inSf then s.traceField p ov traceOk l.expected else s
  let s := if traceOk then s.traceReserved p ov else s
  let s := if clean then s.profileField p ov else s
  let s := s.rxKeyAge p fc
  let s := s.gccRx p ov word0
  if s.encrypted p then s.varrumRx p ov word0 else s

/-- A frame delivered while out of frame: none of its fields is readable, and its chunks are unusable, which ends a
message in progress (R200, R214). -/
def State.rxUnframed (s : State) (p : Path) (ov : Bytes) : State :=
  let s := s.gccRx p ov false
  if s.encrypted p then s.varrumRx p ov false else s

/-- A frame that the decoder delivers. Changes before the decoder come first: a new I_max, and the kinds that are
applied at the announced target frame, whose counter is the next expected one. -/
def State.rxFrame (s : State) (p : Path) (f : RxFrame) : State :=
  let s := s.fecTake p
  let l := s.lfr p
  let next := (l.expected + 1) % 2 ^ 48
  let s := if !l.inSf then s else [2, 5].foldl (fun s k => match (s.mstPath p).announcedAt k next with
    | some g => s.rxSwitch p k g
    | none => s) s
  let words := (s.decodeMode p).words
  let (s, f) := s.decoded p f
  let ov := padTo 3200 f.overhead
  let bad := (List.range words).filter fun w => f.uncorr.contains w
  let clean := bad == []
  let s := s.fecFrame p words bad.length f.corr f.iterSum f.hits f.maxUsed
  let s := (s.alignFrame p ov clean).contsAlign p
  let l := s.lfr p
  let s := s.searchFrame p (bad.length == words) (l.inFrame && clean && crcOk ov 40 22)
  let s := s.sfCount p bad.length f.corr (if l.inSf then some (l.expected % 16) else none)
  let word0 := l.inFrame && !bad.contains 0
  let s := if l.inFrame then s.rxOverhead p ov clean word0 else s.rxUnframed p ov
  let s := s.contJudgeAll p
  let ctx : RxCtx := ⟨l.inFrame, word0, l.inSf, if l.inSf then l.expected else l.prevExp.getD l.expected, ov, (s.cry p).rxKeys⟩
  let s := s.contsRx p f ctx
  let s := if s.inst 6 && l.inSf then s.bondRx p ⟨s.upNs, ctx, s.bondParts p f, s.bondLate p ctx.fc⟩ else s
  s.vFollow p

/-- `RX_FRAME`: the decoder delivers frames while the receive DSP is locked (R126, R202). -/
def execRxFrame (p : Path) (f : RxFrame) : State → Host.Outcome State Fault Refusal :=
  complete fun s => if s.pathUp p && s.locked p then s.rxFrame p f else s

/-- The candidate that a search ends with: its copies take the generation that the tag carries (R131, R79), and the
event tells it (R136). -/
def State.searchDone (s : State) (p : Path) (cand : Nat) : State :=
  let s := s.updRxd p fun r => { r with searchAt := none, deadRun := 0 }
  let s : State := match (s.mstPath p).lastTag with
    | some t => [2, 5].foldl (fun (s : State) k => s.rxSwitch p k (t.get k)) s
    | none => s
  s.raise (pathSrc p 14) (1 + cand) 0 0 0

/-- `PROFILE_CANDIDATE_END`: 16 frames under a candidate have passed (R131). -/
def execProfileCandidateEnd (p : Path) : State → Host.Outcome State Fault Refusal :=
  complete fun s =>
    let r := (s.path p).rxd
    match r.searchAt with
    | none => s
    | some cand =>
      if !s.locked p || decide (r.searchFrames < 16) then s
      else if r.searchHit then s.searchDone p cand
      else if cand = 0 ∧ ((s.rxStagedGen p 2).isSome ∨ (s.rxStagedGen p 5).isSome) then
        s.updRxd p fun r => { r with searchAt := some 1, searchFrames := 0, searchHit := false }
      else
        let s := (s.updRxd p fun r => { r with searchAt := none }).raise (pathSrc p 14) 0 0 0 0
        ((s.loseLock p causeSearch).lfrUnlocked p).vFollow p

end Sys2Proof.Machine
end

