-- ==== Sys2Proof/Machine/TxFrames.lean ====
section
/-!
DEFINITION. The line frame boundary (R27): the frame counter, the milestones that fall due, the converters and DSPs, the
frame that each path transmits, and the frame period of the host ports.
-/
namespace Sys2Proof.Machine

/-! ### The transmitted frame (R195 to R199) -/

/-- The overhead of the next frame, from what its units give; the channels and the announcements move on. -/
def State.frameOverhead (s : State) (p : Path) (part : TxPart) : State × Bytes :=
  let fixed := alignWord ++ counterField s.txFc ++ s.statusBytes p (s.paisTx p) ++ s.tagBlock p
    ++ s.traceTxBytes p (s.txFc % 16) ++ jwBytes part ++ s.tagBytes p
  let (s, varrum) := s.varrumTx p
  let (records, pos) := s.announceFrame p
  let s := s.updMstPath p fun m => { m with recPos := pos }
  let profiles := s.profileBlock p
  let step (acc : State × Bytes) (g : Nat) : State × Bytes :=
    let (s, b) := acc.1.gccTx p g
    (s, acc.2 ++ b)
  let (s, gcc) := (List.range 8).foldl step (s, [])
  (s, padTo 3200 (fixed ++ varrum ++ records ++ profiles ++ gcc))

/-- The frame that the transmit DSP makes its samples from (R137 to R151). -/
def State.txFrame (s : State) (p : Path) (ov : Bytes) (slots : List (Nat × Bytes)) : TxFrame :=
  let x := (s.path p).txd
  { path := p, mode := s.txMode p, prof := x.prof, coef := x.coefAct, map := s.reg (pathReg p Reg.PA_CNV_MAP)
    inj := s.reg (pathReg p Reg.PA_FEC_INJ), overhead := ov, slots := slots }

/-- What the DACs get of a frame; the last three frames count for saturation (R91). -/
def State.toDacs (s : State) (p : Path) (f : Option TxFrame) : State :=
  (s.emit (.dac p (s.path p).cnv.outMuted f)).updTxd p fun x => { x with sent := (f :: x.sent).take 3 }

/-- A running transmitter sends the frame: its overhead and its slots, and the samples that the DACs get of them; while it
is off the DACs get zero (R154). -/
def State.sendFrame (s : State) (p : Path) (part : TxPart) : State :=
  if !s.pathUp p then s
  else if !(s.path p).txd.running then s.toDacs p none
  else
    let (s, ov) := s.frameOverhead p part
    let slots := s.frameSlots p part
    ((s.emit (.line p ov)).emit (.lineSlots p slots)).toDacs p (some (s.txFrame p ov slots))

/-! ### The parts of a boundary -/

/-- The transmit frame counter: it is loaded at the first boundary with an active image after a reset, and advances by
one from then on (R201). -/
def State.countFrame (s : State) : State :=
  if s.fcLoaded then { s with txFc := (s.txFc + 1) % 2 ^ 48 }
  else if s.rte.active then { s with txFc := s.now / 1024 % 2 ^ 48, fcLoaded := true }
  else s

/-- Entries whose fixing moment has passed without a command for it are fixed (R71). -/
def State.fixMissed (s : State) (p : Path) : State :=
  (s.mst.queue.filter fun e =>
    !e.withdrawn && (e.part p).inScope && (e.part p).target.isNone && decide (e.time ≤ s.now + superframes128)).foldl
    (fun s e => s.fixEntry p e.handle) s

/-- `RESTART` of a unit: its actual state goes to off, and it follows its ordered state again (R459). -/
def State.restartUnit (s : State) (i : Nat) : State :=
  let p : Path := if i < 8 then .a else .b
  if !s.rte.active ∨ s.actual i = absentSt then s
  else if i < 16 then
    match i % 8 with
    | 0 => ((s.txDisable p).updCnv p fun c => { c with tx := .off }).txEnWritten p false (s.txEn p)
    | 1 =>
      let s := (s.rxDisable p).updCnv p fun c => { c with rx := .off, adc := List.replicate 4 resetAdc }
      ((s.rxdOff p).lfrUnlocked p).rxEnWritten p false (s.rxEn p)
    | 2 => (s.rxdOff p).lfrUnlocked p
    | _ => if (s.path p).txd.running then
        (s.updTxd p fun t => { t with running := false }).raise (pathSrc p 16) 1 0 0 0
      else s
  else if i < 48 then
    let f := i - 16
    match s.portRec f with
    | some r => (s.portEnter r 0 0).portEn f (flagOf (s.regI Reg.HSF_PORT_CTRL f) 0)
    | none => s
  else
    let l := i - 48
    (s.laneEnter l 0).laneEn l (flagOf (s.regI Reg.HSL_LANE_CTRL l) 0)

/-- The units that wait for a restart. -/
def State.restarts (s : State) : State :=
  let l := s.ctl.restarts
  l.foldl (fun s i => s.restartUnit i) { s with ctl := { s.ctl with restarts := [] } }

/-- The age of the transmit key, and its retirement at the hard life or at frame 0 (R264). -/
def State.txKeyAge (s : State) (p : Path) : State :=
  if !anyKey (s.cry p).txKeys.tx then s
  else
    let a := (s.cry p).txAge
    let s := if decide (2 ^ 38 ≤ a) || wrapPassed (s.cry p).txLast s.txFc then s.retireTx p else s
    s.updCry p fun c => { c with txLast := some s.txFc, txAge := if (s.path p).txd.running then a + 1 else a }

/-- The converters, the DSPs and the local tasks of a path. -/
def State.pathBoundary (s : State) (p : Path) (o : FrameObs) : State :=
  if !s.pathUp p then s
  else
    let o := measuredObs o
    let s := ((s.sidesAtBoundary p).txdAtBoundary p).frameLevels p o
    let s := s.rxdAtBoundary p o
    let s := if s.locked p then s else (s.lfrUnlocked p).contsAlign p
    let s := (((s.lfrMonitor p).fecAtBoundary p).lfrPeriod p).levelFrame p
    let s := s.txKeyAge p
    let s := if s.txFc % 16 = 0 then s.backFill p else s
    ((s.contJudgeAll p).vFollow p).selfRetry p

/-- The milestones of the boundary. -/
def State.milestones (s : State) (p : Path) : State :=
  if s.pathUp p then (s.fixMissed p).applyPath p s.txFc (s.upNs * 65536) else s

/-- The code words that an Ethernet port has received in the frame period: the uncorrectable ones are counted, and a
transparent client's container buffers the blocks (R236, R370). -/
def State.etherIngress (s : State) (f : Nat) (words : List ClientWord) : State :=
  match s.rte.cfg.port f with
  | none => s
  | some r =>
    if r.coding = 1 ∨ (s.port f).state ≠ 5 then s
    else
      let l := words.map (clientBlocks r.parity)
      let (b, rest) := packBits ((s.port f).rxBits ++ (l.flatMap (·.1)).flatten)
      let s := s.updPort f fun x => { x with rsUncorr := wrapTo 16 (x.rsUncorr + (l.filter (·.2)).length), rxBits := rest }
      match s.rte.cfg.contOf 0 f with
      | some (p, c) =>
        if s.client p c = .ether f then s.updCont p c fun x => if x.qual then { x with buf := x.buf ++ b } else x else s
      | none => s

/-- The transparent Ethernet ports transmit (R369). -/
def State.etherFrame (s : State) : State :=
  (s.rte.cfg.ports.filter fun r => r.coding != 1 && !s.rte.cfg.packetPort r.num && (s.port r.num).state == 5).foldl
    (fun s r => s.etherEgress r.num r) s

/-- The mappers, the transmitted frames, and the containers that receive nothing. -/
def State.lineFrames (s : State) : State :=
  if !s.rte.active then s
  else
    let (s, a, b) := s.mapFrame
    let s := (((s.sendFrame .a a).satLevels .a).sendFrame .b b).satLevels .b
    let s := [Path.a, Path.b].foldl (fun s p => if s.pathUp p && !s.locked p then s.contsSilent p else s) s
    if s.inst 6 then s.bondFrame else s

/-- A line frame boundary, of Path A, Path B and the device at once, since they fall on one edge (R72). What it raises is
one group in order of event source (R82, log 104). -/
def State.frameBoundary (s : State) (oA oB : FrameObs) (clients : List (Nat × List ClientWord)) : State :=
  let s := s.advanceFrame.countFrame
  let s := ((s.milestones .a).milestones .b).applyDevice s.nowFine ((s.txFc + 2 ^ 48 - 1) % 2 ^ 48)
  let s := (s.pathBoundary .a oA).pathBoundary .b oB
  let s := s.restarts
  let s := if s.rte.active then clients.foldl (fun s x => s.etherIngress x.1 x.2) s else s
  let s := s.lineFrames.sweepQueue s.txFc
  if s.rte.active then s.etherFrame else s

/-- `FRAME_BOUNDARY`. -/
def execFrameBoundary (obsA obsB : FrameObs) (clients : List (Nat × List ClientWord)) :
    State → Host.Outcome State Fault Refusal :=
  complete fun s => s.frameBoundary obsA obsB clients

end Sys2Proof.Machine
end

