-- ==== Sys2Proof/Machine/Dispatch.lean ====
section
/-!
DEFINITION. One arm per command: a direct call of its meaning.
-/
namespace Sys2Proof.Machine

def exec (i : Instr) (s : State) : Host.Outcome State Fault Refusal :=
  match i with
  | .basicProfileWrite ses u profile => Sys2Proof.Machine.execBasicProfileWrite ses u profile s
  | .registerWrite ses bar2 off val enables => Sys2Proof.Machine.execRegisterWrite ses bar2 off val enables s
  | .lineReferenceLost => Sys2Proof.Machine.execLineReferenceLost s
  | .lineReferencePresent => Sys2Proof.Machine.execLineReferencePresent s
  | .hostReferenceLost => Sys2Proof.Machine.execHostReferenceLost s
  | .hostReferenceReturned => Sys2Proof.Machine.execHostReferenceReturned s
  | .systemReferenceLost => Sys2Proof.Machine.execSystemReferenceLost s
  | .load ses src => Sys2Proof.Machine.execLoad ses src s
  | .loadFinished flashError ups => Sys2Proof.Machine.execLoadFinished flashError ups s
  | .store ses slotB => Sys2Proof.Machine.execStore ses slotB s
  | .storeFinished flashError => Sys2Proof.Machine.execStoreFinished flashError s
  | .amend ses => Sys2Proof.Machine.execAmend ses s
  | .amendVerified ups => Sys2Proof.Machine.execAmendVerified ups s
  | .amdCancel ses => Sys2Proof.Machine.execAmdCancel ses s
  | .commitFloor ses => Sys2Proof.Machine.execCommitFloor ses s
  | .ppsInEdge sinceNs => Sys2Proof.Machine.execPpsInEdge sinceNs s
  | .todMessage msg sinceNs => Sys2Proof.Machine.execTodMessage msg sinceNs s
  | .timeMarkerMissing => Sys2Proof.Machine.execTimeMarkerMissing s
  | .timeMessageAbsent => Sys2Proof.Machine.execTimeMessageAbsent s
  | .holdoverLimit => Sys2Proof.Machine.execHoldoverLimit s
  | .timeSourceWrite ses src => Sys2Proof.Machine.execTimeSourceWrite ses src s
  | .set ses => Sys2Proof.Machine.execSet ses s
  | .add ses => Sys2Proof.Machine.execAdd ses s
  | .cancel ses handle => Sys2Proof.Machine.execCancel ses handle s
  | .milestoneFix p handle => Sys2Proof.Machine.execMilestoneFix p handle s
  | .milestoneApply p => Sys2Proof.Machine.execMilestoneApply p s
  | .deviceMilestoneApply => Sys2Proof.Machine.execDeviceMilestoneApply s
  | .milestoneSecond obsA obsB arbUse cap => Sys2Proof.Machine.execMilestoneSecond obsA obsB arbUse cap s
  | .frameBoundary obsA obsB clients => Sys2Proof.Machine.execFrameBoundary obsA obsB clients s
  | .rxFrame p f => Sys2Proof.Machine.execRxFrame p f s
  | .defectTimer p d v => Sys2Proof.Machine.execDefectTimer p d v s
  | .quarantineEnd p => Sys2Proof.Machine.execQuarantineEnd p s
  | .txEnWrite ses p v => Sys2Proof.Machine.execTxEnWrite ses p v s
  | .rxEnWrite ses p v => Sys2Proof.Machine.execRxEnWrite ses p v s
  | .rowGrantFromQueue => Sys2Proof.Machine.execRowGrantFromQueue s
  | .rowTimeout idx => Sys2Proof.Machine.execRowTimeout idx s
  | .dacPowerUpDone p => Sys2Proof.Machine.execDacPowerUpDone p s
  | .adcCalibrationDone p need => Sys2Proof.Machine.execAdcCalibrationDone p need s
  | .muteWrite ses p v => Sys2Proof.Machine.execMuteWrite ses p v s
  | .reliefIntervalEnd p adc need => Sys2Proof.Machine.execReliefIntervalEnd p adc need s
  | .reliefSwap p adc => Sys2Proof.Machine.execReliefSwap p adc s
  | .go ses p write addr data => Sys2Proof.Machine.execGo ses p write addr data s
  | .laserServiceRequest p => Sys2Proof.Machine.execLaserServiceRequest p s
  | .laserPoll p => Sys2Proof.Machine.execLaserPoll p s
  | .laserReply p reply => Sys2Proof.Machine.execLaserReply p reply s
  | .laserReplyTimeout p => Sys2Proof.Machine.execLaserReplyTimeout p s
  | .rst ses p => Sys2Proof.Machine.execRst ses p s
  | .laserResetEnd p => Sys2Proof.Machine.execLaserResetEnd p s
  | .portEnWrite ses p v => Sys2Proof.Machine.execPortEnWrite ses p v s
  | .laserFtCodeWrite ses p code => Sys2Proof.Machine.execLaserFtCodeWrite ses p code s
  | .rxdRunWrite ses p v => Sys2Proof.Machine.execRxdRunWrite ses p v s
  | .restartAcquisition ses p => Sys2Proof.Machine.execRestartAcquisition ses p s
  | .acquisitionStateEnd p coarse => Sys2Proof.Machine.execAcquisitionStateEnd p coarse s
  | .acquisitionTimeout p => Sys2Proof.Machine.execAcquisitionTimeout p s
  | .profileSearch p => Sys2Proof.Machine.execProfileSearch p s
  | .profileCandidateEnd p => Sys2Proof.Machine.execProfileCandidateEnd p s
  | .loLoopUpdate p moment => Sys2Proof.Machine.execLoLoopUpdate p moment s
  | .txdRunWrite ses p v => Sys2Proof.Machine.execTxdRunWrite ses p v s
  | .coefGenNextWrite ses p next => Sys2Proof.Machine.execCoefGenNextWrite ses p next s
  | .levellingCycleEnd p moment => Sys2Proof.Machine.execLevellingCycleEnd p moment s
  | .levellingRequest p num base set => Sys2Proof.Machine.execLevellingRequest p num base set s
  | .levellingResponse p num code => Sys2Proof.Machine.execLevellingResponse p num code s
  | .levellingRequestTimeout p => Sys2Proof.Machine.execLevellingRequestTimeout p s
  | .apply ses window freeze dwell => Sys2Proof.Machine.execApply ses window freeze dwell s
  | .jWrite ses p j => Sys2Proof.Machine.execJWrite ses p j s
  | .iterationLoopUpdate p => Sys2Proof.Machine.execIterationLoopUpdate p s
  | .decoderExcessReturn p => Sys2Proof.Machine.execDecoderExcessReturn p s
  | .gccTxWrWrite ses p wr => Sys2Proof.Machine.execGccTxWrWrite ses p wr s
  | .gccEnWrite ses p v => Sys2Proof.Machine.execGccEnWrite ses p v s
  | .slotEntryWrite ses entry => Sys2Proof.Machine.execSlotEntryWrite ses entry s
  | .slotGenNextWrite ses p next => Sys2Proof.Machine.execSlotGenNextWrite ses p next s
  | .fleamFrame lane frame bad => Sys2Proof.Machine.execFleamFrame lane frame bad s
  | .fleamEgressRead lane => Sys2Proof.Machine.execFleamEgressRead lane s
  | .rekeyDue p => Sys2Proof.Machine.execRekeyDue p s
  | .rekeyExpWrite ses exp => Sys2Proof.Machine.execRekeyExpWrite ses exp s
  | .rekeyNow ses => Sys2Proof.Machine.execRekeyNow ses s
  | .erase ses => Sys2Proof.Machine.execErase ses s
  | .eraseAll ses => Sys2Proof.Machine.execEraseAll ses s
  | .hello p msg => Sys2Proof.Machine.execHello p msg s
  | .cert p msg => Sys2Proof.Machine.execCert p msg s
  | .kexInit p msg => Sys2Proof.Machine.execKexInit p msg s
  | .kexResp p msg => Sys2Proof.Machine.execKexResp p msg s
  | .auth p msg => Sys2Proof.Machine.execAuth p msg s
  | .done p msg => Sys2Proof.Machine.execDone p msg s
  | .nak p msg => Sys2Proof.Machine.execNak p msg s
  | .quarantine p msg => Sys2Proof.Machine.execQuarantine p msg s
  | .varrumReplyReady p => Sys2Proof.Machine.execVarrumReplyReady p s
  | .helloTimer p => Sys2Proof.Machine.execHelloTimer p s
  | .tRespExpiry p => Sys2Proof.Machine.execTRespExpiry p s
  | .backoffEnd p => Sys2Proof.Machine.execBackoffEnd p s
  | .otpRelease => Sys2Proof.Machine.execOtpRelease s
  | .rngStartupPassed => Sys2Proof.Machine.execRngStartupPassed s
  | .rngStartupTimeout => Sys2Proof.Machine.execRngStartupTimeout s
  | .rngHealthFailure => Sys2Proof.Machine.execRngHealthFailure s
  | .provision ses => Sys2Proof.Machine.execProvision ses s
  | .transfer ses => Sys2Proof.Machine.execTransfer ses s
  | .decommission ses => Sys2Proof.Machine.execDecommission ses s
  | .bootProfile ses => Sys2Proof.Machine.execBootProfile ses s
  | .certLoad ses => Sys2Proof.Machine.execCertLoad ses s
  | .otpCommitDone took => Sys2Proof.Machine.execOtpCommitDone took s
  | .sqTailWrite page tail => Sys2Proof.Machine.execSqTailWrite page tail s
  | .gcmSeal page src aad => Sys2Proof.Machine.execGcmSeal page src aad s
  | .gcmOpen page src aad => Sys2Proof.Machine.execGcmOpen page src aad s
  | .cbcEnc page src => Sys2Proof.Machine.execCbcEnc page src s
  | .cbcDec page src => Sys2Proof.Machine.execCbcDec page src s
  | .cmacGen page src => Sys2Proof.Machine.execCmacGen page src s
  | .cmacVer page src => Sys2Proof.Machine.execCmacVer page src s
  | .hmacGen page src => Sys2Proof.Machine.execHmacGen page src s
  | .hmacVer page src => Sys2Proof.Machine.execHmacVer page src s
  | .xtsEnc page src => Sys2Proof.Machine.execXtsEnc page src s
  | .xtsDec page src => Sys2Proof.Machine.execXtsDec page src s
  | .derive page => Sys2Proof.Machine.execDerive page s
  | .jobErase page => Sys2Proof.Machine.execJobErase page s
  | .jobComplete page dmaError => Sys2Proof.Machine.execJobComplete page dmaError s
  | .erasedAbort page => Sys2Proof.Machine.execErasedAbort page s
  | .pageReset ses disable => Sys2Proof.Machine.execPageReset ses disable s
  | .macFrameRx port frame bad t => Sys2Proof.Machine.execMacFrameRx port frame bad t s
  | .macFrameTx port => Sys2Proof.Machine.execMacFrameTx port s
  | .passStart engine => Sys2Proof.Machine.execPassStart engine s
  | .drop engine => Sys2Proof.Machine.execDrop engine s
  | .nop engine => Sys2Proof.Machine.execNop engine s
  | .ldf engine => Sys2Proof.Machine.execLdf engine s
  | .ldr engine => Sys2Proof.Machine.execLdr engine s
  | .movi engine => Sys2Proof.Machine.execMovi engine s
  | .movhi engine => Sys2Proof.Machine.execMovhi engine s
  | .sub engine => Sys2Proof.Machine.execSub engine s
  | .and engine => Sys2Proof.Machine.execAnd engine s
  | .or engine => Sys2Proof.Machine.execOr engine s
  | .xor engine => Sys2Proof.Machine.execXor engine s
  | .shl engine => Sys2Proof.Machine.execShl engine s
  | .shr engine => Sys2Proof.Machine.execShr engine s
  | .addi engine => Sys2Proof.Machine.execAddi engine s
  | .andi engine => Sys2Proof.Machine.execAndi engine s
  | .ori engine => Sys2Proof.Machine.execOri engine s
  | .shli engine => Sys2Proof.Machine.execShli engine s
  | .shri engine => Sys2Proof.Machine.execShri engine s
  | .cmp engine => Sys2Proof.Machine.execCmp engine s
  | .cmpi engine => Sys2Proof.Machine.execCmpi engine s
  | .br engine => Sys2Proof.Machine.execBr engine s
  | .adv engine => Sys2Proof.Machine.execAdv engine s
  | .setc engine => Sys2Proof.Machine.execSetc engine s
  | .key engine => Sys2Proof.Machine.execKey engine s
  | .keyr engine => Sys2Proof.Machine.execKeyr engine s
  | .chklen engine => Sys2Proof.Machine.execChklen engine s
  | .flag engine => Sys2Proof.Machine.execFlag engine s
  | .lookup engine ups => Sys2Proof.Machine.execLookup engine ups s
  | .cycleLimit engine => Sys2Proof.Machine.execCycleLimit engine s
  | .insert ses => Sys2Proof.Machine.execInsert ses s
  | .delete ses => Sys2Proof.Machine.execDelete ses s
  | .read ses => Sys2Proof.Machine.execRead ses s
  | .update ses => Sys2Proof.Machine.execUpdate ses s
  | .clear ses => Sys2Proof.Machine.execClear ses s
  | .flowCommandComplete => Sys2Proof.Machine.execFlowCommandComplete s
  | .learnInsert => Sys2Proof.Machine.execLearnInsert s
  | .calendarBin => Sys2Proof.Machine.execCalendarBin s
  | .unitRequest p cont t bad => Sys2Proof.Machine.execUnitRequest p cont t bad s
  | .queueSample t => Sys2Proof.Machine.execQueueSample t s
  | .gateGenNextWrite ses p next => Sys2Proof.Machine.execGateGenNextWrite ses p next s
  | .en ses v => Sys2Proof.Machine.execEn ses v s
  | .restart ses => Sys2Proof.Machine.execRestart ses s
  | .terminationProbe port sensed => Sys2Proof.Machine.execTerminationProbe port sensed s
  | .signalDetected port => Sys2Proof.Machine.execSignalDetected port s
  | .signalLost lane => Sys2Proof.Machine.execSignalLost lane s
  | .portStateTimeout port => Sys2Proof.Machine.execPortStateTimeout port s
  | .trainingFrame lane request status crc want early => Sys2Proof.Machine.execTrainingFrame lane request status crc want early s
  | .carriageFrame port frames => Sys2Proof.Machine.execCarriageFrame port frames s
  | .carriageFrameSet port => Sys2Proof.Machine.execCarriageFrameSet port s
  | .laneEn ses v => Sys2Proof.Machine.execLaneEn ses v s
  | .laneRestart ses => Sys2Proof.Machine.execLaneRestart ses s
  | .laneStateAdvance lane => Sys2Proof.Machine.execLaneStateAdvance lane s
  | .laneStateTimeout lane => Sys2Proof.Machine.execLaneStateTimeout lane s
  | .laneAdaptationUpdate lane want => Sys2Proof.Machine.execLaneAdaptationUpdate lane want s
  | .laneQuarantineEnd lane => Sys2Proof.Machine.execLaneQuarantineEnd lane s
  | .ringMessage lane15 msg cv sinceNs => Sys2Proof.Machine.execRingMessage lane15 msg cv sinceNs s
  | .ringSecondMarker lane15 sinceNs => Sys2Proof.Machine.execRingSecondMarker lane15 sinceNs s
  | .ringTimeSend => Sys2Proof.Machine.execRingTimeSend s
  | .ringMgmtRead source dest tag off => Sys2Proof.Machine.execRingMgmtRead source dest tag off s
  | .ringMgmtWrite source dest tag off val => Sys2Proof.Machine.execRingMgmtWrite source dest tag off val s
  | .bypassClose cause => Sys2Proof.Machine.execBypassClose cause s
  | .vddRingFall => Sys2Proof.Machine.execVddRingFall s
  | .bypassOpen => Sys2Proof.Machine.execBypassOpen s
  | .bar4Write addr data => Sys2Proof.Machine.execBar4Write addr data s
  | .bar4Read addr len ups => Sys2Proof.Machine.execBar4Read addr len ups s
  | .mergeDone ups => Sys2Proof.Machine.execMergeDone ups s
  | .sramWalk ups => Sys2Proof.Machine.execSramWalk ups s
  | .scrubPassStart => Sys2Proof.Machine.execScrubPassStart s
  | .scrubBurstDone ups => Sys2Proof.Machine.execScrubBurstDone ups s
  | .scrubPassEnd => Sys2Proof.Machine.execScrubPassEnd s
  | .remapCopyDone => Sys2Proof.Machine.execRemapCopyDone s
  | .remapSwitch => Sys2Proof.Machine.execRemapSwitch s
  | .commit ses => Sys2Proof.Machine.execCommit ses s
  | .ledgerClear ses => Sys2Proof.Machine.execLedgerClear ses s
  | .monitorTimer t => Sys2Proof.Machine.execMonitorTimer t s
  | .sequenceGo ses => Sys2Proof.Machine.execSequenceGo ses s
  | .urgentDue => Sys2Proof.Machine.execUrgentDue s
  | .conversionDone raw => Sys2Proof.Machine.execConversionDone raw s
  | .resAck ses => Sys2Proof.Machine.execResAck ses s
  | .selfCal ses => Sys2Proof.Machine.execSelfCal ses s
  | .selfCalDone sum39 sum38 => Sys2Proof.Machine.execSelfCalDone sum39 sum38 s
  | .monCalWrite ses val => Sys2Proof.Machine.execMonCalWrite ses val s
  | .chainApply ses => Sys2Proof.Machine.execChainApply ses s
  | .ditherHalfPeriod p => Sys2Proof.Machine.execDitherHalfPeriod p s
  | .ditherTurnEnd p => Sys2Proof.Machine.execDitherTurnEnd p s
  | .rxLevelLoopUpdate p => Sys2Proof.Machine.execRxLevelLoopUpdate p s
  | .fcalApply ses => Sys2Proof.Machine.execFcalApply ses s
  | .dacCodeWrite ses code => Sys2Proof.Machine.execDacCodeWrite ses code s
  | .flr => Sys2Proof.Machine.execFlr s
  | .pcieLinkDown => Sys2Proof.Machine.execPcieLinkDown s
  | .perstN => Sys2Proof.Machine.execPerstN s
  | .mntRegisterWrite off val => Sys2Proof.Machine.execMntRegisterWrite off val s
  | .mntRegisterRead req => Sys2Proof.Machine.execMntRegisterRead req s
  | .mntMemoryWrite addr val => Sys2Proof.Machine.execMntMemoryWrite addr val s
  | .mntMemoryRead addr => Sys2Proof.Machine.execMntMemoryRead addr s
  | .mntReadComplete ups => Sys2Proof.Machine.execMntReadComplete ups s
  | .mntSessionReset => Sys2Proof.Machine.execMntSessionReset s
  | .mntCsAbort => Sys2Proof.Machine.execMntCsAbort s
  | .stateRestart ses => Sys2Proof.Machine.execStateRestart ses s
  | .mismatchTimeout u => Sys2Proof.Machine.execMismatchTimeout u s
  | .acquire ses dom => Sys2Proof.Machine.execAcquire ses dom s
  | .renew ses dom => Sys2Proof.Machine.execRenew ses dom s
  | .lockCommit ses dom => Sys2Proof.Machine.execLockCommit ses dom s
  | .abort ses dom => Sys2Proof.Machine.execAbort ses dom s
  | .leaseExpiry dom => Sys2Proof.Machine.execLeaseExpiry dom s
  | .holdoffEnd v => Sys2Proof.Machine.execHoldoffEnd v s
  | .lossMarker => Sys2Proof.Machine.execLossMarker s
  | .spillSectorWrite failed => Sys2Proof.Machine.execSpillSectorWrite failed s
  | .spillRead ses sector => Sys2Proof.Machine.execSpillRead ses sector s
  | .spillReadDone => Sys2Proof.Machine.execSpillReadDone s
  | .pmcCfgWrite ses n val => Sys2Proof.Machine.execPmcCfgWrite ses n val s
  | .dumpWritten => Sys2Proof.Machine.execDumpWritten s
  | .waysideItemDone item found ups => Sys2Proof.Machine.execWaysideItemDone item found ups s
  | .supplyWarning rail => Sys2Proof.Machine.execSupplyWarning rail s
  | .supplyReset rail => Sys2Proof.Machine.execSupplyReset rail s
  | .pwrSwReset ses => Sys2Proof.Machine.execPwrSwReset ses s
  | .thermalReading raw => Sys2Proof.Machine.execThermalReading raw s
  | .ceilingWrite ses v => Sys2Proof.Machine.execCeilingWrite ses v s
  | .timeoutWrite ses v => Sys2Proof.Machine.execTimeoutWrite ses v s
  | .laneLockLost lane => Sys2Proof.Machine.execLaneLockLost lane s
  | .ethernetPortAligned port => Sys2Proof.Machine.execEthernetPortAligned port s
  | .ethernetAlignmentLost port => Sys2Proof.Machine.execEthernetAlignmentLost port s
  | .registerRead bar2 off => Sys2Proof.Machine.execRegisterRead bar2 off s
  | .powerOn => Sys2Proof.Machine.execPowerOn s
  | .resetNLow => Sys2Proof.Machine.execResetNLow s
  | .resetRelease => Sys2Proof.Machine.execResetRelease s
  | .swResetHoldEnd => Sys2Proof.Machine.execSwResetHoldEnd s
  | .tripHoldEnd => Sys2Proof.Machine.execTripHoldEnd s
  | .conversionDue => Sys2Proof.Machine.execConversionDue s
  | .perstNRelease => Sys2Proof.Machine.execPerstNRelease s

end Sys2Proof.Machine
end

