-- ==== Sys2Proof/Safety.lean ====
section
/-!
DEFINITION. The terms that claims use: what a completed command answers, what the reports that close a command may change,
an accepted host write, and the invariant of the machine between commands.
-/
namespace Sys2Proof.Machine

/-! ### Commands that complete -/

/-- The command runs to a next state, and that state satisfies `P`. -/
def Runs (c : Instr) (s : State) (P : State → Prop) : Prop := ∃ t, exec c s = .next t ∧ P t

/-- The parts of a state that no report of an event touches: all but the outputs, the occurrences in progress, the event
registers, the device counters and the memory die. -/
def State.plain (s : State) : State :=
  { s with out := [], batch := [], evt := State.reset.evt, pmc := State.reset.pmc, mem := State.reset.mem }

/-- Whether a memory die word belongs to the journal ring (R470). -/
def inJournal (w : Nat) : Prop := journalBase / 32 ≤ w ∧ w < journalBase / 32 + 32768

/-- A memory die word is the same in two states: its bytes, its written and poison bits, its bits in error and its data
in the merge buffer. -/
def sameWord (m n : MemState) (w : Nat) : Prop :=
  (∀ i, i < 32 → n.byte (32 * w + i) = m.byte (32 * w + i)) ∧ n.isWritten w = m.isWritten w ∧
  n.poisoned w = m.poisoned w ∧ n.upsets w = m.upsets w ∧ n.mergeOf w = m.mergeOf w

/-- What taking occurrences into the journal may change (R464, R466, R468, R469, R471): records in the ring, pending
bits, sequence number, suppression, vectors and the spill buffer, counters of events, and MSI-X messages sent. -/
structure Journals (u t : State) : Prop where
  plain   : t.plain = u.plain
  waits   : t.batch = u.batch
  sent    : ∃ l : List Nat, t.out = u.out ++ l.map Out.msix
  counts  : t.pmc = { u.pmc with cnt := t.pmc.cnt, ovf := t.pmc.ovf }
  spilled : t.evt.spillNext = u.evt.spillNext ∧ t.evt.spillFlush = u.evt.spillFlush ∧ t.evt.sectors = u.evt.sectors ∧
    t.evt.spillRead = u.evt.spillRead ∧ t.evt.spillDone = u.evt.spillDone
  pends   : ∀ n, u.evt.pend.testBit n = true → t.evt.pend.testBit n = true
  die     : t.mem = { u.mem with
    bytes := t.mem.bytes, written := t.mem.written, poison := t.mem.poison, upset := t.mem.upset, merge := t.mem.merge }
  words   : ∀ w, ¬ inJournal w → sameWord u.mem t.mem w
  form    : Memory.wf u.mem = true → Memory.wf t.mem = true

/-- The state in which the turns and the mismatches that a command's effect `u` has ended are reported (R438, R458). -/
def State.swept (u : State) : State := ((u.turnSweep .a).turnSweep .b).mismatchSweep

/-- `t` is a command's effect `u` after its reports: the mismatches that have ended are no longer held, dither turns whose
conditions have gone are abandoned, and every occurrence, with its source, subtype, instance and values, has been taken:
after a loss marker that has become possible (R468), in the order of R467, an event by the three acts of a raise or, beyond
the limit of its second, by suppression (R464), any other kind by its record. With nothing to report, events, counters and
the memory die are as the effect left them. -/
structure Reported (u t : State) : Prop where
  plain   : t.plain = { u with
    ctl := { u.ctl with mismatch := u.ctl.mismatch.filter u.mismatched }
    mon := ((u.turnSweep .a).turnSweep .b).mon }.plain
  journal : Journals u.swept { t with batch := u.swept.batch }
  taken   : u.swept.batch ≠ [] →
    t = (sortOccs u.swept.batch).foldl (fun s o => s.dispose o) ({ u.swept with batch := [] }).lossMarker
  empty   : t.batch = []
  quiet   : u.swept.batch = [] → t.evt = u.evt ∧ t.pmc = u.pmc ∧ t.mem = u.mem
  raised  : ∀ o ∈ u.batch, o.kind = 0 → o.limit = 0 → t.evt.pend.testBit o.src = true

/-- The command completes, and its effect on the state that it begins in is `u`; nothing else changes but for the
reports of events. -/
def Answers (c : Instr) (s u : State) : Prop := Runs c s (Reported u)

/-! ### Host writes -/

/-- Whether a write of `w` at `off` by a session reaches its register and is accepted: the device runs, the session's port
acts, a ring session may write (R451), no lock covers the register's block (R462), and no rule refuses the value (R454 to
R456). -/
def Accepted (s : State) (ses : Session) (off : Nat) (w : Word) : Prop :=
  s.pwr.inReset = false ∧ s.reaches ses = true ∧ (∀ st, ses = .ring st → s.ringWrites = true) ∧
  s.begin.lockCode (sessionNum ses) off = acOk ∧ s.begin.judge .host off w = acOk

/-- The state in which an accepted write of `off` by a session takes effect: the command has begun, and the session's
result is `OK` (R456). -/
def State.access (s : State) (ses : Session) (off : Nat) : State := s.begin.noteAccess (sessionNum ses) acOk off

/-- What every accepted write does first: the session's result is `OK` (R456), the register's stored fields hold the word,
class M fields in their shadow (R9, R70), and an expert write marks its unit's profile custom (R10). -/
def State.stores (s : State) (ses : Session) (off : Nat) (w : Word) : State :=
  match regDesc off with
  | none => s.access ses off
  | some d => ((s.access ses off).storeReg off d w).markProfile off d

/-- The word of a command that writes one field: the other fields as the register holds them (log 83). -/
def State.withField (s : State) (off hi lo v : Nat) : Word := setField (s.begin.writeBase off) hi lo v

/-- The command completes as an accepted write with the effect `u`: the session hears `OK` where its port
answers writes. -/
def Writes (c : Instr) (s : State) (ses : Session) (u : State) : Prop := Answers c s (u.portAnswer ses (some acOk))

/-- `u` is `s` with the locks of the sessions of `who` broken (R463): their domains are free and broken, event 302 tells of
each, other domains are as they were, and no staged write has been applied: no register differs but the MSI-X table and
`PMC_DUMP_CTRL`, which a PCIe session's reset clears (R448). -/
structure Broke (who : Nat → Prop) (s u : State) : Prop where
  broke : ∀ d n, d < 8 → (s.lock d).owner = some n → who n →
    u.lock d = ⟨none, true, []⟩ ∧ (⟨0, 302, 1, d, d, n, false, 0⟩ : Occ) ∈ u.batch
  kept  : ∀ d, (∀ n, (s.lock d).owner = some n → ¬ who n) → u.lock d = s.lock d
  regs  : ∀ key, (key < Reg.MSIX_TABLE ∨ Reg.MSIX_TABLE + 1024 ≤ key) → key ≠ Reg.PMC_DUMP_CTRL →
    sparseGet regReset u.cfg key = sparseGet regReset s.cfg key
  rest  : u.shadow = s.shadow ∧ u.custom = s.custom

/-! ### A running path -/

/-- A path sends alone: the device is out of reset, the active image instantiates nothing but the path's chains and their
encryption, frames are counted, the transmitter runs with its side, and nothing of an amendment or of the rails waits. -/
structure SendsAlone (s : State) (p : Path) : Prop where
  awake   : s.pwr.inReset = false
  active  : s.rte.active = true
  up      : s.pathUp p = true
  units   : ∀ i, s.inst i = true → i = pathNum p ∨ i = 4 + pathNum p
  counted : s.fcLoaded = true
  side    : (s.path p).cnv.tx = .running ∧ s.txEn p = true
  sends   : (s.path p).txd.running = true ∧ s.pflag p Reg.PA_TXD_CTRL 0 = true
  rests   : s.rte.amd = none ∧ s.selfSet p = none

/-! ### Bias outputs -/

/-- The output that a level sets on a bias DAC: the level held to the DAC's codes, with its voltage (R434). -/
def State.biased (s : State) (dac : Nat) (level : Int) : Out :=
  let code := (clampInt level 0 65535).toNat
  .monitor dac code (s.biasVolts dac code)

/-! ### Device resets -/

/-- `t` is the machine right after a device reset with a cause (R483): what the table's note lists, and what survives. -/
structure ResetTo (s : State) (code : Nat) (t : State) : Prop where
  held   : t.pwr.inReset = true
  cause  : t.pwr.cause = code
  count  : t.pwr.count = if code = 1 then 0 else (s.pwr.count + 1) % 65536
  regs   : ∀ key, key ≠ Reg.MST_TIME_CTRL → key ≠ Reg.PWR_CEILING → sparseGet regReset t.cfg key = regReset key
  units  : t.pa = State.reset.pa ∧ t.pb = State.reset.pb ∧ t.cnt = State.reset.cnt ∧ t.sch = State.reset.sch ∧
    t.pkt = State.reset.pkt ∧ t.hsf = State.reset.hsf ∧ t.hsl = { State.reset.hsl with vddRing := s.hsl.vddRing } ∧
    t.mon = State.reset.mon
  stores : t.mem = State.reset.mem ∧ t.pmc = State.reset.pmc ∧ t.rails = [] ∧ t.shadow = [] ∧ t.custom = [] ∧
    t.tables = [] ∧ t.tblShadow = []
  time   : t.mst.sec = 0 ∧ t.mst.ns = 0 ∧ t.mst.queue = [] ∧ t.fcLoaded = false
  source : fieldOf (sparseGet regReset t.cfg Reg.MST_TIME_CTRL) 1 0 = t.tru.profile.time % 4
  events : t.evt = { State.reset.evt with sectors := s.evt.sectors }
  image  : t.rte.active = false ∧ t.rte.op = none
  keys   : t.tru.pages = State.reset.tru.pages ∧ t.tru.br = none ∧ t.tru.drbg = State.reset.tru.drbg
  otp    : s.tru.busy = none → t.tru.otp = s.tru.otp
  flash  : t.rte.flashSize = s.rte.flashSize ∧
    ((∀ b, s.rte.op ≠ some (.store b)) → t.rte.slotA = s.rte.slotA ∧ t.rte.slotB = s.rte.slotB)
  boot   : t.rte.nextBoot = if code = 1 then 0 else s.rte.nextBoot
  queue  : t.pending = s.pending

/-! ### The invariant -/

/-- A dither turn in progress belongs to a loop that runs, on DACs that are ready (R438). -/
def State.turnHolds (s : State) (p : Path) : Prop :=
  ∀ t, (s.dither p).turn = some t →
    (s.rail (optLoop p t.loop)).freeze = false ∧ flagOf (s.optCtrl p t.loop) 15 = true ∧ (s.path p).cnv.dacReady = true

/-- Between commands no occurrence waits (R464), every mismatch that is held holds (R458), and every dither turn has its
conditions (R438). -/
structure Inv (s : State) : Prop where
  batch    : s.batch = []
  mismatch : ∀ i ∈ s.ctl.mismatch, s.mismatched i = true
  turnA    : s.turnHolds .a
  turnB    : s.turnHolds .b

end Sys2Proof.Machine
end

