-- ==== Sys2Proof/Certificates/Slice0/Obligations.lean ====
section
/-!
DEFINITION. The statements for the provers. A statement whose docstring names a log entry formalises the model's choice
there; the others formalise the rules that they cite.
-/
open Sys2Proof Sys2Proof.Machine

/-! ### The machine as a whole -/

/-- A step runs the command at the front of the queue on the state with the queue's rest; with an empty queue the block
idles, which is the model's choice (log 1). -/
def Obligations.StepRunsFront : Prop :=
  (∀ (s : State) (c : Instr) (rest : List Instr),
     step { s with pending := c :: rest } = exec c { s with pending := rest }) ∧
  (∀ s : State, s.pending = [] → step s = .next s)

/-- The machine after a power-on reset holds what R483 and R29 state: it is in reset, time and journal start at 0, no
image is active, no grant is held, nothing is written in memory. The model's choices in it: log 4, 9, 11, 13, 30. -/
def Obligations.ResetState : Prop :=
  ResetTo State.reset 1 State.reset ∧ State.reset.pending = [] ∧ State.reset.pwr.grants = [] ∧
  State.reset.pwr.queue = [] ∧ (∀ w, State.reset.mem.isWritten w = false) ∧ State.reset.reg Reg.PWR_CTRL = 0x001E0064 ∧
  State.reset.reg Reg.PWR_THERM = 0x8C827800 ∧ State.reset.base = 3500

/-- The invariant holds at reset. -/
def Obligations.ResetInvariant : Prop := Inv State.reset

/-- Every step keeps the invariant: no occurrence is left waiting (R464), every mismatch that is held holds (R458), and
every dither turn has its conditions (R438). The model's choices in it: log 15. -/
def Obligations.StepKeepsInvariant : Prop :=
  ∀ s t : State, Inv s → step s = .next t → Inv t

/-- Every command completes: none of them stops the machine. In reset the device acts on nothing but its supplies,
references, temperatures, reset pins and hold times: every other command leaves it as it is. The model's choices in it:
log 2, 19. -/
def Obligations.CommandsComplete : Prop :=
  (∀ (c : Instr) (s : State), ∃ t, exec c s = .next t) ∧
  (∀ (c : Instr) (s t : State), s.pwr.inReset = true →
     c ≠ .powerOn → c ≠ .resetNLow → c ≠ .resetRelease → c ≠ .systemReferenceLost → c ≠ .swResetHoldEnd →
     c ≠ .tripHoldEnd → c ≠ .lineReferenceLost → c ≠ .lineReferencePresent → c ≠ .perstN → c ≠ .perstNRelease →
     (∀ r, c ≠ .supplyReset r) → (∀ r, c ≠ .thermalReading r) →
     exec c s = .next t → t = { s with out := [], batch := [], freeCtr := s.freeCtr + 1 })

/-! ### Resets, power and references (19_power_and_bringup.md, R29) -/

/-- R482, R483, R492: every cause of the table gives a device reset with its code, and the device is held in reset by
what caused it. When the last hold ends the device leaves reset, and the load that the boot profile asks for starts;
while another hold lasts it stays in reset. The model's choices in it: log 18, 78, 79. -/
def Obligations.DeviceResets : Prop :=
  (∀ s : State,
     Runs .powerOn s (fun t => ResetTo s 1 t ∧ t.pwr.pinHold = true) ∧
     Runs .resetNLow s (fun t => ResetTo s 2 t ∧ t.pwr.pinHold = true) ∧
     Runs .systemReferenceLost s (fun t => ResetTo s 3 t ∧ t.pwr.pinHold = true ∧ t.pwr.sysRef = false) ∧
     (∀ rail, rail.toNat < 5 →
       Runs (.supplyReset rail) s (fun t => ResetTo s 4 t ∧ t.pwr.pinHold = true ∧ t.pwr.rail = rail.toNat)) ∧
     (∀ ses, Accepted s ses Reg.PWR_SW_RESET 0xA5 →
       Runs (.pwrSwReset ses) s (fun t => ResetTo s 6 t ∧ t.pwr.swHold = true))) ∧
  (∀ s : State, s.pwr.inReset = true →
     (s.pwr.tripHold = false → s.pwr.swHold = false → Runs .resetRelease s (fun t =>
       t.pwr.inReset = false ∧ t.pwr.pinHold = false ∧ t.pwr.lineRef = true ∧ t.pwr.hostRef = true ∧ t.pwr.sysRef = true ∧
       t.rte.op = (if s.tru.profile.src = 3 then s.rte.op else some (.load s.tru.profile.src)) ∧
       t.cfg = s.cfg ∧ t.mst = s.mst ∧ t.pa = s.pa ∧ t.pb = s.pb ∧ t.tru = s.tru)) ∧
     (s.pwr.pinHold = false → s.pwr.tripHold = false → Runs .swResetHoldEnd s (fun t =>
       t.pwr.inReset = false ∧ t.pwr.swHold = false ∧
       t.rte.op = (if s.tru.profile.src = 3 then s.rte.op else some (.load s.tru.profile.src)) ∧ t.cfg = s.cfg)) ∧
     (s.pwr.pinHold = false → s.pwr.swHold = false → Runs .tripHoldEnd s (fun t =>
       t.pwr.inReset = false ∧ t.pwr.tripHold = false ∧
       t.rte.op = (if s.tru.profile.src = 3 then s.rte.op else some (.load s.tru.profile.src)) ∧ t.cfg = s.cfg)) ∧
     (s.pwr.tripHold = true → Answers .swResetHoldEnd s { s.begin with pwr := { s.pwr with swHold := false } }) ∧
     (s.pwr.pinHold = true → Answers .tripHoldEnd s { s.begin with pwr := { s.pwr with tripHold := false } }))

/-- R490, R491: the third reading in a row whose highest sensor is at or above `TRIP` resets the device with code 5. A
reading below `TRIP` sets and clears `WARN` and `HOT` with 5 degC of hysteresis, each change with its event, out of
reset; the sensors read as measured. The model's choices in it: log 78. -/
def Obligations.ThermalLimits : Prop :=
  (∀ (s : State) (raw : List Int), raw.length = 12 → s.pwr.thermOff = List.replicate 12 0 → 2 ≤ s.pwr.tripRun →
     (∃ x ∈ raw, ((s.fld Reg.PWR_THERM 31 24 * 64 : Nat) : Int) ≤ x) →
     Runs (.thermalReading raw) s (fun t => ResetTo s 5 t ∧ t.pwr.tripHold = true)) ∧
  (∀ (s : State) (raw : List Int) (top : Int), raw.length = 12 → s.pwr.thermOff = List.replicate 12 0 →
     s.pwr.inReset = false → top ∈ raw → (∀ x ∈ raw, x ≤ top) → top < ((s.fld Reg.PWR_THERM 31 24 * 64 : Nat) : Int) →
     Runs (.thermalReading raw) s (fun t =>
       t.pwr.temps = raw ∧ t.pwr.tripRun = 0 ∧ t.pwr.inReset = false ∧
       (t.pwr.warn = true ↔ ((s.fld Reg.PWR_THERM 15 8 * 64 : Nat) : Int) - (if s.pwr.warn then 320 else 0) ≤ top) ∧
       (t.pwr.hot = true ↔ ((s.fld Reg.PWR_THERM 23 16 * 64 : Nat) : Int) - (if s.pwr.hot then 320 else 0) ≤ top) ∧
       (t.pwr.warn ≠ s.pwr.warn → t.evt.pend.testBit 290 = true) ∧
       (t.pwr.hot ≠ s.pwr.hot → t.evt.pend.testBit 291 = true) ∧
       (s.pwr.queue = [] → t.cfg = s.cfg ∧ t.rte = s.rte ∧ t.pa = s.pa ∧ t.pb = s.pb ∧ t.mst = s.mst)))

/-- R29: a reference that is lost or present again is noted and reported; loss of the line reference mutes the DACs of
every path in use and takes its sides off under their grants, loss of the host reference closes the ring bypass. The
model's choices in it: log 25, 51, 128. -/
def Obligations.References : Prop :=
  ∀ s : State, s.pwr.inReset = false →
    (s.pwr.lineRef = true → Runs .lineReferenceLost s (fun t =>
      t.pwr = { s.pwr with lineRef := false } ∧ t.evt.pend.testBit 295 = true ∧
      (∀ p, s.pathUp p = true → (t.path p).cnv.outMuted = true ∧ (t.path p).cnv.tx ≠ .running ∧
        (t.path p).cnv.tx ≠ .starting ∧ (t.path p).cnv.rx ≠ .running ∧ (t.path p).cnv.rx ≠ .starting ∧
        ((s.path p).cnv.tx = .running → (t.path p).cnv.tx = .lineOff)) ∧
      (∀ p, s.pathUp p = false → t.path p = s.path p))) ∧
    (s.pwr.lineRef = false → Answers .lineReferencePresent s
      (({ s.begin with pwr := { s.pwr with lineRef := true } }).raise 295 2 0 0 0)) ∧
    (s.ringOn = true → Runs .hostReferenceLost s (fun t =>
      t.pwr = { s.pwr with hostRef := false } ∧ t.hsl.bypassOpen = false ∧ t.cfg = s.cfg ∧ t.mst = s.mst)) ∧
    Runs .hostReferenceReturned s (fun t =>
      t.pwr = { s.pwr with hostRef := true } ∧ (s.rte.active = false → t.hsf = s.hsf) ∧ t.cfg = s.cfg ∧ t.pa = s.pa ∧
      t.pb = s.pb) ∧
    (∀ rail, rail.toNat < 5 → Answers (.supplyWarning rail) s
      (({ s.begin with pwr := { s.pwr with warned := s.pwr.warned ||| 2 ^ rail.toNat } }).raiseItem 294 0 rail.toNat
        rail.toNat 0))

/-- R487, R488: the head of the queue is granted when it fits, a request that has waited its time leaves the queue with
its count and event 289. A new ceiling takes effect at once: it withdraws no grant, `OVER` says whether the allocation
exceeds it, and a queued carrier enable that can no longer fit is denied; a new timeout ends at once the wait of a
request that has waited longer, and no other. The model's choices in it: log 83. -/
def Obligations.Governor : Prop :=
  (∀ s : State, s.pwr.inReset = false →
     (∀ q, s.pwr.queue = [q] → q.idx = 0 → s.alloc + q.cost ≤ s.effCeiling → s.pwr.lineRef = true →
       Runs .rowGrantFromQueue s (fun t =>
         t.pwr.queue = [] ∧ (0 < q.cost → (0, q.cost) ∈ t.pwr.grants) ∧ t.pa.cnv.tx = .starting ∧ t.pb = s.pb ∧
         t.cfg = s.cfg)) ∧
     (∀ q rest, s.pwr.queue = q :: rest → s.effCeiling < s.alloc + q.cost → Answers .rowGrantFromQueue s s.begin) ∧
     (∀ q, s.pwr.queue = [q] → q.idx = 0 → Runs (.rowTimeout 0#4) s (fun t =>
       t.pwr.queue = [] ∧ t.pwr.timeouts = (s.pwr.timeouts + 1) % 65536 ∧ t.pwr.denied = s.pwr.denied ∧
       t.evt.pend.testBit 289 = true ∧ t.pa.cnv.tx = .off ∧ t.pa.cnv.txDenied = true ∧ t.pb = s.pb ∧ t.mst = s.mst))) ∧
  (∀ (s : State) (ses : Session) (w : Word),
     (∀ c : BitVec 9, w = s.withField Reg.PWR_CEILING 8 0 c.toNat → Accepted s ses Reg.PWR_CEILING w →
       (s.pwr.queue = [] → Runs (.ceilingWrite ses c) s fun t =>
         t.fld Reg.PWR_CEILING 8 0 = c.toNat ∧ t.pwr = { s.pwr with overCeil := decide (t.effCeiling < t.alloc) } ∧
         t.alloc = s.alloc ∧ (t.pwr.overCeil ≠ s.pwr.overCeil → t.evt.pend.testBit 288 = true)) ∧
       (∀ q, s.pwr.queue = [q] → q.idx = 0 →
         (100 * c.toNat < s.base + q.cost → Runs (.ceilingWrite ses c) s fun t =>
           t.pwr.queue = [] ∧ t.pwr.denied = (s.pwr.denied + 1) % 65536 ∧ t.pwr.grants = s.pwr.grants ∧
           t.pa.cnv.tx = .off ∧ t.pa.cnv.txDenied = true ∧ t.evt.pend.testBit 289 = true) ∧
         (s.base + q.cost + 100 * s.fld Reg.PWR_CTRL 23 16 ≤ 100 * c.toNat → Runs (.ceilingWrite ses c) s fun t =>
           t.pwr.queue = [q] ∧ t.pwr.denied = s.pwr.denied ∧ t.pwr.grants = s.pwr.grants))) ∧
     (∀ (c : BitVec 14) (v : State), w = s.withField Reg.PWR_CTRL 13 0 c.toNat → v = s.stores ses Reg.PWR_CTRL w →
       Accepted s ses Reg.PWR_CTRL w → ∀ q, s.pwr.queue = [q] → q.idx = 0 →
         (q.since + 1000000 * c.toNat < s.upNs → c.toNat ≠ s.fld Reg.PWR_CTRL 13 0 → Runs (.timeoutWrite ses c) s fun t =>
           t.pwr.queue = [] ∧ t.pwr.timeouts = (s.pwr.timeouts + 1) % 65536 ∧ t.pwr.grants = s.pwr.grants ∧
           t.pa.cnv.tx = .off ∧ t.pa.cnv.txDenied = true ∧ t.evt.pend.testBit 289 = true) ∧
         (s.upNs ≤ q.since + 1000000 * c.toNat → Writes (.timeoutWrite ses c) s ses v)))

/-! ### Milestone time and milestones (03_milestones.md) -/

/-- R64: a marker is captured at its own time within the frame (R511), and the third qualified second locks the time
state: a small offset is slewed, a large one stepped; in LOCKED a qualified second disciplines the counter. A missing
marker, or a second without a message after one without, ends in HOLDOVER, which keeps the disciplined rate, and the
limit of HOLDOVER in LOST. Each change raises event 299. The model's choices in it: log 2, 16, 76, 102. -/
def Obligations.TimeStates : Prop :=
  ∀ s : State, s.pwr.inReset = false → (s.timeSrc = 1 ∨ s.timeSrc = 2) →
    (∀ (since sec ns : Nat) (off : Int) (v w : State), s.timeSrc = 1 → s.mst.markerSeen = true →
      999900000 ≤ since → since ≤ 1000100000 → s.mst.msgTime = some (sec, ns) → s.mst.msgGood = true →
      v = s.begin.timeTo (s.timeAt (s.moment (s.mst.markAt + since))) →
      off = ((sec * 1000000000 + ns) * 4294967296 : Nat) - (v.nowFine : Int) →
      w = { v with mst := { v.mst with
        markAt := s.moment (s.mst.markAt + since), qualified := s.mst.qualified + 1, badSecs := 0
        msgTime := none, msgGood := false } } →
      (s.mst.time = .acquiring → s.mst.qualified = 2 →
        (off.natAbs ≤ 10000 * 4294967296 → Answers (.ppsInEdge since) s
          (({ w with mst := { w.mst with slew := off, time := .locked } }).raise 299 2 0 0 0)) ∧
        (∀ x : State, 10000 * 4294967296 < off.natAbs → s.mst.queue = [] → sec = v.mst.sec → ns < 1000000000 →
          sec < 2 ^ 48 → x = ({ w with
            phase := min v.phase ((sec * 1000000000 + ns) * 4294967296)
            mst := { w.mst with ns := ns, frac := 0, stepped := true, slew := 0 } }).raise 300 0 0 0 0 →
          Answers (.ppsInEdge since) s (({ x with mst := { x.mst with time := .locked } }).raise 299 2 0 0 0))) ∧
      (s.mst.time = .locked → Answers (.ppsInEdge since) s { w with mst := { w.mst with
        slew := off, rate := s.mst.rate + clampAbs off (100000 * 4294967296) * 1024 / 1000000000 } })) ∧
    (s.mst.time = .locked → Answers .timeMarkerMissing s (({ s.begin with mst := { s.mst with
      markerSeen := false, qualified := 0, slew := 0, time := .holdover } }).raise 299 3 0 0 0)) ∧
    (s.mst.time = .locked → s.mst.msgTime = none → s.mst.badSecs = 1 → Answers .timeMessageAbsent s
      (({ s.begin with mst := { s.mst with slew := 0, time := .holdover } }).raise 299 3 0 0 0)) ∧
    (s.mst.time = .holdover → s.fld Reg.MST_HOLDOVER 15 0 ≠ 0 → Answers .holdoverLimit s
      (({ s.begin with mst := { s.mst with time := .lost } }).raise 299 4 0 0 0))

/-- R61, R62, R64, R65: a valid `TOD_IN` message names the time of the next marker and whether its second follows the
last one; an invalid one is counted. A new source starts the time state afresh; with the host source `SET` puts the
counter at the set registers, marks the step, and locks. The model's choices in it: log 24, 83. -/
def Obligations.TimeMessages : Prop :=
  (∀ (s : State) (b : Bytes) (since : Nat), s.pwr.inReset = false → s.timeSrc = 1 → s.mst.markerSeen = true →
     (100000000 ≤ since → since ≤ 900000000 → timeMessageOk b = true → (beAt b 3 1).testBit 0 = true →
       (beAt b 3 1).testBit 1 = false →
       Answers (.todMessage b since) s { s.begin with mst := { s.mst with
         msgTime := some (beAt b 4 6, beAt b 10 4), msgGood := decide (s.mst.lastMsgSec.map (· + 1) = some (beAt b 4 6))
         lastMsgSec := some (beAt b 4 6), traceable := true, msgFlags := beAt b 3 1 } }) ∧
     (timeMessageOk b = false →
       Answers (.todMessage b since) s { s.begin with mst := { s.mst with msgErr := (s.mst.msgErr + 1) % 65536 } })) ∧
  (∀ (s : State) (ses : Session),
     (∀ (src : BitVec 2) (w : Word), w = s.withField Reg.MST_TIME_CTRL 1 0 src.toNat →
       Accepted s ses Reg.MST_TIME_CTRL w → fieldOf (s.begin.writeBase Reg.MST_TIME_CTRL) 1 0 ≠ src.toNat →
       Runs (.timeSourceWrite ses src) s (fun t =>
         t.cfg = (s.stores ses Reg.MST_TIME_CTRL w).cfg ∧ t.mst.qualified = 0 ∧ t.mst.markerSeen = false ∧
         t.mst.msgTime = none ∧ t.mst.time = (if t.disciplined then .acquiring else .free) ∧
         t.mst.sec = s.mst.sec ∧ t.mst.ns = s.mst.ns ∧ t.mst.queue = s.mst.queue)) ∧
     (∀ w : Word, w = s.withField Reg.MST_TIME_CTRL 2 2 1 → Accepted s ses Reg.MST_TIME_CTRL w →
       (s.stores ses Reg.MST_TIME_CTRL w).timeSrc = 3 → s.mst.queue = [] →
       (s.reg Reg.MST_SET_NS).toNat < 1000000000 →
       s.mst.sec = s.fld Reg.MST_SET_SEC_HI 15 0 * 4294967296 + (s.reg Reg.MST_SET_SEC_LO).toNat →
       Runs (.set ses) s (fun t =>
         t.mst.sec = s.mst.sec ∧ t.mst.ns = (s.reg Reg.MST_SET_NS).toNat ∧ t.mst.frac = 0 ∧ t.mst.stepped = true ∧
         t.mst.slew = 0 ∧ t.mst.time = .locked ∧ t.evt.pend.testBit 300 = true ∧ t.mst.queue = [] ∧ t.pa = s.pa ∧
         t.pb = s.pb)))

/-- R27, R201, R519: a frame boundary moves local time on by 1,024 ns and milestone time by a frame period, with the
disciplined rate, the written correction and the slew in it (R64), and advances the transmit frame counter once it has
been loaded; a milestone second starts the counts of a second again. On a running path the boundary sends a frame: its
overhead begins with the alignment word and the counter, an announced entry stands in its records (R77), a container's
buffer is mapped with its justification word (R226) or a frame of AIS is enciphered (R257); the transmit key ages and is
retired (R264); the gain moves to the target (R111), and training missed or signal absent is judged (R130, R132); an
entry whose fixing moment has passed is fixed (R71); a transmit DSP that waits for a restart goes to off (R459). The
model's choices in it: log 16, 100, 102, 145. -/
def Obligations.TimePasses : Prop :=
  ∀ s : State, s.pwr.inReset = false →
    (∀ oA oB : FrameObs, s.rte.active = false → s.mst.queue = [] → s.ctl.restarts = [] → s.phase = 0 →
      s.mst.slew = 0 → s.mst.rate = 0 → s.timeSrc ≠ 3 → s.mst.sec < 2 ^ 48 →
      s.mst.ns + 1024 < 1000000000 → s.mst.frac < 4294967296 →
      Answers (.frameBoundary oA oB []) s { s.begin with
        upNs := s.upNs + 1024
        sch := { s.sch with time := max s.sch.time ((s.upNs + 1024) * 65536) }
        txFc := if s.fcLoaded then (s.txFc + 1) % 2 ^ 48 else s.txFc
        mst := { s.mst with
          ns := s.mst.ns + 1024, perSum := s.mst.perSum + 1024 * 4294967296, perCnt := s.mst.perCnt + 1 } }) ∧
    (∀ oA oB : FrameObs, s.rte.active = false → s.mst.queue = [] → s.ctl.restarts = [] → s.mst.sec < 2 ^ 48 →
      s.nowFine ≤ s.boundaryTime + s.frameAdvance →
      s.boundaryTime + s.frameAdvance < (s.mst.sec + 1) * 1000000000 * 4294967296 →
      Runs (.frameBoundary oA oB []) s (fun t =>
        t.nowFine = s.boundaryTime + s.frameAdvance ∧ t.phase = 0 ∧ t.upNs = s.upNs + 1024 ∧
        t.mst.slew = s.mst.slew - s.slewStep ∧ t.mst.rate = s.mst.rate ∧ t.mst.time = s.mst.time ∧ t.cfg = s.cfg)) ∧
    (∀ (oA oB : SecondObs) (use : List Nat) (cap : Nat), s.mst.sec + 1 < 2 ^ 48 → s.mst.perCnt ≠ 0 →
      Runs (.milestoneSecond oA oB use cap) s (fun t =>
        t.mst.sec = s.mst.sec + 1 ∧ t.mst.ns = 0 ∧ t.mst.frac = 0 ∧ t.mst.perSum = 0 ∧ t.mst.perCnt = 0 ∧
        t.mst.period = (s.mst.perSum, s.mst.perCnt) ∧ t.mst.queue = s.mst.queue ∧ t.tru.rngFails = 0 ∧
        t.txFc = s.txFc ∧ t.rte = s.rte)) ∧
    (∀ (p : Path) (oA oB o : FrameObs), SendsAlone s p → o = (match p with | .a => oA | .b => oB) →
      (s.mst.queue = [] → s.ctl.restarts = [] → Runs (.frameBoundary oA oB []) s (fun t =>
        t.txFc = (s.txFc + 1) % 2 ^ 48 ∧
        (∃ ov slots f, Out.line p ov ∈ t.out ∧ Out.lineSlots p slots ∈ t.out ∧
          Out.dac p (s.pflag p Reg.PA_CNV_CTRL 2) (some f) ∈ t.out ∧ ov.length = 3200 ∧
          ov.take 24 = alignWord ++ counterField t.txFc ∧ (ov.drop 1152).take 64 = emptyRecord ++ emptyRecord ∧
          f.overhead = ov ∧ f.slots = slots ∧ f.prof = (s.path p).txd.prof ∧ f.coef = (s.path p).txd.coefAct) ∧
        (anyKey (s.cry p).txKeys.tx = true →
          (2 ^ 38 ≤ (s.cry p).txAge → anyKey (t.cry p).txKeys.tx = false ∧ t.evt.pend.testBit 208 = true) ∧
          ((s.cry p).txAge < 2 ^ 38 → wrapPassed (s.cry p).txLast t.txFc = false →
            (t.cry p).txKeys = (s.cry p).txKeys ∧ (t.cry p).txAge = (s.cry p).txAge + 1)) ∧
        (∀ c n f w d, s.contsOf p = [c] → s.contsOf (otherPath p) = [] → c < 256 → (s.txSlots p c).length = n → 0 < n →
          s.encrypted p = false → s.client p c = .ether f → s.qualifies p c = true →
          flagOf (s.regI Reg.CNT_C_CTRL (contKey p c)) 7 = false → (s.cont p c).qual = true →
          w = (s.cont p c).buf.length / 8 → 80 * n - sMax n ≤ w → (s.cont p c).buf.length ≤ 1280 * n →
          d = max (80 * n - sMax n) (min (80 * n - sMin n) (w - s.fld Reg.CNT_CTRL 15 8)) →
          (t.cont p c).buf = (s.cont p c).buf.drop (8 * d) ∧ (t.cont p c).txAis = false ∧
          ∃ ov, Out.line p ov ∈ t.out ∧ beAt ov (128 + 2 * c) 2 = 80 * n - d) ∧
        (∀ c n k, s.contsOf p = [c] → s.contsOf (otherPath p) = [] → c < 256 → (s.txSlots p c).length = n → 0 < n →
          s.encrypted p = true → s.qualifies p c = false → s.txKey p c = some k → (s.cry p).txAge < 2 ^ 38 →
          wrapPassed (s.cry p).txLast t.txFc = false → t.txFc % 16 ≠ 0 →
          ∃ old g e, takeSeg (s.cont p c).txSegs k (s.cry p).txKeys.txEpoch.toNat t.txFc = (old, g) ∧
            e = ctrXor (k.take 32) g.iv g.data.length (List.replicate (640 * n) 0x55) ∧ (t.cont p c).txAis = true ∧
            (t.cont p c).txSegs = old ++ [{ g with jws := g.jws ++ [0x20, 0], data := g.data ++ e }] ∧
            ∀ i j, (s.txSlots p c)[i]? = some (p, j) → j < (s.pcnt p).tx.length →
              ∃ slots, Out.lineSlots p slots ∈ t.out ∧ (j, bytesAt e (640 * i) 640) ∈ slots) ∧
        (o.codes = [] → s.rxdOn p = true → s.rxEn p = true → (s.path p).rxd.acq = 6 → (s.path p).rxd.restart = false →
          o.adcRms.length = 4 → (∀ x ∈ o.adcRms, x ≤ 0xFFFF) →
          (t.path p).rxd.gain = clampInt (clampInt (gainFor o.adcRms.sum (4 * s.pfld p Reg.PA_RXD_AGC 31 16))
            ((s.path p).rxd.gain - (s.pfld p Reg.PA_RXD_AGC 15 8 : Nat))
            ((s.path p).rxd.gain + (s.pfld p Reg.PA_RXD_AGC 15 8 : Nat))) (-768) 1152 ∧
          ((t.path p).rxd.sigAbsent = true ↔ ∀ x ∈ o.adcRms, x < s.pfld p Reg.PA_RXD_THR 15 0) ∧
          (o.corr < s.pfld p Reg.PA_RXD_THR 23 16 → 7 ≤ (s.path p).rxd.lowRun →
            (t.path p).rxd.acq = 1 ∧ (t.path p).rxd.freq = 0 ∧ t.evt.pend.testBit (pathSrc p 9) = true) ∧
          (s.pfld p Reg.PA_RXD_THR 23 16 ≤ o.corr →
            (s.path p).rxd.fm.natAbs + ((s.path p).rxd.freq + o.freqStep).natAbs ≤ 4500000000 →
            (t.path p).rxd.acq = 6 ∧ (t.path p).rxd.lowRun = 0 ∧ (t.path p).rxd.missed = (s.path p).rxd.missed)) ∧
        (o.codes ≠ [] → s.rxdOn p = true → s.rxEn p = true → (s.path p).rxd.acq = 6 → (s.path p).rxd.restart = false →
          s.pflag p Reg.PA_RXD_CTRL 2 = true → (t.path p).rxd.acq = 6 →
          (t.path p).rxd.chain.fde = (s.path p).rxd.chain.fde))) ∧
      (∀ e f, s.mst.queue = [e] → s.ctl.restarts = [] → (e.part (otherPath p)).inScope = false → e.deviceDone = true →
        e.withdrawn = false → (e.part p).inScope = true → (e.part p).done = false → (e.part p).kinds = 0x10#7 →
        e.handle < 64 →
        ((e.part p).target = some f → frameLe f ((s.txFc + 1) % 2 ^ 48) = false →
          Runs (.frameBoundary oA oB []) s (fun t => t.mst.queue = [e] ∧ (t.mstPath p).recPos = (e.handle + 1) % 64 ∧
            ∃ ov, Out.line p ov ∈ t.out ∧ (ov.drop 1152).take 64 = s.announceRecord p e ++ emptyRecord)) ∧
        ((e.part p).target = none → e.time ≤ s.now + 2097152 →
          Runs (.frameBoundary oA oB []) s (fun t =>
            ∀ x ∈ t.mst.queue, x.handle = e.handle ∧ (x.part p).target.isSome = true))) ∧
      (s.mst.queue = [] → s.ctl.restarts = [8 * pathNum p + 3] → Runs (.frameBoundary oA oB []) s (fun t =>
        t.ctl.restarts = [] ∧ (t.path p).txd.running = false ∧ t.evt.pend.testBit (pathSrc p 16) = true ∧
        Out.dac p (s.pflag p Reg.PA_CNV_CTRL 2) none ∈ t.out ∧ ∀ ov, Out.line p ov ∉ t.out)))


/-- R68 to R70, R75: an accepted `ADD` enters the host's entry under a handle that was free; a `CANCEL` in time takes
the entry of its handle out of the queue. The model's choices in it: log 23, 83, 103. -/
def Obligations.QueueCommands : Prop :=
  ∀ (s : State) (ses : Session),
    (∀ w : Word, w = s.withField Reg.MST_Q_CMD 0 0 1 → Accepted s ses Reg.MST_Q_CMD w →
      s.mst.queue.length < 64 → s.reg Reg.MST_Q_ENTRY = 0x440 →
      s.now + 2097152 < (s.fld Reg.MST_Q_TIME_SEC_HI 15 0 * 4294967296 + (s.reg Reg.MST_Q_TIME_SEC_LO).toNat) * 1000000000 +
        (s.reg Reg.MST_Q_TIME_NS).toNat →
      Runs (.add ses) s (fun t => ∃ e : QEntry, t.mst.queue = s.mst.queue ++ [e] ∧ e.handle < 64 ∧
        (∀ x ∈ s.mst.queue, x.handle ≠ e.handle) ∧ t.mst.result = 0 ∧ t.mst.handle = e.handle ∧ e.owner = .host ∧
        e.kinds = 0x40#7 ∧ e.device = true ∧ e.deviceDone = false ∧ e.devShadow = true ∧ e.partA.inScope = false ∧ e.partB.inScope = false ∧
        e.sec = s.fld Reg.MST_Q_TIME_SEC_HI 15 0 * 4294967296 + (s.reg Reg.MST_Q_TIME_SEC_LO).toNat ∧
        e.ns = (s.reg Reg.MST_Q_TIME_NS).toNat ∧ t.mst.sec = s.mst.sec ∧ t.mst.ns = s.mst.ns)) ∧
    (∀ (h : BitVec 6) (e : QEntry) (w : Word),
      w = setField (s.withField Reg.MST_Q_CMD 7 2 h.toNat) 1 1 1 → Accepted s ses Reg.MST_Q_CMD w →
      s.entry h.toNat = some e → e.owner = .host → e.withdrawn = false → s.now + 1048576 < e.time →
      (∀ p, (e.part p).target = none) →
      Runs (.cancel ses h) s (fun t => t.mst.result = 0 ∧ t.mst.queue.length < s.mst.queue.length ∧
        (∀ x ∈ t.mst.queue, x.handle = h.toNat → x.withdrawn = true) ∧ t.mst.sec = s.mst.sec ∧ t.mst.ns = s.mst.ns))

/-- R71, R73: at the fixing moment an entry's part takes its target frame by the formula of R71, and freezes the
generation of the staged copy of the kind it sets. The model's choices in it: log 16. -/
def Obligations.Fixing : Prop :=
  ∀ (s : State) (p : Path) (h : BitVec 6) (e : QEntry) (g : BitVec 16), s.pwr.inReset = false →
    s.mst.queue = [e] → e.handle = h.toNat → e.withdrawn = false → (e.part p).inScope = true →
    (e.part p).target = none → (e.part p).kinds = 0x10#7 → s.staged p 4 = some g → s.phase ≤ s.frameAdvance →
    (e.time - 2097152) * 4294967296 ≤ s.nowFine →
    Answers (.milestoneFix p h) s { s.begin with mst := { s.mst with queue := [e.updPart p fun x => { x with
      target := some ((s.txFc + ceilDiv ((e.time * 4294967296 - (s.nowFine - s.phase)) * s.mst.period.2)
        (max 1 s.mst.period.1)) % 2 ^ 48)
      frozen := { (s.mstPath p).tx with coef := g } }] } }

/-- R74: on the target frame the transmit side puts the frozen coefficient copy into use, advances its generation and
raises event 296, and the entry is done; it leaves the queue when the frame that announces it last has been sent (R77).
R70, R72: an entry that sets bit 6 applies the shadow of a path register on its target frame, and with device scope,
when its time has come, the shadow of a device register and the shadow of a class M table. The model's choices in it:
log 87, 89, 132. -/
def Obligations.Applying : Prop :=
  ∀ (s : State) (e : QEntry), s.pwr.inReset = false → s.mst.queue = [e] → e.withdrawn = false → s.rte.amd = none →
    (∀ (p : Path) (g : BitVec 16), s.pathUp p = true → (s.path p).trk.change = none → e.deviceDone = true →
      (e.part (otherPath p)).inScope = false → (e.part p).inScope = true → (e.part p).done = false →
      (e.part p).kinds = 0x10#7 → (e.part p).target = some ((s.txFc + 1) % 2 ^ 48) → (e.part p).frozen.coef = g →
      Runs (.milestoneApply p) s (fun t =>
        t.mst.queue = [e.updPart p fun x => { x with done := true }] ∧
        (t.mstPath p).tx = { (s.mstPath p).tx with coef := g } ∧ t.staged p 4 = none ∧
        (t.path p).txd = { (s.path p).txd with coefAct := s.cfg.filter fun x => isCoefKey p x.1 } ∧
        t.path (otherPath p) = s.path (otherPath p) ∧ t.evt.pend.testBit 296 = true ∧ t.cfg = s.cfg ∧
        t.shadow = s.shadow)) ∧
    (∀ (p : Path) (off : Nat) (w : Word) (d : RegDesc), regDesc off = some d → off < 0x04000000 → pathKey p off = true →
      s.pathUp p = true → (s.path p).trk.change = none → s.shadow = [(off, w)] → e.deviceDone = true →
      (e.part (otherPath p)).inScope = false → (e.part p).inScope = true → (e.part p).done = false →
      (e.part p).kinds = 0x40#7 → (e.part p).target = some ((s.txFc + 1) % 2 ^ 48) →
      Runs (.milestoneApply p) s (fun t =>
        t.mst.queue = [] ∧ t.shadow = [] ∧
        t.cfg = sparseSet regReset off (mergeWrite (milestoneMask d) (sparseGet regReset s.cfg off) w) s.cfg ∧
        t.evt.pend.testBit 296 = true ∧ t.pa = s.pa ∧ t.pb = s.pb ∧ t.tables = s.tables ∧ t.tblShadow = s.tblShadow)) ∧
    (∀ (off : Nat) (w : Word) (d : RegDesc), regDesc off = some d → off < 0x04000000 → deviceKey off = true →
      s.shadow = [(off, w)] → s.tblShadow = [] → e.deviceDone = false → e.devShadow = true →
      e.partA.inScope = false → e.partB.inScope = false →
      e.time * 4294967296 ≤ s.nowFine - s.phase + s.frameAdvance →
      Runs .deviceMilestoneApply s (fun t =>
        t.mst.queue = [] ∧ t.shadow = [] ∧
        t.cfg = sparseSet regReset off (mergeWrite (milestoneMask d) (sparseGet regReset s.cfg off) w) s.cfg ∧
        t.evt.pend.testBit 296 = true ∧ t.pa = s.pa ∧ t.pb = s.pb ∧ t.tables = s.tables)) ∧
    (∀ (key : Nat) (w : Word), s.shadow = [] → s.tblShadow = [(key, w)] → e.deviceDone = false → e.devShadow = true →
      e.partA.inScope = false → e.partB.inScope = false →
      e.time * 4294967296 ≤ s.nowFine - s.phase + s.frameAdvance →
      Runs .deviceMilestoneApply s (fun t =>
        t.mst.queue = [] ∧ t.tblShadow = [] ∧ t.tables = sparseSet (fun _ => 0) key w s.tables ∧ t.cfg = s.cfg ∧
        t.evt.pend.testBit 296 = true ∧ t.pa = s.pa ∧ t.pb = s.pb))

/-- R66: in every time state an entry takes effect when its target frame or its time comes: on a path every kind that it
sets takes the frozen generation and the path's shadows apply, and with device scope the device's shadows apply. The
loss of the time source, whether a marker or a message is missing or `HOLDOVER` ends, leaves the queue, the counter, the
frame counter and all that entries set as they are. -/
def Obligations.TimeLossMovesNothing : Prop :=
  (∀ (s : State) (c : Instr), s.pwr.inReset = false → c ∈ [Instr.timeMarkerMissing, .timeMessageAbsent, .holdoverLimit] →
     ∃ u, Answers c s u ∧ u.mst.queue = s.mst.queue ∧ u.nowFine = s.nowFine ∧ u.phase = s.phase ∧
       u.rateStep = s.rateStep ∧ u.mst.period = s.mst.period ∧ u.txFc = s.txFc ∧
       (∀ p, u.mstPath p = s.mstPath p ∧ u.path p = s.path p) ∧ u.cfg = s.cfg ∧ u.shadow = s.shadow ∧
       u.tables = s.tables ∧ u.tblShadow = s.tblShadow) ∧
  (∀ (s : State) (e : QEntry) (tm : TimeState), s.pwr.inReset = false → s.mst.time = tm → s.mst.queue = [e] →
     e.withdrawn = false → s.rte.amd = none →
     (∀ p, s.pathUp p = true → (e.part p).inScope = true → (e.part p).done = false →
       (e.part p).target = some ((s.txFc + 1) % 2 ^ 48) → Runs (.milestoneApply p) s fun t =>
         t.mst.time = tm ∧
         (∀ k, k < 6 → hasKind (e.part p).kinds k = true → (t.mstPath p).tx.get k = (e.part p).frozen.get k) ∧
         (hasKind (e.part p).kinds 6 = true → ∀ key w, noted s.shadow key = some w → pathKey p key = true →
           noted t.shadow key = none) ∧
         (hasKind (e.part p).kinds 2 = false → e.deviceDone = true → (e.part (otherPath p)).inScope = false →
           t.mst.queue = if (e.part p).kinds &&& 0x3F#7 = 0 then [] else [e.updPart p fun x => { x with done := true }])) ∧
     (e.deviceDone = false → e.devShadow = true → e.partA.inScope = false → e.partB.inScope = false →
       e.time * 4294967296 ≤ s.nowFine - s.phase + s.frameAdvance → Runs .deviceMilestoneApply s fun t =>
         t.mst.time = tm ∧ t.mst.queue = [] ∧ (∀ key w, noted s.shadow key = some w → deviceKey key = true →
           noted t.shadow key = none) ∧ t.tblShadow = []))

/-! ### Line converters and the laser port (04_line_converters.md) -/

/-- R98, R486, R487: `TX_EN` and `RX_EN` written 1 on a side that is off take their grant at once when nothing waits and
the cost fits; the side starts, and the receiver's grant gives the decoder 12 iterations. `MUTE` is stored only. A
carrier enable that could never fit is denied at once: the side stays off, the denial is counted and both events are
raised. The model's choices in it: log 83. -/
def Obligations.CarrierEnables : Prop :=
  (∀ (s : State) (ses : Session) (p : Path), s.pwr.lineRef = true → s.pwr.queue = [] →
     (∀ (w : Word) (v : State), w = s.withField (pathReg p Reg.PA_CNV_CTRL) 0 0 1 →
       v = s.stores ses (pathReg p Reg.PA_CNV_CTRL) w → Accepted s ses (pathReg p Reg.PA_CNV_CTRL) w →
       s.txEn p = false → (s.path p).cnv.rx ≠ .lineOff → s.alloc + (s.txMode p).carrierCost ≤ s.effCeiling →
       Writes (.txEnWrite ses p true) s ses ((v.setGrant (pathNum p) (s.txMode p).carrierCost).updCnv p
         fun c => { c with tx := .starting })) ∧
     (∀ (w : Word) (v : State) (gd : Nat), w = s.withField (pathReg p Reg.PA_CNV_CTRL) 1 1 1 →
       v = s.stores ses (pathReg p Reg.PA_CNV_CTRL) w → Accepted s ses (pathReg p Reg.PA_CNV_CTRL) w →
       s.rxEn p = false → (s.path p).cnv.tx ≠ .lineOff → s.alloc + (s.rxModeOf p).receiverCost ≤ s.effCeiling →
       gd = 12 * (s.rxModeOf p).iterCost →
       Writes (.rxEnWrite ses p true) s ses (((((v.updFec p fun f => { f with gd := gd }).setGrant (4 + pathNum p)
         (ceilDiv gd 10)).setGrant (2 + pathNum p) ((s.rxModeOf p).receiverCost - ceilDiv gd 10)).updFec p
         fun f => { f with iMax := min f.iMax 12 }).updCnv p fun c => { c with rx := .starting })) ∧
     (∀ (b : Bool) (w : Word), w = s.withField (pathReg p Reg.PA_CNV_CTRL) 2 2 (b2n b) →
       Accepted s ses (pathReg p Reg.PA_CNV_CTRL) w → (s.path p).cnv.rx ≠ .lineOff → (s.path p).cnv.tx ≠ .lineOff →
       Writes (.muteWrite ses p b) s ses (s.stores ses (pathReg p Reg.PA_CNV_CTRL) w))) ∧
  (∀ (s : State) (ses : Session) (p : Path) (w : Word), w = s.withField (pathReg p Reg.PA_CNV_CTRL) 0 0 1 →
     Accepted s ses (pathReg p Reg.PA_CNV_CTRL) w → s.pathUp p = true → s.txEn p = false →
     (s.path p).cnv.rx ≠ .lineOff → s.effCeiling < s.base + (s.txMode p).carrierCost →
     Runs (.txEnWrite ses p true) s fun t =>
       (t.path p).cnv = { (s.path p).cnv with tx := .off, txDenied := true } ∧
       t.pwr.denied = (s.pwr.denied + 1) % 65536 ∧ t.pwr.grants = s.pwr.grants ∧ t.pwr.queue = s.pwr.queue ∧
       t.evt.pend.testBit 289 = true ∧ t.evt.pend.testBit (pathSrc p 1) = true ∧
       t.path (otherPath p) = s.path (otherPath p) ∧ t.mst = s.mst ∧ t.rte = s.rte)

/-- R99: 200 us after its grant a transmit side is ready; after its foreground calibration a receive side is ready. With
every slice within the field range, slices 0 to 63 take their positions and slice 64 is the relief slice, each with the
correction that its rails allow (R92, R95, R96). R93 to R96: at the end of its interval a healthy relief slice waits for
its swap, a faulty one is retired for good; the swap puts the relief slice in service at its position, within the rails
and within the step rail of the slice that it replaces, carries what lies beyond them, and moves on to the next
position. In each frame of its calibration a slice's corrections move by at most one field step and stay within the
rails, and what it asks for moves by at most one field step, never away from its need. The model's choices in it: log 2,
119, 139. -/
def Obligations.ConverterSides : Prop :=
  (∀ (s : State) (p : Path), s.pwr.inReset = false →
     ((s.path p).cnv.tx = .starting → s.txEn p = true → Answers (.dacPowerUpDone p) s
       ((s.begin.updCnv p fun c => { c with tx := .running }).raise (pathSrc p 0) 0 0 0 0)) ∧
     (∀ need : List (List (Int × Int × Int)), (s.path p).cnv.rx = .starting → s.rxEn p = true → s.pathUp p = true →
       (∀ n, n < 4 → ∀ i, i < 65 → (corrOf ((need.getD n []).getD i (0, 0, 0))).faulty = false) →
       Runs (.adcCalibrationDone p need) s fun t =>
         (t.path p).cnv.rx = .running ∧ t.evt.pend.testBit (pathSrc p 0) = true ∧
         (∀ n, n < 4 → (t.adc p n).retired = false ∧ (t.adc p n).noRelief = false ∧ (t.adc p n).slices.length = 65 ∧
           ∀ i, i < 65 → (t.adc p n).slices.getD i idleSlice = ⟨if i = 64 then 1 else 0, if i = 64 then 0 else i,
             railedCorr (s.rail (loopId p 3 n)) (corrOf ((need.getD n []).getD i (0, 0, 0))), zeroCorr⟩) ∧
         (t.path p).cnv.tx = (s.path p).cnv.tx ∧ t.path (otherPath p) = s.path (otherPath p) ∧ t.pwr = s.pwr)) ∧
  (∀ (s : State) (p : Path) (adc : BitVec 2) (n i : Nat), s.pwr.inReset = false → adc.toNat = n → s.rotating p n = true →
     (s.path p).cnv.adc.length = 4 → (s.adc p n).reliefIndex = some i →
     (∀ need, (corrOf need).faulty = false →
       Answers (.reliefIntervalEnd p adc need) s (s.begin.updAdc p n fun a => { a with due := true })) ∧
     (∀ need, (corrOf need).faulty = true → s.pathUp p = true → Runs (.reliefIntervalEnd p adc need) s fun t =>
       (t.adc p n).retired = true ∧ (t.adc p n).due = false ∧
       ((t.adc p n).slices.getD i idleSlice).state = 2 ∧ t.evt.pend.testBit (pathSrc p 2) = true ∧
       (∀ m, m ≠ n → t.adc p m = s.adc p m) ∧ t.rails = s.rails) ∧
     (∀ (j : Nat) (c : Corr) (new old : Slice), (s.adc p n).due = true →
       (s.adc p n).inPosition (s.adc p n).target = some j →
       new = (s.adc p n).slices.getD i idleSlice → old = (s.adc p n).slices.getD j idleSlice →
       c = old.corr.zip (s.rail (loopId p 3 n)).bound new.corr →
       Runs (.reliefSwap p adc) s fun t =>
         (t.adc p n).due = false ∧ (t.adc p n).target = ((s.adc p n).target + 1) % 64 ∧
         (t.adc p n).slices.getD i idleSlice = ⟨0, (s.adc p n).target, c, new.want.zip (· - ·) c⟩ ∧
         (t.adc p n).slices.getD j idleSlice = { old with state := 1 } ∧
         (∀ k, k ≠ i → k ≠ j → (t.adc p n).slices.getD k idleSlice = (s.adc p n).slices.getD k idleSlice) ∧
         (∀ m, m ≠ n → t.adc p m = s.adc p m) ∧ (∀ k, k ≠ loopId p 3 n → t.rail k = s.rail k)) ∧
     (∀ (x y : Slice) (r : RailState) (need : Corr), r.min ≤ r.max → y = x.calibrate r need →
       y.state = x.state ∧ y.pos = x.pos ∧ ∀ q : Corr → Int, q ∈ [Corr.offset, Corr.gain, Corr.skew] →
         (q y.corr - q x.corr).natAbs ≤ 1 ∧
         (r.min ≤ q x.corr → q x.corr ≤ r.max → r.min ≤ q y.corr ∧ q y.corr ≤ r.max) ∧
         (-128 ≤ q x.want → q x.want ≤ 127 → (q y.want - q x.want).natAbs ≤ 1 ∧
           (-128 ≤ q need → q need ≤ 127 → (q need - q y.want).natAbs ≤ (q need - q x.want).natAbs))))

/-- R104, R105, R107, R108, R171: a laser command of the subset is sent at once on a free port, any other ends with
result 5 without being sent; service requests and polls read StatusF in their turn; `PORT_EN` on a free port and the
reset pin act at once; a direct fine-tune code fixes the rails of the frequency loop. The reply to a host command ends
its transaction with the result that R105 gives it and what the module answered; a reply that does not come ends it with
result 1; a read of StatusF with the fatal bit, a poll whose reply fails its checksum, and one without a reply raise the
laser-fault event. The model's choices in it: log 2, 21, 83, 110, 126. -/
def Obligations.LaserPort : Prop :=
  (∀ (s : State) (ses : Session) (p : Path),
     (∀ (wr : Bool) (addr : BitVec 8) (data : BitVec 16) (w : Word) (v : State),
       w = BitVec.ofNat 32 (2 ^ 31 + b2n wr * 2 ^ 24 + addr.toNat * 2 ^ 16 + data.toNat) →
       v = s.stores ses (pathReg p Reg.PA_CNV_LASER_CMD) w → Accepted s ses (pathReg p Reg.PA_CNV_LASER_CMD) w →
       (laserAddrs.contains addr.toNat = true → (s.laser p).enabled = true → (s.laser p).txn = none →
         (s.laser p).srqWait = false → Writes (.go ses p wr addr data) s ses
           ((v.updLaser p fun l => { l with hostCmd := none, txn := some (.host wr addr.toNat data.toNat) }).laserSend
             p wr addr.toNat data.toNat)) ∧
       (laserAddrs.contains addr.toNat = false → Writes (.go ses p wr addr data) s ses
         (v.updLaser p fun l => { l with result := 5, addr := addr.toNat, data := 0 }))) ∧
     (s.pwr.inReset = false → (s.laser p).enabled = true →
       ((s.laser p).txn = none → Answers (.laserServiceRequest p) s
         ((s.begin.updLaser p fun l => { l with srqWait := false, txn := some .srq }).laserSend p false 0x20 0)) ∧
       ((s.laser p).txn = some .poll → Answers (.laserServiceRequest p) s
         (s.begin.updLaser p fun l => { l with srqWait := true })) ∧
       ((s.laser p).txn = none → (s.laser p).srqWait = false → (s.laser p).hostCmd = none →
         s.pflag p Reg.PA_CNV_LASER_CFG 1 = true → Answers (.laserPoll p) s
         ((s.begin.updLaser p fun l => { l with pollWait := false, txn := some .poll }).laserSend p false 0x20 0))) ∧
     (∀ w : Word, w = s.withField (pathReg p Reg.PA_CNV_LASER_CFG) 3 3 1 →
       Accepted s ses (pathReg p Reg.PA_CNV_LASER_CFG) w → Writes (.rst ses p) s ses
         ((s.stores ses (pathReg p Reg.PA_CNV_LASER_CFG) w).updLaser p fun l => { l with rst := true })) ∧
     (s.pwr.inReset = false → Answers (.laserResetEnd p) s (s.begin.updLaser p fun l => { l with rst := false })) ∧
     (∀ (b : Bool) (w : Word), w = s.withField (pathReg p Reg.PA_CNV_LASER_CFG) 0 0 (b2n b) →
       Accepted s ses (pathReg p Reg.PA_CNV_LASER_CFG) w → (s.laser p).txn = none → (s.laser p).srqWait = false →
       (s.laser p).hostCmd = none → (s.laser p).pollWait = false → s.pflag p Reg.PA_CNV_LASER_CFG 0 = !b →
       Writes (.portEnWrite ses p b) s ses
         ((s.stores ses (pathReg p Reg.PA_CNV_LASER_CFG) w).updLaser p fun l => { l with enabled := b })) ∧
     (∀ (code : BitVec 16) (w : Word) (v : State), w = BitVec.ofNat 32 code.toNat →
       v = s.stores ses (pathReg p Reg.PA_CNV_LASER_FT) w → Accepted s ses (pathReg p Reg.PA_CNV_LASER_FT) w →
       Runs (.laserFtCodeWrite ses p code) s fun t =>
         t.cfg = v.cfg ∧ (t.rail (loopId p 2 0)).min = s.ftHz p code.toNat ∧
         (t.rail (loopId p 2 0)).max = s.ftHz p code.toNat ∧
         (t.rail (loopId p 2 0)).step = (s.rail (loopId p 2 0)).step ∧
         (t.rail (loopId p 2 0)).freeze = (s.rail (loopId p 2 0)).freeze ∧
         (t.rail (loopId p 2 0)).pinLo = false ∧ (t.rail (loopId p 2 0)).pinHi = false ∧
         (∀ i, i ≠ loopId p 2 0 → t.rail i = s.rail i) ∧ t.pwr = s.pwr ∧ t.path p = s.path p)) ∧
  (∀ (s : State) (p : Path), s.pwr.inReset = false → (s.laser p).srqWait = false → (s.laser p).hostCmd = none →
     (s.laser p).pollWait = false →
     (∀ (r : LaserReply) (wr : Bool) (a d : Nat), (s.laser p).txn = some (.host wr a d) →
       (wr = true ∨ a ≠ 0x20 ∨ replyOk r = false ∨ (replyData r).testBit 13 = false → Answers (.laserReply p r) s (s.begin.updLaser p fun l => { l with
         badReply := !replyOk r
         result := if replyOk r = false then 2 else if replyXe r then 3 else if replyCp r then 4 else 0
         addr := replyAddr r, data := replyData r, txn := none, enabled := s.pflag p Reg.PA_CNV_LASER_CFG 0 })) ∧
       (wr = false → a = 0x20 → replyOk r = true → (replyData r).testBit 13 = true →
         Answers (.laserReply p r) s ((s.begin.raise (pathSrc p 7) 0 0 0 0).updLaser p fun l => { l with
           badReply := false, result := if replyXe r then 3 else if replyCp r then 4 else 0
           addr := replyAddr r, data := replyData r, txn := none, enabled := s.pflag p Reg.PA_CNV_LASER_CFG 0 })) ∧
       Answers (.laserReplyTimeout p) s (s.begin.updLaser p fun l => { l with
         result := 1, txn := none, enabled := s.pflag p Reg.PA_CNV_LASER_CFG 0 })) ∧
     (∀ r : LaserReply, (s.laser p).txn = some .srq → replyOk r = true → (replyData r).testBit 13 = false →
       Answers (.laserReply p r) s (s.begin.updLaser p fun l => { l with
         badReply := false, statusF := replyData r, txn := none, enabled := s.pflag p Reg.PA_CNV_LASER_CFG 0 })) ∧
     (∀ r : LaserReply, (s.laser p).txn = some .poll → replyOk r = false →
       Answers (.laserReply p r) s ((s.begin.raise (pathSrc p 7) 0 0 0 0).updLaser p fun l => { l with
         badReply := true, txn := none, enabled := s.pflag p Reg.PA_CNV_LASER_CFG 0 })) ∧
     ((s.laser p).txn = some .poll → Answers (.laserReplyTimeout p) s
       ((s.begin.raise (pathSrc p 7) 0 0 0 0).updLaser p fun l => { l with
         txn := none, enabled := s.pflag p Reg.PA_CNV_LASER_CFG 0 })))



/-! ### The DSP of a path (05_receive_dsp.md to 08_fec.md) -/

/-- R110, R129, R154: the enables of the two DSPs take force at the next frame boundary, so that writing one stores it
and no more; `RESTART` is remembered until then. R152: a generation other than the one in force stages the next copy of
the coefficient set, the same generation withdraws it. The model's choices in it: log 83. -/
def Obligations.DspControls : Prop :=
  ∀ (s : State) (ses : Session) (p : Path),
    (∀ (b : Bool) (w : Word), w = s.withField (pathReg p Reg.PA_RXD_CTRL) 0 0 (b2n b) →
      Accepted s ses (pathReg p Reg.PA_RXD_CTRL) w →
      Writes (.rxdRunWrite ses p b) s ses (s.stores ses (pathReg p Reg.PA_RXD_CTRL) w)) ∧
    (∀ w : Word, w = s.withField (pathReg p Reg.PA_RXD_CTRL) 3 3 1 → Accepted s ses (pathReg p Reg.PA_RXD_CTRL) w →
      Writes (.restartAcquisition ses p) s ses
        ((s.stores ses (pathReg p Reg.PA_RXD_CTRL) w).updRxd p fun r => { r with restart := true })) ∧
    (∀ (b : Bool) (w : Word), w = s.withField (pathReg p Reg.PA_TXD_CTRL) 0 0 (b2n b) →
      Accepted s ses (pathReg p Reg.PA_TXD_CTRL) w →
      Writes (.txdRunWrite ses p b) s ses (s.stores ses (pathReg p Reg.PA_TXD_CTRL) w)) ∧
    (∀ (g : BitVec 16) (w : Word) (v : State), w = s.withField (pathReg p Reg.PA_TXD_COEF_GEN) 15 0 g.toNat →
      v = s.stores ses (pathReg p Reg.PA_TXD_COEF_GEN) w → Accepted s ses (pathReg p Reg.PA_TXD_COEF_GEN) w →
      (g ≠ (s.mstPath p).tx.coef → Writes (.coefGenNextWrite ses p g) s ses
        (v.updMstPath p fun m => { m with staged := (4, g) :: m.staged.filter fun e => e.1 != 4 })) ∧
      (g = (s.mstPath p).tx.coef → Writes (.coefGenNextWrite ses p g) s ses
        (v.updMstPath p fun m => { m with
          staged := m.staged.filter fun e => e.1 != 4, rxStaged := m.rxStaged.filter fun e => e.1 != 4 })))

/-- R126 to R128: when the frames of an acquisition state have passed, S1 with a signal leads to S2, S2 to S3 with the
coarse frequency estimate, clamped to 3.5 GHz, and the candidates of R127, the one that restarted acquisition first, S3
to S4 with a best candidate at or above `ACQ_THR` and to S3 again without one, S4 to S5, and S5 with two confirmations
to frame lock, which is reported. In each frame of S3 the best candidate so far stays one with the largest C. The
model's choices in it: log 2, 6, 121, 138. -/
def Obligations.AcquisitionStates : Prop :=
  (∀ (s : State) (p : Path) (r : RxdState) (cands : List Int) (coarse : Int), s.pwr.inReset = false →
    (s.path p).rxd = r → r.length ≤ r.frames → cands = sweepOrder r.firstCand (s.hintCands p) →
    (r.acq = 1 → r.sigAbsent = false → Answers (.acquisitionStateEnd p coarse) s
      (s.begin.updRxd p fun r => { r with acq := 2, frames := 0, length := 16, confirms := 0 })) ∧
    (r.acq = 2 ∨ r.acq = 3 ∧ (∀ d c n, r.best = some (d, c, n) → c < s.pfld p Reg.PA_RXD_THR 31 24) →
      Answers (.acquisitionStateEnd p coarse) s (s.begin.updRxd p fun r => { r with
        acq := 3, frames := 0, confirms := 0, cands := cands, candPos := 0, best := none
        freq := if r.acq = 2 then r.chain.coarse coarse else r.freq
        length := ceilDiv cands.length 8 })) ∧
    (∀ d c n, r.acq = 3 → r.best = some (d, c, n) → s.pfld p Reg.PA_RXD_THR 31 24 ≤ c →
      Answers (.acquisitionStateEnd p coarse) s (s.begin.updRxd p fun r => { r with
        acq := 4, frames := 0, length := 32, confirms := 0, cd := d, cAcq := c, position := n, firstCand := none
        chain := r.chain.start (s.turnsPerSample p) (s.rxModeOf p).samples n })) ∧
    (r.acq = 4 → Answers (.acquisitionStateEnd p coarse) s
      (s.begin.updRxd p fun r => { r with acq := 5, frames := 0, length := 2, confirms := 0 })) ∧
    (r.acq = 5 → 2 ≤ r.confirms → s.pathUp p = true → Runs (.acquisitionStateEnd p coarse) s fun t =>
      (t.path p).rxd = { r with
        acq := 6, frames := 0, length := 0, confirms := 0, lowRun := 0, deadRun := 0, gainHist := [r.gain]
        searchAt := none, fm := 0, fmSum := 0, fmCount := 0, snr := resetSnr } ∧
      (t.trk p).cycle = 0 ∧ (t.trk p).discard = false ∧ t.evt.pend.testBit (pathSrc p 8) = true ∧
      (∀ c ∈ s.contsOf p, (t.cont p c).delin = 0 ∧ (t.cont p c).stream = []) ∧
      t.path (otherPath p) = s.path (otherPath p) ∧ t.mst = s.mst)) ∧
  (∀ (r : RxdState) (l : List (Nat × Nat)) (d : Int) (c n : Nat), (r.sweep l).best = some (d, c, n) →
    (∀ x, r.best = some x → x.2.1 ≤ c) ∧ (∀ x ∈ r.sweepNow.zip l, x.2.1 ≤ c) ∧
    (r.best = some (d, c, n) ∨ (d, c, n) ∈ r.sweepNow.zip l) ∧
    (r.sweep l).candPos = min (r.candPos + 8) r.cands.length) ∧
  (∀ (c : RxChain) (given : Int), -3500000000 ≤ c.coarse given ∧ c.coarse given ≤ 3500000000 ∧
    (c.past = [] → -3500000000 ≤ given → given ≤ 3500000000 → c.coarse given = given))

/-- R128 to R131: without frame lock in time the acquisition starts again at S1, counted and reported; after 64 frames
without a correctable code word the profile search begins, and a search without a hit and without a staged candidate
ends in loss of frame lock. The model's choices in it: log 2, 22. -/
def Obligations.AcquisitionFailures : Prop :=
  ∀ (s : State) (p : Path), s.pwr.inReset = false → s.pathUp p = true →
    (1 ≤ (s.path p).rxd.acq → (s.path p).rxd.acq ≤ 5 → Runs (.acquisitionTimeout p) s fun t =>
      (t.path p).rxd.acq = 1 ∧ (t.path p).rxd.freq = 0 ∧
      (t.path p).rxd.acqCount = ((s.path p).rxd.acqCount + 1) % 65536 ∧ t.evt.pend.testBit (pathSrc p 11) = true ∧
      (t.path p).cnv = (s.path p).cnv ∧ t.path (otherPath p) = s.path (otherPath p)) ∧
    ((s.path p).rxd.acq = 6 → (s.path p).rxd.searchAt = none → 64 ≤ (s.path p).rxd.deadRun →
      Answers (.profileSearch p) s
        (s.begin.updRxd p fun r => { r with searchAt := some 0, searchFrames := 0, searchHit := false })) ∧
    (∀ c : Nat, (s.path p).rxd.acq = 6 → (s.path p).rxd.searchAt = some c → 16 ≤ (s.path p).rxd.searchFrames →
      (s.path p).rxd.searchHit = false → s.rxStagedGen p 2 = none → s.rxStagedGen p 5 = none →
      Runs (.profileCandidateEnd p) s fun t =>
        (t.path p).rxd.acq = 1 ∧ (t.path p).rxd.searchAt = none ∧ (t.path p).lfr.inFrame = false ∧
        t.evt.pend.testBit (pathSrc p 14) = true ∧ t.evt.pend.testBit (pathSrc p 9) = true ∧
        t.path (otherPath p) = s.path (otherPath p) ∧ t.mst = s.mst)

/-- R106, R123, R167: after 1,024 locked frames the measured offset is their mean residual offset; with the loop enabled
and not frozen the correction moves by the gain's share of it, inside its rails, and the laser's fine-tune code follows.
The model's choices in it: log 121. -/
def Obligations.OscillatorLoop : Prop :=
  ∀ (s : State) (p : Path) (fm df : Int), s.pwr.inReset = false → (s.path p).rxd.acq = 6 →
    1024 ≤ (s.path p).rxd.fmCount → fm = roundHalfEven (s.path p).rxd.fmSum (s.path p).rxd.fmCount →
    (s.pflag p Reg.PA_RXD_CTRL 1 = false → Answers (.loLoopUpdate p ()) s
      (s.begin.updRxd p fun r => { r with fm := fm, fmSum := 0, fmCount := 0 })) ∧
    (s.pflag p Reg.PA_RXD_CTRL 1 = true → (s.rail (loopId p 2 0)).freeze = false →
      df = (s.rail (loopId p 2 0)).bound (s.path p).rxd.df
        ((s.path p).rxd.df + roundHalfEven fm (2 ^ s.pfld p Reg.PA_RXD_LO_CTRL 3 0)) →
      Runs (.loLoopUpdate p ()) s fun t =>
        (t.path p).rxd = { (s.path p).rxd with fm := fm, fmSum := 0, fmCount := 0, df := df } ∧
        ((t.laser p).code, (t.laser p).ftLimit) =
          ftCode df (s.pfld p Reg.PA_CNV_LASER_CFG 31 16) (s.pflag p Reg.PA_CNV_LASER_CFG 8) ∧
        (t.rail (loopId p 2 0)).clamped = decide (df ≠
          (s.path p).rxd.df + roundHalfEven fm (2 ^ s.pfld p Reg.PA_RXD_LO_CTRL 3 0)) ∧
        (∀ i, i ≠ loopId p 2 0 → t.rail i = s.rail i) ∧ t.path (otherPath p) = s.path (otherPath p))

/-- R162 to R164: at the end of its cycle the loop measures anew. A cycle that was not discarded, with no request
unanswered, asks for the levelled set where it differs from the far transmitter's; any other cycle asks for nothing;
before its end, and with the loop off, nothing happens. An answer to the request ends it and a refusal is reported; an
answer to another request, or none, does nothing. 256 superframes without an answer withdraw the request with response
0x0F. The model's choices in it: log 2, 26, 107. -/
def Obligations.LevellingRequests : Prop :=
  ∀ (s : State) (p : Path), s.pwr.inReset = false →
    (∀ new v, s.pflag p Reg.PA_TRK_LEV_CTRL 0 = true → 16 * s.pfld p Reg.PA_TRK_LEV_CTRL 31 16 ≤ (s.trk p).cycle →
      v = (s.begin.updTrk p fun t => { t with cycle := 0, discard := false }).updRxd p (fun r =>
        { r with snr := { r.snr with cycle := [], cycleN := 0 } }) →
      ((s.trk p).discard = false → s.locked p = true → (s.lfr p).rep &&& 0x07#8 = 0 → (s.trk p).farFlags ≠ none →
        0 < (s.path p).rxd.snr.cycleN → ((s.trk p).reqNum = 0 ∨ (s.trk p).reqDone = true) →
        new = levelRequest (s.rxModeOf p) (s.pfld p Reg.PA_TRK_LEV_CTRL 7 4) (s.pfld p Reg.PA_TRK_LEV_CTRL 15 8)
          (s.trk p).farProf (s.path p).rxd.snr.cycle (s.path p).rxd.snr.cycleN →
        (new = (s.trk p).farProf → Answers (.levellingCycleEnd p ()) s v) ∧
        (new ≠ (s.trk p).farProf → Answers (.levellingCycleEnd p ()) s (v.updTrk p fun t => { t with
          reqNum := if t.lastNum = 65535 then 1 else t.lastNum + 1
          lastNum := if t.lastNum = 65535 then 1 else t.lastNum + 1, reqBase := (s.mstPath p).rx.track
          reqSet := new, reqAge := 0, reqDone := false }))) ∧
      (((s.trk p).discard = true ∨ s.locked p = false ∨ (s.lfr p).rep &&& 0x07#8 ≠ 0 ∨ (s.trk p).farFlags = none ∨
          (s.path p).rxd.snr.cycleN = 0 ∨ (s.trk p).reqNum ≠ 0 ∧ (s.trk p).reqDone = false) →
        Answers (.levellingCycleEnd p ()) s v)) ∧
    ((s.pflag p Reg.PA_TRK_LEV_CTRL 0 = false ∨ (s.trk p).cycle < 16 * s.pfld p Reg.PA_TRK_LEV_CTRL 31 16) →
      Answers (.levellingCycleEnd p ()) s s.begin) ∧
    (∀ (num : BitVec 16) (code : BitVec 8),
      (num ≠ 0 → num.toNat = (s.trk p).reqNum → (s.trk p).reqDone = false →
        (code = 1 ∨ code = 2 → Answers (.levellingResponse p num code) s
          (s.begin.updTrk p fun t => { t with reqDone := true, rxResp := code.toNat })) ∧
        (3 ≤ code.toNat → Answers (.levellingResponse p num code) s
          ((s.begin.updTrk p fun t => { t with reqDone := true, rxResp := code.toNat }).raiseOnce
            (pathSrc p 19) code.toNat 0 0 0))) ∧
      (num = 0 ∨ num.toNat ≠ (s.trk p).reqNum ∨ (s.trk p).reqDone = true ∨ code = 0 →
        Answers (.levellingResponse p num code) s s.begin)) ∧
    ((s.trk p).reqNum ≠ 0 → (s.trk p).reqDone = false → 4096 ≤ (s.trk p).reqAge →
      Answers (.levellingRequestTimeout p) s
        ((s.begin.updTrk p fun t => { t with reqNum := 0, rxResp := 0x0F }).raiseOnce (pathSrc p 19) 0x0F 0 0 0)) ∧
    ((s.trk p).reqNum = 0 ∨ (s.trk p).reqDone = true ∨ (s.trk p).reqAge < 4096 →
      Answers (.levellingRequestTimeout p) s s.begin)

/-- R164, R165: a request for the profiles of another generation is answered 3 and refused; a request inside the rails
and steps of its tracks, feasible and free to be scheduled, is answered 1: its set becomes the next copy, with a
milestone entry of its own; one that is not feasible is answered 4, shown and reported (R143, R157). -/
def Obligations.LevellingAnswers : Prop :=
  ∀ (s : State) (p : Path) (num base : BitVec 16) (req : List Nat) (m : PathMode), s.pwr.inReset = false →
    num ≠ 0 → num.toNat ≠ (s.trk p).answered → (s.lfr p).quarantine = false → s.pathUp p = true →
    m = s.txMode p → req.length = 16 → (∀ t, m.trackCount ≤ t → req.getD t 0 = 0) →
    (∀ t, t < m.trackCount → 64 ≤ req.getD t 0 ∧ req.getD t 0 ≤ 179 ∧ (s.rail (loopId p 1 t)).freeze = false) →
    m.trackCount ≤ 16 → s.pflag p Reg.PA_TRK_LEV_CTRL 1 = true → s.modePending p = false → (s.trk p).change = none →
    (base ≠ (s.mstPath p).tx.track → Answers (.levellingRequest p num base req) s
      ((s.begin.updTrk p fun t => { t with
        answered := num.toNat, txResp := 3, refused := (t.refused + 1) % 65536 }).raiseOnce (pathSrc p 19) 3 0 0 0)) ∧
    (∀ n : NewEntry, base = (s.mstPath p).tx.track → m.feasible req = true →
      (∀ t, t < m.trackCount →
        (s.rail (loopId p 1 t)).min ≤ req.getD t 0 ∧ (req.getD t 0 : Int) ≤ (s.rail (loopId p 1 t)).max ∧
        ((s.path p).txd.prof.getD t 0 : Int) - (s.rail (loopId p 1 t)).step ≤ req.getD t 0 ∧
        (req.getD t 0 : Int) ≤ (s.path p).txd.prof.getD t 0 + (s.rail (loopId p 1 t)).step) →
      n = { sec := (s.now + 2621440) / 1000000000, ns := (s.now + 2621440) % 1000000000, device := false,
            pathA := pathNum p = 0, pathB := pathNum p = 1, kinds := 4, owner := .tracks, amdNum := 0 } →
      s.judgeEntry n = 0 →
      Runs (.levellingRequest p num base req) s fun t => (t.path p).txd.profRefused = (s.path p).txd.profRefused ∧
        (t.trk p).answered = num.toNat ∧ (t.trk p).txResp = 1 ∧
        (t.trk p).accepted = ((s.trk p).accepted + 1) % 65536 ∧ (t.path p).txd.profNext = req ∧
        t.staged p 2 = some ((s.mstPath p).tx.track + 1) ∧
        (∃ e, t.mst.queue = s.mst.queue ++ [e] ∧ e.owner = .tracks ∧ e.time = s.now + 2621440 ∧
          (e.part p).kinds = 4#7 ∧ (t.trk p).change = some ⟨e.handle, (s.mstPath p).tx.track + 1⟩) ∧
        (t.path p).txd.prof = (s.path p).txd.prof ∧ t.path (otherPath p) = s.path (otherPath p)) ∧
    (base = (s.mstPath p).tx.track → m.feasible req = false →
      (∀ t, t < m.trackCount →
        (s.rail (loopId p 1 t)).min ≤ req.getD t 0 ∧ (req.getD t 0 : Int) ≤ (s.rail (loopId p 1 t)).max ∧
        ((s.path p).txd.prof.getD t 0 : Int) - (s.rail (loopId p 1 t)).step ≤ req.getD t 0 ∧
        (req.getD t 0 : Int) ≤ (s.path p).txd.prof.getD t 0 + (s.rail (loopId p 1 t)).step) →
      Runs (.levellingRequest p num base req) s fun t =>
        (t.trk p).txResp = 4 ∧ (t.trk p).refused = ((s.trk p).refused + 1) % 65536 ∧
        (t.path p).txd = { (s.path p).txd with profRefused := true } ∧ t.evt.pend.testBit (pathSrc p 17) = true ∧
        t.mst = s.mst ∧ t.path (otherPath p) = s.path (otherPath p))

/-- R168, R171: `APPLY` takes a loop's pending rails into force when they are accepted, and otherwise leaves the loop as
it is and shows the refusal; a host write of a profile fixes its loop's rails at the value. The model's choices in it:
log 71, 83. -/
def Obligations.RailCommits : Prop :=
  ∀ (s : State) (ses : Session),
    (∀ (window : BitVec 2) (freeze : Bool) (dwell : BitVec 16) (off id : Nat) (w : Word) (r : RailState),
      (window = 0 ∧ off = pathReg .a Reg.PA_TRK_RAIL_CTRL ∧ id = s.pfld .a Reg.PA_TRK_RAIL_SEL 15 0 ∨
        window = 1 ∧ off = pathReg .b Reg.PA_TRK_RAIL_CTRL ∧ id = s.pfld .b Reg.PA_TRK_RAIL_SEL 15 0 ∨
        window = 2 ∧ off = Reg.HSF_RAIL_CTRL ∧ id = s.fld Reg.HSF_RAIL_SEL 15 0) →
      w = BitVec.ofNat 32 (2 ^ 31 + b2n freeze * 2 ^ 16 + dwell.toNat) → Accepted s ses off w → r = s.rail id →
      (s.railOk id r.pMin r.pMax r.pStep = true → Runs (.apply ses window freeze dwell) s fun t =>
        (t.rail id).min = r.pMin ∧ (t.rail id).max = r.pMax ∧ (t.rail id).step = r.pStep ∧
        (t.rail id).freeze = freeze ∧ (t.rail id).dwell = dwell.toNat ∧ (t.rail id).refused = r.refused ∧
        (t.rail id).out = r.out ∧ (∀ i, i ≠ id → t.rail i = s.rail i)) ∧
      (s.railOk id r.pMin r.pMax r.pStep = false → Runs (.apply ses window freeze dwell) s fun t =>
        t.rail id = { r with pFreeze := freeze, pDwell := dwell.toNat, refused := true } ∧
        (∀ i, i ≠ id → t.rail i = s.rail i))) ∧
    (∀ (p : Path) (j : BitVec 8) (w : Word) (id : Nat), w = BitVec.ofNat 32 j.toNat →
      Accepted s ses (pathReg p Reg.PA_TRK_PROF) w → id = loopId p 1 (s.pfld p Reg.PA_TRK_PROF_SEL 3 0) →
      Runs (.jWrite ses p j) s fun t =>
        (t.rail id).min = j.toNat ∧ (t.rail id).max = j.toNat ∧ (t.rail id).step = (s.rail id).step ∧
        (t.rail id).freeze = (s.rail id).freeze ∧ (∀ i, i ≠ id → t.rail i = s.rail i) ∧ t.pwr = s.pwr)

/-- R185, R186, R491: at the end of an interval the iteration loop takes its next level by the step rail, then the
bounds. A level that the grant covers is taken at the next received frame boundary, and the grant keeps what the larger
of the two levels needs. One beyond it is requested at its cost less the grant: what fits is granted at once, what fits
only later waits, and what can never fit is denied and throttles the loop. A decoder asked for its excess returns it and
runs at most the level that is left. The model's choices in it: log 88, 122. -/
def Obligations.IterationLoop : Prop :=
  ∀ (s : State) (p : Path) (f : FecState) (level : Nat), s.pwr.inReset = false → 0 < (s.rxModeOf p).iterCost →
    (∀ cost, f = { s.fec p with hitFree := if (s.fec p).ivHits = 0 then (s.fec p).hitFree + 1 else 0 } →
      f.llr = true → 1024 ≤ f.ivFrames → f.want = none → (s.rail (loopId p 4 0)).freeze = false →
      level = ((s.rail (loopId p 4 0)).clamps f.iMax (iterWant f (s.pflag p Reg.PA_FEC_CTRL 0)
        (s.pfld p Reg.PA_FEC_LOOP 31 16) (s.pfld p Reg.PA_FEC_LOOP 7 0) : Nat)).toNat →
      cost = level * (s.rxModeOf p).iterCost - f.gd →
      (level ≤ s.covered p → Runs (.iterationLoopUpdate p) s fun t =>
        (t.fec p).iNext = some level ∧ (t.fec p).iMax = f.iMax ∧ (t.fec p).ivFrames = 0 ∧ (t.fec p).ivHits = 0 ∧
        (t.fec p).gd = min f.gd (max level f.iMax * (s.rxModeOf p).iterCost) ∧ (t.fec p).hitFree = f.hitFree ∧
        t.pwr.queue = s.pwr.queue ∧ t.path (otherPath p) = s.path (otherPath p) ∧ t.mst = s.mst) ∧
      (s.covered p < level → s.pwr.queue = [] →
        (s.alloc + ceilDiv cost 10 ≤ s.effCeiling → Runs (.iterationLoopUpdate p) s fun t =>
          (t.fec p).iNext = some level ∧ (t.fec p).want = none ∧ (t.fec p).iMax = f.iMax ∧
          (t.fec p).gd = level * (s.rxModeOf p).iterCost ∧ t.pwr.queue = [] ∧ t.pwr.denied = s.pwr.denied ∧
          t.path (otherPath p) = s.path (otherPath p) ∧ t.mst = s.mst) ∧
        (s.effCeiling < s.alloc + ceilDiv cost 10 → s.base + ceilDiv cost 10 ≤ s.effCeiling →
          Runs (.iterationLoopUpdate p) s fun t =>
            t.pwr.queue = [⟨4 + pathNum p, ceilDiv cost 10, s.upNs⟩] ∧ t.pwr.grants = s.pwr.grants ∧
            t.fec p = { f.newInterval with want := some (level, cost) } ∧
            t.path (otherPath p) = s.path (otherPath p) ∧ t.mst = s.mst) ∧
        (s.effCeiling < s.alloc + ceilDiv cost 10 → s.effCeiling < s.base + ceilDiv cost 10 →
          Runs (.iterationLoopUpdate p) s fun t =>
            t.pwr.queue = [] ∧ t.pwr.denied = (s.pwr.denied + 1) % 65536 ∧ t.pwr.grants = s.pwr.grants ∧
            t.fec p = f.newInterval ∧ (t.rail (loopId p 4 0)).throttled = true ∧ t.evt.pend.testBit 289 = true ∧
            t.path (otherPath p) = s.path (otherPath p) ∧ t.mst = s.mst))) ∧
    (s.pwr.excess.getLsbD (pathNum p) = true →
      level = min 12 (min (s.fec p).gd (12 * (s.rxModeOf p).iterCost) / (s.rxModeOf p).iterCost) →
      Runs (.decoderExcessReturn p) s fun t =>
        t.pwr.excess = s.pwr.excess &&& ~~~(1#2 <<< pathNum p) ∧
        (t.fec p).gd = min (s.fec p).gd (12 * (s.rxModeOf p).iterCost) ∧
        (t.fec p).iMax = min (s.fec p).iMax level ∧ t.pwr.queue = s.pwr.queue ∧
        t.path (otherPath p) = s.path (otherPath p) ∧ t.mst = s.mst)


/-! ### Route images and register access (02_route_image.md, 18_control_and_observability.md) -/

/-- R47, R48, R54: `LOAD`, `STORE` to a slot that the active image did not come from, and `AMEND` start their operation;
`AMD_CANCEL` in time withdraws the pending amendment. R44: `COMMIT_FLOOR` with an image that may raise the floor asks
for the OTP grant and starts the commit. The model's choices in it: log 66, 83, 93. -/
def Obligations.LoaderCommands : Prop :=
  ∀ (s : State) (ses : Session) (w : Word) (v : State), v = s.stores ses Reg.RTE_CTRL w → Accepted s ses Reg.RTE_CTRL w →
    (∀ src : BitVec 2, w = setField (s.withField Reg.RTE_CTRL 1 0 src.toNat) 2 2 1 →
      Writes (.load ses src) s ses { v with rte := { v.rte with op := some (.load src.toNat) } }) ∧
    (∀ b : Bool, w = setField (s.withField Reg.RTE_CTRL 7 7 (b2n b)) 6 6 1 →
      (s.rte.active = true → s.rte.src ≠ 1 + b2n b) →
      Writes (.store ses b) s ses { v with rte := { v.rte with op := some (.store b) } }) ∧
    (w = s.withField Reg.RTE_CTRL 3 3 1 →
      Writes (.amend ses) s ses { v with rte := { v.rte with op := some .amend } }) ∧
    (w = s.withField Reg.RTE_CTRL 4 4 1 → s.rte.active = true → s.rte.advance = true → s.tru.floor < s.rte.version →
      s.tru.busy = none → s.pwr.queue = [] → s.alloc + 250 ≤ s.effCeiling → Runs (.commitFloor ses) s fun t =>
        t.rte = { s.rte with op := some (.floorCommit s.rte.version) } ∧
        t.tru = { s.tru with busy := some ⟨1, 0, 312, s.rte.version,
          [(312, BitVec.ofNat 64 (2 ^ min s.rte.version 64 - 1)),
          (313, BitVec.ofNat 64 (2 ^ (s.rte.version - 64) - 1))], false, false⟩ } ∧
        t.grantOf 10 = s.grantOf 10 + 250 ∧ t.mst = s.mst ∧ t.pa = s.pa ∧ t.pb = s.pb) ∧
    (∀ a e, w = s.withField Reg.RTE_CTRL 5 5 1 → s.rte.amd = some a → s.entry a.handle = some e →
      Runs (.amdCancel ses) s fun t =>
        t.rte = { s.rte with amd := none } ∧ t.evt.pend.testBit 260 = true ∧
        (∀ x ∈ t.mst.queue, x.handle = a.handle → x.withdrawn = true) ∧ t.mst.sec = s.mst.sec ∧ t.pwr = s.pwr)

/-- R49, R142, R520, R60: an image in staging that passes every check and holds structure records and grants only
becomes the active image: configuration, source, version, generation and fabric generation are its own, every track of a
path has the uniform profile and all generations are those of the image; events 256 and, once after a reset, 292. The
model's choices in it: log 67, 93. -/
def Obligations.LoadsImage : Prop :=
  ∀ (s : State) (img : Bytes) (fe : Option Nat), s.pwr.inReset = false → s.rte.op = some (.load 3) →
    s.mem.firstBad (s.freeCtr + 1) stagingBase s.rteLen = none →
    img = s.mem.readBytes (s.freeCtr + 1) stagingBase s.rteLen →
    s.imageFault img = none → needsFill (imageRecs img) = false →
    (∀ r ∈ imageRecs img, r.typ / 256 = 1 ∨ r.typ / 256 = 6) →
    Runs (.loadFinished fe []) s fun t =>
      t.rte.active = true ∧ t.rte.cfg = imageCfg (imageRecs img) ∧ t.rte.src = 3 ∧ t.rte.version = beAt img 10 1 ∧
      t.rte.gen = BitVec.ofNat 32 (beAt img 12 4) ∧ t.rte.amdNum = 0 ∧
      (s.rte.active = true → t.rte.amd = none) ∧ t.rte.op = none ∧
      t.rte.digest = sha384 (img.take (sigStart img)) ∧ t.rte.fabric = s.rte.fabric + 1 ∧
      t.evt.pend.testBit 256 = true ∧ t.pwr.booted = true ∧ (s.pwr.booted = false → t.evt.pend.testBit 292 = true) ∧
      (∀ p, t.pathUp p = true → (t.path p).txd.prof = (t.txMode p).uniform ∧ (t.path p).trk.rxProf = (t.txMode p).uniform ∧
        (t.path p).rxMode = some (t.txMode p) ∧ (t.mstPath p).tx.key = 0 ∧ (t.mstPath p).tx.track = 0 ∧
        (t.mstPath p).tx.mode = 0 ∧ (t.mstPath p).rx = (t.mstPath p).tx ∧ (t.mstPath p).staged = []) ∧
      t.tru = s.tru

/-- R46, R52, R59, R60: an operation that fails ends with its code and detail, shown by `FAILED` and reported, and
leaves the active image as it is: staging that reads uncorrectable, a check that refuses the file, a blank slot, an
error of the flash, a selection in auto that finds no valid slot (R48). Before the sector key is there a load from a
slot waits (R492). The model's choices in it: log 64, 93, 152. -/
def Obligations.LoaderFails : Prop :=
  ∀ (s : State) (ups : Upsets) (f : Nat × Nat) (u : State), s.pwr.inReset = false →
    (s.tru.ready = true → (∀ b : Bool, s.rte.op = some (.load (1 + b2n b)) →
      (s.slotBytes b = none → Answers (.loadFinished none ups) s (({ s.begin with rte := { s.rte with
        op := none, failCode := 1, failDetail := 0, failed := true } }).raise 257 1 0 0 0)) ∧
      (∀ n, Answers (.loadFinished (some n) ups) s (({ s.begin with rte := { s.rte with
        op := none, failCode := 2, failDetail := n, failed := true } }).raise 257 2 0 n 0))) ∧
      (s.rte.op = some (.load 0) → s.slotBytes true = none →
        (s.slotBytes false = none → Answers (.loadFinished none ups) s (({ s.begin with rte := { s.rte with
          nextBoot := 0, validA := false, validB := false
          op := none, failCode := 1, failDetail := 0, failed := true } }).raise 257 1 0 0 0)) ∧
        (∀ n, n < 4096 → Answers (.loadFinished (some n) ups) s (({ s.begin with rte := { s.rte with
          nextBoot := 0, validA := false, validB := false
          op := none, failCode := 2, failDetail := n, failed := true } }).raise 257 2 0 n 0)))) ∧
    (∀ src fe, s.tru.ready = false → s.rte.op = some (.load src) → src ≠ 3 →
      Answers (.loadFinished fe ups) s s.begin) ∧
    (∀ w fe, s.rte.op = some (.load 3) → u = (s.begin.suffer ups).noteRead 2 stagingBase s.rteLen →
      (s.begin.suffer ups).mem.firstBad (s.freeCtr + 1) stagingBase s.rteLen = some w → f = (3, w - stagingBase / 32) →
      Answers (.loadFinished fe ups) s (({ u with rte := { s.rte with
        op := none, failCode := f.1, failDetail := f.2, failed := true } }).raise 257 f.1 0 f.2 0)) ∧
    (∀ b img fe, s.rte.op = some (.store b) → u = s.begin.noteRead 2 stagingBase s.rteLen →
      s.mem.firstBad (s.freeCtr + 1) stagingBase s.rteLen = none →
      img = s.mem.readBytes (s.freeCtr + 1) stagingBase s.rteLen → s.fileFault img 1 s.rteLen = some f →
      Answers (.storeFinished fe) s (({ u with rte := { s.rte with
        op := none, failCode := f.1, failDetail := f.2, failed := true } }).raise 262 f.1 0 f.2 0)) ∧
    (∀ b img fe n v, s.rte.op = some (.store b) → u = s.begin.noteRead 2 stagingBase s.rteLen →
      s.mem.firstBad (s.freeCtr + 1) stagingBase s.rteLen = none →
      img = s.mem.readBytes (s.freeCtr + 1) stagingBase s.rteLen → s.fileFault img 1 s.rteLen = none →
      sectionFault img = none → s.storeFault b img.length fe = some n → v = u.storeBroken b n →
      Answers (.storeFinished fe) s (({ v with rte := { v.rte with
        op := none, failCode := flFlashWrite, failDetail := n, failed := true } }).raise 262 flFlashWrite 0 n 0)) ∧
    (∀ img, s.rte.op = some .amend → u = (s.begin.suffer ups).noteRead 2 stagingBase s.rteLen →
      (s.begin.suffer ups).mem.firstBad (s.freeCtr + 1) stagingBase s.rteLen = none →
      img = (s.begin.suffer ups).mem.readBytes (s.freeCtr + 1) stagingBase s.rteLen → u.amdJudge img = .inr f →
      Answers (.amendVerified ups) s (({ u with rte := { s.rte with
        op := none, failCode := f.1, failDetail := f.2, failed := true } }).raise 260 f.1 0 f.2 0))

/-- R47, R54, R60: a staged image that is verified and written is the slot's content under the sector key, with event
261; an amendment that passes every check is pending, with its number, its milestone in the queue, and event 258. The
model's choices in it: log 64, 93, 94, 133, 134. -/
def Obligations.StoresAndAmends : Prop :=
  ∀ (s : State) (img : Bytes) (u : State), s.pwr.inReset = false → u = s.begin.noteRead 2 stagingBase s.rteLen →
    s.mem.firstBad (s.freeCtr + 1) stagingBase s.rteLen = none →
    img = s.mem.readBytes (s.freeCtr + 1) stagingBase s.rteLen →
    (∀ b : Bool, s.rte.op = some (.store b) → s.fileFault img 1 s.rteLen = none → sectionFault img = none →
      (b = true → 0x02000000 + 4096 * s.spillSectors ≤ s.rte.flashSize) →
      Answers (.storeFinished none) s (({ u with rte := { s.rte with
        op := none, slotA := if b then s.rte.slotA else .image s.tru.sectorKey img
        slotB := if b then .image s.tru.sectorKey img else s.rte.slotB } }).raise 261 0 0 (b2n b) 0)) ∧
    (∀ c, s.rte.op = some .amend → u.amdJudge img = .inl c →
      s.now + 2097152 < s.amdTime.1 * 1000000000 + s.amdTime.2 → Runs (.amendVerified []) s fun t =>
      (∃ a, t.rte.amd = some a ∧ a.num = beAt img 28 2 ∧ a.cfg = amendCfg s.rte.cfg (imageRecs img) ∧
        a.handle < 64 ∧ (∀ x ∈ s.mst.queue, x.handle ≠ a.handle) ∧
        ∃ e ∈ t.mst.queue, e.handle = a.handle ∧ e.owner = .loader ∧ e.amdNum = a.num ∧
          e.time = s.amdTime.1 * 1000000000 + s.amdTime.2) ∧
      t.rte.op = none ∧ t.rte.cfg = s.rte.cfg ∧ t.rte.amdNum = s.rte.amdNum ∧ t.evt.pend.testBit 258 = true ∧
      t.mst.queue.length = s.mst.queue.length + 1 ∧ (t.mstPath .a).tx = (s.mstPath .a).tx ∧
      (t.mstPath .b).tx = (s.mstPath .b).tx)

/-! ### Registers, sessions and sequence locks (18_control_and_observability.md, 01_architecture.md) -/

/-- R9, R70: what an accepted write stores. A register without class M fields reads, in the fields that hold what is
written, as the word; class M fields hold it in the register's shadow and stay as they are; every other register stays
as it is. The model's choices in it: log 69. -/
def Obligations.WritesStore : Prop :=
  ∀ (s : State) (ses : Session) (off : Nat) (w : Word) (d : RegDesc), regDesc off = some d →
    unitHeld (baseOff off) = false →
    (milestoneMask d = 0 →
      (s.stores ses off w).regI off (s.item off) = mergeWrite (storedMask d) (s.regI off (s.item off)) w ∧
      (s.stores ses off w).shadow = s.shadow) ∧
    (milestoneMask d ≠ 0 →
      (s.stores ses off w).regI off (s.item off) =
        mergeWrite (storedMask d &&& ~~~milestoneMask d) (s.regI off (s.item off)) w ∧
      noted (s.stores ses off w).shadow (regKey off (s.item off)) = some (mergeWrite (milestoneMask d)
        ((noted s.shadow (regKey off (s.item off))).getD (s.regI off (s.item off))) w)) ∧
    (∀ k, k ≠ regKey off (s.item off) → sparseGet regReset (s.stores ses off w).cfg k = sparseGet regReset s.cfg k) ∧
    (s.stores ses off w).session (sessionNum ses) =
      { s.session (sessionNum ses) with result := 0, addr := off } ∧
    (∀ n, n ≠ sessionNum ses → (s.stores ses off w).session n = s.session n)

/-- R449, R450: a write of a register over BAR0, the maintenance port or the ring has the effect that its register gives
it, of which some registers have none beside storing the word; a read of these answers what they hold. The maintenance
port answers a transaction with another command byte with `UNMAPPED`. The model's choices in it: log 70. -/
def Obligations.RegisterAccess : Prop :=
  ∀ (s : State) (off : Nat) (w : Word),
    (∀ ses, Accepted s ses off w → off % 4 = 0 → off < 2 ^ 26 → off ≠ Reg.CTL_LOCK_CMD →
      Writes (.registerWrite ses false (BitVec.ofNat 26 off) w 0xF) s ses
        ((s.access ses off).applyWrite (sessionNum ses) off w)) ∧
    (off ∈ [Reg.RTE_LEN, Reg.MST_HOLDOVER, Reg.MST_SET_NS, Reg.RTE_AMD_TIME_NS, Reg.EVT_CTRL, Reg.EVT_SPILL_CTRL] →
      (∀ ses, Accepted s ses off w →
        Writes (.registerWrite ses false (BitVec.ofNat 26 off) w 0xF) s ses (s.stores ses off w)) ∧
      (Accepted s .maint off w → Writes (.mntRegisterWrite (BitVec.ofNat 32 off) w) s .maint (s.stores .maint off w)) ∧
      (∀ d, regDesc off = some d → s.pwr.inReset = false → s.reaches .pcie = true →
        Answers (.registerRead false (BitVec.ofNat 26 off)) s
          (s.begin.emit (.readData .pcie (s.reg off &&& storedMask d)))) ∧
      (∀ d, regDesc off = some d → s.pwr.inReset = false → s.reaches .maint = true →
        Answers (.mntRegisterRead (.read (BitVec.ofNat 32 off))) s
          ((s.begin.emit (.readData .maint (s.reg off &&& storedMask d))).emit (.result .maint 0)))) ∧
    (∀ cmd, s.pwr.inReset = false → s.reaches .maint = true →
      Answers (.mntRegisterRead (.unknown cmd)) s (s.begin.emit (.result .maint 0xA)))

/-- R10: a write of a basic mode word gives the fields of its profile their values; the unit's profile is no longer
custom. Fields that act when they are written act: the power limits (R487), a rekey interval that has changed (R266),
the preset of the fast ports (R381), a levelling cycle that is enabled (R162), and the trace comparison (R209). The
values of the decoder's profiles are those of R192, of the fast ports' those of R395, of the power unit's those of R494.
The model's choices in it: log 83. -/
def Obligations.BasicProfiles : Prop :=
  ∀ (s : State) (ses : Session) (u : BasicUnit) (prof : BitVec 4) (w : Word) (v r : State),
    w = s.withField (basicReg u) 3 0 prof.toNat → v = s.stores ses (basicReg u) w → Accepted s ses (basicReg u) w →
    r = (v.profFields (basicReg u) w).foldl (fun t f => t.storeField f.off f.idx f.hi f.lo f.val) v →
    basicReg u ∉ v.custom ∧
    (u = .pwr → Writes (.basicProfileWrite ses u prof) s ses r.ceilingChanged.timeoutChanged) ∧
    (u = .cry → (∀ i, i < 2 → v.fldI Reg.CRY_POLICY i 5 0 = r.fldI Reg.CRY_POLICY i 5 0) →
      Writes (.basicProfileWrite ses u prof) s ses r) ∧
    (u = .hsf → Writes (.basicProfileWrite ses u prof) s ses ((List.range 32).foldl (fun t f => t.presetTaken f) r)) ∧
    (u ≠ .pwr → u ≠ .cry → u ≠ .hsf → Writes (.basicProfileWrite ses u prof) s ses
      ((((r.levelEnable .a (v.pflag .a Reg.PA_TRK_LEV_CTRL 0)).levelEnable .b
        (v.pflag .b Reg.PA_TRK_LEV_CTRL 0)).timJudge .a).timJudge .b)) ∧
    (∀ p, u = .fec p → Runs (.basicProfileWrite ses u prof) s fun t => prof.toNat ≤ 2 ∧
      t.pfld p Reg.PA_FEC_CTRL 0 0 = (if prof = 0 then 0 else 1) ∧ t.pfld p Reg.PA_FEC_CTRL 11 8 = 12 ∧
      t.pfld p Reg.PA_FEC_LOOP 31 16 = (if prof = 2 then 64 else 16) ∧
      t.pfld p Reg.PA_FEC_LOOP 7 0 = (if prof = 2 then 4 else 16) ∧
      t.pfld p Reg.PA_FEC_BASIC 3 0 = prof.toNat ∧ t.rails = s.rails) ∧
    (u = .hsf → Runs (.basicProfileWrite ses u prof) s fun t => prof.toNat ≤ 2 ∧ ∀ n, n < 32 →
      t.fldI Reg.HSF_PORT_CTRL n 9 8 = (if prof = 0 then 1 else 0) ∧
      t.fldI Reg.HSF_PORT_CTRL n 6 4 = (if prof = 2 then 3 else 1)) ∧
    (u = .pwr → s.pwr.queue = [] → Runs (.basicProfileWrite ses u prof) s fun t => prof.toNat ≤ 2 ∧
      t.fld Reg.PWR_CTRL 13 0 = (if prof = 2 then 1000 else 100) ∧
      t.fld Reg.PWR_CTRL 23 16 = (if prof = 1 then 50 else 30) ∧
      t.fld Reg.PWR_THERM 15 8 = (if prof = 1 then 115 else 120) ∧
      t.fld Reg.PWR_THERM 23 16 = (if prof = 1 then 125 else 130) ∧
      t.fld Reg.PWR_THERM 31 24 = s.fld Reg.PWR_THERM 31 24 ∧ t.fld Reg.PWR_CEILING 8 0 = s.fld Reg.PWR_CEILING 8 0)

/-- R455, R456, R467: a write that is refused changes no register: its session hears the code and the address, at its
port where that answers writes, and a kind 2 record tells of it; a command that its unit is too busy for shows in the
unit's own result too. A PCIe write without all four byte enables is refused with `WIDTH`, a ring session's write with
`NOT_ALLOWED` while `WRITE_EN` is 0 (R451). R462: a session's write in a domain that another session holds is refused
with `SEQ_LOCK`; in a domain of its own it is staged, or refused at once for what does not depend on time, or with
`STAGE_FULL`. The model's choices in it: log 71, 150. -/
def Obligations.RefusedWrites : Prop :=
  ∀ (s : State) (ses : Session) (n off : Nat) (w : Word), s.pwr.inReset = false → s.reaches ses = true →
    off % 4 = 0 → off < 2 ^ 26 → n = sessionNum ses →
    ((∀ st, ses = .ring st → s.ringWrites = true) →
      (∀ c v, s.lockCode n off = 0 → s.begin.judge .host off w = c → refusedCode c = true →
        v = (if c = 5 then s.begin.busyNote off w else s.begin) →
        Answers (.registerWrite ses false (BitVec.ofNat 26 off) w 0xF) s
          (((v.updSession n fun x => { x with result := c, addr := off, refused := true }).occ
            ⟨2, 302, c, n, off, w.toNat, false, 0⟩).portAnswer ses (some c))) ∧
      (∀ d m, off < unmappedFrom → regDesc off ≠ none → s.present off = true → s.domainOf (blockOf off) = some d →
        (s.lock d).owner = some m →
        (m ≠ n → Answers (.registerWrite ses false (BitVec.ofNat 26 off) w 0xF) s
          (((s.begin.updSession n fun x => { x with result := 7, addr := off, refused := true }).occ
            ⟨2, 302, 7, n, off, w.toNat, false, 0⟩).portAnswer ses (some 7))) ∧
        (m = n → s.begin.staticCode .host off w = 0 → (s.lock d).staged.length < 256 →
          Answers (.registerWrite ses false (BitVec.ofNat 26 off) w 0xF) s
            (((s.begin.updLock d fun l => { l with staged := l.staged ++ [(off, w)] }).updSession n
              fun x => { x with result := 0xC, addr := off }).portAnswer ses (some 0xC))) ∧
        (∀ c, m = n → s.begin.staticCode .host off w = c ∧ c ≠ 0 ∨
            s.begin.staticCode .host off w = 0 ∧ 256 ≤ (s.lock d).staged.length ∧ c = 8 →
          Answers (.registerWrite ses false (BitVec.ofNat 26 off) w 0xF) s
            (((s.begin.updSession n fun x => { x with result := c, addr := off, refused := true }).occ
              ⟨2, 302, c, n, off, w.toNat, false, 0⟩).portAnswer ses (some c))))) ∧
    (∀ en : BitVec 4, ses = .pcie → en ≠ 0xF → Answers (.registerWrite ses false (BitVec.ofNat 26 off) w en) s
      ((s.begin.updSession 0 fun x => { x with result := 0xB, addr := off, refused := true }).occ
        ⟨2, 302, 0xB, 0, off, w.toNat, false, 0⟩)) ∧
    (∀ st, ses = .ring st → s.ringWrites = false → Answers (.registerWrite ses false (BitVec.ofNat 26 off) w 0xF) s
      ((s.begin.updSession n fun x => { x with result := 0xF, addr := off }).emit (.result ses 0xF)))

/-- R461, R463: a free domain is acquired, with `BROKEN` where its last lock broke, and a held one is not; its owner
renews and aborts it, which discards the staged writes, and commits it: the writes apply in order and the domain is
free, or none of them applies and the first refused one is named; another session's command is `NOT_OWNER`. A lease that
expires breaks the lock. The model's choices in it: log 2. -/
def Obligations.LockCommands : Prop :=
  ∀ (s : State) (ses : Session) (dom : BitVec 3) (d n : Nat), d = dom.toNat → n = sessionNum ses →
    (∀ (w : Word) (v : State), w = BitVec.ofNat 32 (2 ^ 31 + 1 * 2 ^ 24 + d) → v = s.stores ses Reg.CTL_LOCK_CMD w →
      Accepted s ses Reg.CTL_LOCK_CMD w →
      ((s.lock d).owner = none → Writes (.acquire ses dom) s ses ((v.updLock d fun _ => ⟨some n, false, []⟩).updSession n
        fun x => { x with lockResult := if (s.lock d).broken then 4 else 0, lockDom := d, lockIndex := 0 })) ∧
      ((s.lock d).owner ≠ none → Writes (.acquire ses dom) s ses
        (v.updSession n fun x => { x with lockResult := 1, lockDom := d, lockIndex := 0 }))) ∧
    (∀ (w : Word) (v : State), w = BitVec.ofNat 32 (2 ^ 31 + 2 * 2 ^ 24 + d) → v = s.stores ses Reg.CTL_LOCK_CMD w →
      Accepted s ses Reg.CTL_LOCK_CMD w → Writes (.renew ses dom) s ses (v.updSession n fun x => { x with
        lockResult := if (s.lock d).owner = some n then 0 else 2, lockDom := d, lockIndex := 0 })) ∧
    (∀ (w : Word) (v : State), w = BitVec.ofNat 32 (2 ^ 31 + 3 * 2 ^ 24 + d) → v = s.stores ses Reg.CTL_LOCK_CMD w →
      Accepted s ses Reg.CTL_LOCK_CMD w →
      ((s.lock d).owner = some n →
        (∀ t, v.commitRun n 0 (s.lock d).staged = .inl t → Writes (.lockCommit ses dom) s ses
          (((v.commitApply n (s.lock d).staged).updLock d fun _ => ⟨none, false, []⟩).updSession n
            fun x => { x with lockResult := 0, lockDom := d, lockIndex := 0 })) ∧
        (∀ off x, (s.lock d).staged = [(off, x)] → refusedCode (v.judge .host off x) = false →
          baseOff off ≠ Reg.PA_CNV_CTRL → baseOff off ∉ [Reg.MON_CTRL, Reg.TRU_CMD, Reg.MEM_REPAIR_CMD] →
          regDesc off ≠ none → Writes (.lockCommit ses dom) s ses
            (((v.applyWrite n off x).updLock d fun _ => ⟨none, false, []⟩).updSession n
              fun x => { x with lockResult := 0, lockDom := d, lockIndex := 0 })) ∧
        (∀ i, v.commitRun n 0 (s.lock d).staged = .inr i → Writes (.lockCommit ses dom) s ses
          (v.updSession n fun x => { x with lockResult := 3, lockDom := d, lockIndex := i }))) ∧
      ((s.lock d).owner ≠ some n → Writes (.lockCommit ses dom) s ses
        (v.updSession n fun x => { x with lockResult := 2, lockDom := d, lockIndex := 0 }))) ∧
    (∀ (w : Word) (v : State), w = BitVec.ofNat 32 (2 ^ 31 + 4 * 2 ^ 24 + d) → v = s.stores ses Reg.CTL_LOCK_CMD w →
      Accepted s ses Reg.CTL_LOCK_CMD w →
      ((s.lock d).owner = some n → Writes (.abort ses dom) s ses
        ((v.updLock d fun _ => ⟨none, false, []⟩).updSession n
          fun x => { x with lockResult := 0, lockDom := d, lockIndex := 0 })) ∧
      ((s.lock d).owner ≠ some n → Writes (.abort ses dom) s ses
        (v.updSession n fun x => { x with lockResult := 2, lockDom := d, lockIndex := 0 }))) ∧
    (∀ m, s.pwr.inReset = false → (s.lock d).owner = some m → Answers (.leaseExpiry dom) s
      ((s.begin.updLock d fun _ => ⟨none, true, []⟩).raise 302 1 d d m))

/-- R463: a lock breaks when its lease expires and when its session resets: the PCIe session at an FLR, at a loss of the
link and at `PERST_N`, the maintenance session at its two resets, and every ring session at the loss of lock of a ring
lane. What it staged is discarded, the domain is free, event 302 tells of it; the next session that acquires the domain
hears `BROKEN`, and the one after it does not. -/
def Obligations.LocksBreak : Prop :=
  (∀ (s : State) (dom : BitVec 3) (n : Nat), s.pwr.inReset = false → (s.lock dom.toNat).owner = some n →
     Answers (.leaseExpiry dom) s
       ((s.begin.updLock dom.toNat fun _ => ⟨none, true, []⟩).raise 302 1 dom.toNat dom.toNat n)) ∧
  (∀ s : State, s.pwr.inReset = false →
     (∀ c ∈ [Instr.flr, .pcieLinkDown, .perstN], s.ctl.pcieUp = true → ∃ u, Answers c s u ∧ Broke (· = 0) s u) ∧
     (∀ c ∈ [Instr.mntSessionReset, .mntCsAbort], s.reaches .maint = true → ∃ u, Answers c s u ∧ Broke (· = 1) s u) ∧
     (∀ lane : BitVec 4, s.ringLane lane.toNat = true → (s.lane lane.toNat).state = 4 →
       ∃ u, Answers (.laneLockLost lane) s u ∧ Broke (256 ≤ ·) s u)) ∧
  (∀ (s : State) (ses : Session) (dom : BitVec 3) (d n : Nat) (w : Word) (v : State), d = dom.toNat → n = sessionNum ses →
     w = BitVec.ofNat 32 (2 ^ 31 + 1 * 2 ^ 24 + d) → v = s.stores ses Reg.CTL_LOCK_CMD w →
     Accepted s ses Reg.CTL_LOCK_CMD w → (s.lock d).owner = none →
     (s.lock d = ⟨none, true, []⟩ → Writes (.acquire ses dom) s ses
        ((v.updLock d fun _ => ⟨some n, false, []⟩).updSession n
       fun x => { x with lockResult := 4, lockDom := d, lockIndex := 0 })) ∧
     (s.lock d = ⟨none, false, []⟩ → Writes (.acquire ses dom) s ses
        ((v.updLock d fun _ => ⟨some n, false, []⟩).updSession n
       fun x => { x with lockResult := 0, lockDom := d, lockIndex := 0 })))

/-- R13: where the image locks expert access to a unit, a session's write of an expert register of the unit is refused,
with `EXPERT_LOCK` (4) or the code of another condition that refuses it too; a write of the unit's basic mode word is
never refused for the lock. -/
def Obligations.ExpertLocks : Prop :=
  ∀ (s : State) (ses : Session) (off : Nat) (w : Word) (d : RegDesc), s.pwr.inReset = false → s.reaches ses = true →
    (∀ st, ses = .ring st → s.ringWrites = true) → off % 4 = 0 → off < 2 ^ 26 → regDesc off = some d →
    s.expertLocked off = true →
    (d.basic = false → ∃ c, c ∈ [2, 3, 4, 7, 9, 0xA] ∧
      (s.lockCode (sessionNum ses) off ≠ 7 → s.present off = true → off < unmappedFrom →
        (valuesOk d w && s.begin.valueOk off w && s.begin.valueFits off w) = true → s.rwlLocked off = false → c = 4) ∧
      Answers (.registerWrite ses false (BitVec.ofNat 26 off) w 0xF) s
        ((((s.begin.updSession (sessionNum ses) fun x => { x with result := c, addr := off, refused := true })).occ
          ⟨2, 302, c, sessionNum ses, off, w.toNat, false, 0⟩).portAnswer ses (some c))) ∧
    (d.basic = true → s.begin.judge .host off w ≠ 4)

/-- R450: a command of the maintenance port writes and reads the memory die, answers `UNMAPPED` beyond it, and may
answer `RETRY`, after which the data of the completed read are held; both ways to reset its session leave it as new.
R448, R513: an FLR, a loss of the link and `PERST_N` reset the PCIe session and stop dumps, and `PERST_N` takes the
endpoint down until it is released. The model's choices in it: log 61, 80, 81. -/
def Obligations.PortResets : Prop :=
  ∀ s : State, s.pwr.inReset = false →
    (s.reaches .maint = true →
      (∀ (a : BitVec 32) (w : Word), a.toNat + 4 ≤ 0x08000000 → Answers (.mntMemoryWrite a w) s
        ((s.begin.windowWrite a.toNat (leBytes 4 w.toNat)).emit (.result .maint 0))) ∧
      (∀ (a : BitVec 32) (w : Word), 0x08000000 < a.toNat + 4 →
        Answers (.mntMemoryWrite a w) s (s.begin.emit (.result .maint 0xA)) ∧
        Answers (.mntMemoryRead a) s ((s.begin.emit (.readData .maint 0)).emit (.result .maint 0xA))) ∧
      (∀ (a : BitVec 32) (w : Word) (t : Nat), a.toNat + 4 ≤ 0x08000000 →
        s.ctl.mntRead = some (a.toNat, some (w, t)) → s.upNs ≤ t + 1000000 → Answers (.mntMemoryRead a) s
        ((({ s.begin with ctl := { s.ctl with mntRead := none } }).emit (.readData .maint w)).emit (.result .maint 0))) ∧
      (∀ a : BitVec 32, a.toNat + 4 ≤ 0x08000000 → s.ctl.mntRead = some (a.toNat, none) → Answers (.mntMemoryRead a) s
        ((s.begin.emit (.readData .maint 0)).emit (.result .maint 0xE))) ∧
      Runs .mntSessionReset s (fun t => t.session 1 = freshSession ∧ (∀ d, (t.lock d).owner ≠ some 1 ∨ 8 ≤ d) ∧
        t.ctl.mntRead = none ∧ t.cfg = s.cfg ∧ Out.result .maint 0 ∈ t.out) ∧
      Runs .mntCsAbort s (fun t => t.session 1 = freshSession ∧ (∀ d, (t.lock d).owner ≠ some 1 ∨ 8 ≤ d) ∧
        t.ctl.mntRead = none ∧ t.cfg = s.cfg)) ∧
    (∀ a b bad, s.ctl.mntRead = some (a, none) → (s.begin.windowRead a 4).2 = (b, bad) → Runs (.mntReadComplete []) s
      fun t => t.ctl.mntRead = some (a, some (BitVec.ofNat 32 (leNat b), s.upNs)) ∧ t.cfg = s.cfg ∧ t.pwr = s.pwr) ∧
    (s.ctl.pcieUp = true → Runs .flr s fun t => t.session 0 = freshSession ∧ t.ctl.pcieUp = true ∧
      t.pmc.job = none ∧ flagOf (t.reg Reg.PMC_DUMP_CTRL) 31 = false ∧
      (∀ n, n < 256 → t.reg (Reg.MSIX_TABLE + 4 * n) = regReset (Reg.MSIX_TABLE + 4 * n)) ∧
      (∀ p, p < 32 → t.pageEn p = s.pageEn p ∧ (t.page p).run = none)) ∧
    Runs .pcieLinkDown s (fun t => t.session 0 = freshSession ∧ t.pmc.job = none ∧
      flagOf (t.reg Reg.PMC_DUMP_CTRL) 31 = false ∧ t.ctl.pcieUp = s.ctl.pcieUp ∧ t.tru = s.tru) ∧
    Runs .perstN s (fun t => t.ctl.pcieUp = false ∧ t.session 0 = freshSession ∧ t.pmc.job = none ∧
      flagOf (t.reg Reg.PMC_DUMP_CTRL) 31 = false) ∧
    Answers .perstNRelease s { s.begin with ctl := { s.ctl with pcieUp := true } }

/-- R451: a management request that reaches the station over the ring is forwarded with its hop count raised, counted,
and answered to its source in both directions: a read with the register's word, an accepted write with its result and
its word; a write that a lock or `WRITE_EN` refuses is answered with the code and no data, and changes no register. R457
to R459: a mismatch that has lasted its time is held and reported with the ordered and the actual state, once; a
`RESTART` of a unit is remembered until the next frame boundary. The model's choices in it: log 75, 82, 83. -/
def Obligations.ManagementAndUnits : Prop :=
  (∀ (s v : State) (src dest : BitVec 8) (tag : Byte) (off n : Nat) (d : RegDesc), s.pwr.inReset = false →
     s.reaches (.ring src) = true → (s.lane 14).state = 4 → dest.toNat = s.station → s.hsl.bypassOpen = true →
     1 ≤ s.station → s.station ≤ 254 → (s.lane 14).quarantine = false → n = sessionNum (.ring src) →
     off ∈ [Reg.RTE_LEN, Reg.MST_HOLDOVER, Reg.MST_SET_NS, Reg.EVT_CTRL] → regDesc off = some d →
     (v = s.begin.sendGroups 15 (ringBody ((ringMsg 2 src.toNat dest.toNat 1 (mgmtAnswer 1 tag 0 off 0)).map some)) →
       Answers (.ringMgmtRead src dest tag (BitVec.ofNat 32 off)) s
         (({ v with hsl := { v.hsl with msgRx := (s.hsl.msgRx + 1) % 65536 } }).ringOriginate
           (ringMsg 2 s.station src.toNat 0 (mgmtAnswer 0x81 tag 0 off (s.reg off &&& storedMask d))))) ∧
     (∀ w u, v = s.begin.sendGroups 15 (ringBody ((ringMsg 2 src.toNat dest.toNat 1 (mgmtAnswer 2 tag 0 off w)).map some)) →
       u = { v with hsl := { v.hsl with msgRx := (s.hsl.msgRx + 1) % 65536 } } →
       (Accepted s (.ring src) off w → Answers (.ringMgmtWrite src dest tag (BitVec.ofNat 32 off) w) s
         (((((u.updSession n fun x => { x with result := 0, addr := off }).storeReg off d w).markProfile off d)).ringOriginate
           (ringMsg 2 s.station src.toNat 0 (mgmtAnswer 0x82 tag 0 off w)))) ∧
       (∀ k m, s.ringWrites = true → s.domainOf (blockOf off) = some k → (s.lock k).owner = some m → m ≠ n →
         Answers (.ringMgmtWrite src dest tag (BitVec.ofNat 32 off) w) s
           (((u.updSession n fun x => { x with result := 7, addr := off, refused := true }).occ
             ⟨2, 302, 7, n, off, w.toNat, false, 0⟩).ringOriginate
             (ringMsg 2 s.station src.toNat 0 (mgmtAnswer 0x82 tag 7 off 0)))) ∧
       (s.ringWrites = false → Answers (.ringMgmtWrite src dest tag (BitVec.ofNat 32 off) w) s
         ((u.updSession n fun x => { x with result := 0xF, addr := off }).ringOriginate
           (ringMsg 2 s.station src.toNat 0 (mgmtAnswer 0x82 tag 0xF off 0)))))) ∧
  (∀ s : State,
     (∀ (u : BitVec 6), s.pwr.inReset = false →
       (s.mismatched u.toNat = true → u.toNat ∉ s.ctl.mismatch → Answers (.mismatchTimeout u) s
         (({ s.begin with ctl := { s.ctl with mismatch := s.ctl.mismatch ++ [u.toNat] } }).raise
           302 2 u.toNat (s.ordered u.toNat) (s.actual u.toNat))) ∧
       (s.mismatched u.toNat = false ∨ u.toNat ∈ s.ctl.mismatch → Answers (.mismatchTimeout u) s s.begin)) ∧
     (∀ (ses : Session) (w : Word) (v : State), w = s.withField Reg.CTL_STATE 31 31 1 →
       v = s.stores ses Reg.CTL_STATE w → Accepted s ses Reg.CTL_STATE w → Writes (.stateRestart ses) s ses
         { v with ctl := { v.ctl with restarts := v.ctl.restarts ++ [s.fld Reg.CTL_STATE_SEL 5 0] } }))


/-! ### Host lanes and the shelf ring (15_host_lanes.md) -/

/-- R385: what entering a state does to a fast port, and which command enters which state. A port with a termination, or
with signal on its lanes, leaves detect for training or for lock; a timer that expires, a lost signal and `RESTART` take
it back to state 1 with their cause; an Ethernet port follows its PCS. A write of a port's control register gives a port
that does not train the taps of `PRESET` (R381), and `RESTART` acts in every state. A port that begins to train sends a
training frame on each lane (R380). The model's choices in it: log 2, 45, 48. -/
def Obligations.FastPorts : Prop :=
  (∀ (u : State) (r : HostPort) (st cause : Nat), r.first < 32 → u.rte.active = true →
    ((u.portEnter r st cause).port r.num).state = st ∧
    (∀ f, f ≠ r.num → (u.portEnter r st cause).port f = u.port f) ∧
    (∀ l, l ∉ r.lanes → (u.portEnter r st cause).fastLane l = u.fastLane l) ∧
    (st ≤ 1 → ∀ l ∈ r.lanes, ((u.portEnter r st cause).fastLane l).locked = false ∧
      ((u.portEnter r st cause).fastLane l).ready = false) ∧
    (st = 2 → ∀ l ∈ r.lanes, ((u.portEnter r st cause).fastLane l).taps =
      presetTaps (u.fldI Reg.HSF_PORT_CTRL r.num 6 4) ∧
      ∃ f levels, Out.fast l f levels ∈ (u.portEnter r st cause).out ∧ f.take 4 = [0xF0, 0x0F, 0x33, 0xCC]) ∧
    (u.portEnter r st cause).batch = u.batch ++ [⟨0, 96 + 2 * r.first, 0, r.num, st, cause, false, 0⟩] ∧
    ((u.portRestart r cause).port r.num).state = 1 ∧ ((u.portRestart r cause).port r.num).cause = cause ∧
    ((u.portRestart r cause).port r.num).restarts = ((u.port r.num).restarts + 1) % 65536) ∧
  (∀ (s : State) (ses : Session) (r : HostPort) (n : Nat) (w : Word) (v : State), n = s.fld Reg.HSF_PORT_SEL 4 0 →
    s.portRec n = some r → v = s.stores ses Reg.HSF_PORT_CTRL w → Accepted s ses Reg.HSF_PORT_CTRL w →
    (w = s.withField Reg.HSF_PORT_CTRL 0 0 1 → flagOf (s.regI Reg.HSF_PORT_CTRL n) 0 = false → (s.port n).state = 0 →
      s.pwr.hostRef = true → Writes (.en ses true) s ses (v.portEnter r 1 0)) ∧
    (w = s.withField Reg.HSF_PORT_CTRL 0 0 0 → flagOf (s.regI Reg.HSF_PORT_CTRL n) 0 = true → (s.port n).state ≠ 0 →
      Writes (.en ses false) s ses ((v.presetTaken n).portEnter r 0 0)) ∧
    (w = s.withField Reg.HSF_PORT_CTRL 31 31 1 → Writes (.restart ses) s ses ((v.presetTaken n).portRestart r 6))) ∧
  (∀ (s : State) (r : HostPort) (port : BitVec 5), s.pwr.inReset = false → s.portRec port.toNat = some r →
    ((s.port r.num).state = 1 → s.pwr.hostRef = true →
      Answers (.terminationProbe port true) s
        (s.begin.portEnter r (if s.fldI Reg.HSF_PORT_CTRL r.num 9 8 = 1 then 2 else 3) 0) ∧
      Runs (.signalDetected port) s fun t =>
        (t.port r.num).state = (if s.fldI Reg.HSF_PORT_CTRL r.num 9 8 = 1 then 2 else 3) ∧
        (∀ l ∈ r.lanes, (t.fastLane l).signal = true)) ∧
    Answers (.terminationProbe port false) s s.begin ∧
    ((s.port r.num).state ≠ 1 ∨ s.pwr.hostRef = false → Answers (.terminationProbe port true) s s.begin) ∧
    ((s.port r.num).state < 2 ∨ (s.port r.num).state = 5 → Answers (.portStateTimeout port) s s.begin) ∧
    ((s.port r.num).state = 2 → Answers (.portStateTimeout port) s (s.begin.portRestart r 1)) ∧
    ((s.port r.num).state = 3 → Answers (.portStateTimeout port) s (s.begin.portRestart r
      (if (s.port r.num).skewed = true ∨ (s.port r.num).bySkew = true then 7 else 2))) ∧
    ((s.port r.num).state = 4 → Answers (.portStateTimeout port) s (s.begin.portRestart r 3)) ∧
    (r.coding = 0 → (s.port r.num).state = 3 → Runs (.ethernetPortAligned port) s fun t =>
      (t.port r.num).state = 5 ∧ (t.port r.num).aligned = true ∧ (∀ l ∈ r.lanes, (t.fastLane l).locked = true)) ∧
    (r.coding = 0 → (s.port r.num).state = 5 → Runs (.ethernetAlignmentLost port) s fun t =>
      (t.port r.num).state = 3 ∧ (t.port r.num).aligned = false ∧ (∀ l ∈ r.lanes, (t.fastLane l).locked = false)) ∧
    (r.coding ≠ 0 ∨ (s.port r.num).state ≠ 3 → Answers (.ethernetPortAligned port) s s.begin) ∧
    (r.coding ≠ 0 ∨ (s.port r.num).state ≠ 5 → Answers (.ethernetAlignmentLost port) s s.begin)) ∧
  (∀ (s : State) (port : BitVec 5) (sensed : Bool), s.pwr.inReset = false → s.portRec port.toNat = none →
    Answers (.terminationProbe port sensed) s s.begin ∧ Answers (.signalDetected port) s s.begin ∧
    Answers (.portStateTimeout port) s s.begin ∧ Answers (.ethernetPortAligned port) s s.begin ∧
    Answers (.ethernetAlignmentLost port) s s.begin ∧ Answers (.carriageFrameSet port) s s.begin ∧
    ∀ frames, Answers (.carriageFrame port frames) s s.begin) ∧
  (∀ (s : State) (r : HostPort) (lane : BitVec 5), s.pwr.inReset = false → s.rte.active = true →
    s.rte.cfg.portOfLane lane.toNat = some r →
    (2 ≤ (s.port r.num).state → Answers (.signalLost lane) s
      ((s.begin.updFastLane lane.toNat fun x => { x with signal := false }).portRestart r 4)) ∧
    ((s.port r.num).state < 2 → Answers (.signalLost lane) s
      (s.begin.updFastLane lane.toNat fun x => { x with signal := false })))

/-- R372, R375, R376, R380 to R384, R388: a port in training answers a tap request that lies in the ranges by moving its
taps, and any other with `limit`, in the training frame that it sends; a frame with a bad CRC is answered by the next
frame alone. A port in states 3 and 4 sends frame sets with its capability record, and one in state 5 the bytes of its
egress buffer with the stuff code of its fill, or AIS frames while it draws nothing. Received frames align its lanes: a
port whose lanes are all locked and within 4 frames leaves state 3, and returns to it when one of both ends. Adaptation
stays inside its rails, and a quarantine ends after its second. The model's choices in it: log 45, 46, 47, 116, 129,
142. -/
def Obligations.LaneTraining : Prop :=
  (∀ (s : State) (r : HostPort) (lane : BitVec 5) (l : Nat) (request status crc : BitVec 16)
    (want : Option (BitVec 7)) (early : Bool),
    s.pwr.inReset = false → s.rte.active = true → l = lane.toNat → s.rte.cfg.portOfLane l = some r →
    (s.port r.num).state = 2 → crc16 (beBytes 2 request.toNat ++ beBytes 2 status.toNat) = crc.toNat →
    (s.fastLane l).lastReq ≠ some request.toNat →
    ((s.fastLane l).lastReq ≠ none → (s.fastLane l).toggle ≠ request.getLsbD 15) → requestBad request.toNat = false →
    (s.fastLane l).quarantine = false →
    Runs (.trainingFrame lane request status crc want early) s fun t =>
      (t.fastLane l).taps = (if tapsOk (requestTaps request.toNat (s.fastLane l).taps) then
        requestTaps request.toNat (s.fastLane l).taps else (s.fastLane l).taps) ∧
      (t.fastLane l).limit = !tapsOk (requestTaps request.toNat (s.fastLane l).taps) ∧
      (t.fastLane l).toggle = request.getLsbD 15 ∧
      (t.fastLane l).ownReq =
        (s.fastLane l).nextReq (status.getLsbD 15 == decide (32768 ≤ (s.fastLane l).ownReq)) want ∧
      (∃ b f levels, b = beBytes 2 (t.fastLane l).ownReq ++ beBytes 2 (b2n (request.getLsbD 15) * 32768 +
          b2n want.isNone * 16384 + b2n (t.fastLane l).limit * 4096) ∧
        f = [0xF0, 0x0F, 0x33, 0xCC] ++ b ++ beBytes 2 (crc16 b) ++ beBytes 670 (prbs13 5360 (s.fastLane l).prbs).2 ∧
        levels = laneLevels (r.modul == 0) (flagOf (s.regI Reg.HSF_LANE_CTRL l) 0) f ∧ Out.fast l f levels ∈ t.out) ∧
      ((t.port r.num).state = 3 ↔ ∀ k ∈ r.lanes, 8 ≤ (t.fastLane k).readyRun)) ∧
  (∀ (s : State) (r : HostPort) (lane : BitVec 5) (l : Nat) (request status crc : BitVec 16)
    (want : Option (BitVec 7)) (early : Bool),
    s.pwr.inReset = false → l = lane.toNat → s.rte.cfg.portOfLane l = some r →
    (s.rte.active = false ∨ (s.port r.num).state ≠ 2 → Answers (.trainingFrame lane request status crc want early) s
      s.begin) ∧
    (s.rte.active = true → (s.port r.num).state = 2 →
      (crc16 (beBytes 2 request.toNat ++ beBytes 2 status.toNat) ≠ crc.toNat →
        Answers (.trainingFrame lane request status crc want early) s (s.begin.sendTraining r l)) ∧
      (crc16 (beBytes 2 request.toNat ++ beBytes 2 status.toNat) = crc.toNat → (s.fastLane l).lastReq = none →
        requestBad request.toNat = true → Runs (.trainingFrame lane request status crc want early) s fun t =>
          (t.fastLane l).taps = (s.fastLane l).taps ∧ (t.fastLane l).limit = true ∧ (t.fastLane l).lastViol = 1 ∧
          (t.fastLane l).viol = ((s.fastLane l).viol + 1) % 65536))) ∧
  (∀ (s : State) (r : HostPort) (port : BitVec 5), s.pwr.inReset = false → s.portRec port.toNat = some r →
    r.coding = 1 →
    (s.pwr.hostRef = true → (s.port r.num).state = 3 ∨ (s.port r.num).state = 4 → Answers (.carriageFrameSet port) s
      ((List.range r.width).foldl (fun u i => u.sendFast r (r.first + i)
          (carriageBits (carriageMessage i 0 false true (s.port r.num).txCount (s.capRecord r))))
        (s.begin.updPort r.num fun x => { x with txCount := ((s.port r.num).txCount + 1) % 256 }))) ∧
    (s.pwr.hostRef = false ∨ (s.port r.num).state < 3 ∨ 5 < (s.port r.num).state →
      Answers (.carriageFrameSet port) s s.begin) ∧
    (∀ eg, s.pwr.hostRef = true → (s.port r.num).state = 5 →
      eg = (s.port r.num).egress ++ (s.port r.num).arrive.take (r.width * 1276) →
      ((s.port r.num).egressAis = true ∨ (s.port r.num).egressRun = false ∧ eg.length < r.egressMid →
        Answers (.carriageFrameSet port) s
          ((List.range r.width).foldl (fun u i => u.sendFast r (r.first + i)
              (carriageBits (carriageMessage i 0 true false (s.port r.num).txCount [])))
            ((s.begin.carriageArrive r).updPort r.num fun x =>
              { x with txCount := ((s.port r.num).txCount + 1) % 256 }))) ∧
      ∀ code n, (s.port r.num).egressAis = false →
        (s.port r.num).egressRun = true ∨ r.egressMid ≤ eg.length → code = stuffCode r.width eg.length →
        n = streamBytes code → r.width * n ≤ eg.length → Runs (.carriageFrameSet port) s fun t =>
          (t.port r.num).egress = eg.drop (r.width * n) ∧ (t.port r.num).egressRun = true ∧
          (t.port r.num).arrive = (s.port r.num).arrive.drop (r.width * 1276) ∧
          (t.port r.num).stuffNeg = (if code = 1 then ((s.port r.num).stuffNeg + 1) % 65536
            else (s.port r.num).stuffNeg) ∧
          (t.port r.num).stuffPos = (if code = 2 then ((s.port r.num).stuffPos + 1) % 65536
            else (s.port r.num).stuffPos) ∧
          (t.port r.num).txCount = ((s.port r.num).txCount + 1) % 256 ∧
          (∀ i f, i < r.width → f = carriageBits (carriageMessage i code false false (s.port r.num).txCount
              (bytesAt eg (i * n) n)) →
            Out.fast (r.first + i) f (laneLevels (r.modul == 0) (flagOf (s.regI Reg.HSF_LANE_CTRL (r.first + i)) 0) f)
              ∈ t.out)) ∧
    (∀ frames : List Bytes, frames.length = r.width → 3 ≤ (s.port r.num).state → (s.port r.num).state ≤ 5 →
      Runs (.carriageFrame port frames) s fun t =>
        (∀ l f x, (l, f) ∈ r.lanes.zip frames →
          x = (s.fastLane l).carriage (carriageRx (flagOf (s.regI Reg.HSF_LANE_CTRL l) 1) f) →
          (t.fastLane l).locked = x.locked ∧ (t.fastLane l).rxCount = x.rxCount) ∧
        ((∃ l ∈ r.lanes, (t.fastLane l).locked = false) → (t.port r.num).state = 3) ∧
        ((∀ l ∈ r.lanes, (t.fastLane l).locked = true) →
          ((∃ l ∈ r.lanes, ∃ k ∈ r.lanes, 4 < countGap (t.fastLane l).rxCount (t.fastLane k).rxCount) →
            (t.port r.num).state = 3) ∧
          ((∀ l ∈ r.lanes, ∀ k ∈ r.lanes, countGap (t.fastLane l).rxCount (t.fastLane k).rxCount ≤ 4) →
            ((t.port r.num).state = 4 ∨ (t.port r.num).state = 5) ∧
            ((s.port r.num).state = 3 → (s.port r.num).ownSeen = false → (∀ l ∈ r.lanes, (s.fastLane l).rxWait = []) →
              (t.port r.num).state = 4) ∧
            ((s.port r.num).state = 5 → (t.port r.num).state = 5)))) ∧
    (∀ frames : List Bytes, (s.port r.num).state < 3 → Answers (.carriageFrame port frames) s s.begin)) ∧
  (∀ (s : State) (lane : BitVec 6), s.pwr.inReset = false →
    (lane.toNat < 32 → (s.fastLane lane.toNat).quarantine = true → Answers (.laneQuarantineEnd lane) s
      ((s.begin.updFastLane lane.toNat fun x => { x with quarantine := false }).raise
        (97 + 2 * lane.toNat) 0x10 lane.toNat (cleared 0) 0)) ∧
    (∀ l, lane.toNat = 32 + l → (s.lane l).quarantine = true → Answers (.laneQuarantineEnd lane) s
      ((s.begin.updLane l fun x => { x with quarantine := false }).raise
        (161 + 2 * l) 0x10 l (cleared 0) 0)) ∧
    (lane.toNat < 32 ∧ (s.fastLane lane.toNat).quarantine = false ∨
      32 ≤ lane.toNat ∧ (s.lane (lane.toNat - 32)).quarantine = false → Answers (.laneQuarantineEnd lane) s s.begin) ∧
    (∀ (want : Int) (id : Nat), id = laneLoopId lane.toNat →
      (∃ r, lane.toNat < 32 ∧ s.rte.active = true ∧ s.rte.cfg.portOfLane lane.toNat = some r ∧
        2 ≤ (s.port r.num).state) ∨ (∃ l, l < 16 ∧ lane.toNat = 32 + l ∧ 2 ≤ (s.lane l).state) →
      ((s.rail id).freeze = true → Answers (.laneAdaptationUpdate lane want) s s.begin) ∧
      ((s.rail id).freeze = false → Runs (.laneAdaptationUpdate lane want) s fun t =>
        (t.rail id).out = (s.rail id).bound (s.rail id).out want ∧
        (t.rail id).clamped = decide ((s.rail id).bound (s.rail id).out want ≠ want) ∧
        (∀ i, i ≠ id → t.rail i = s.rail i) ∧ t.hsf = s.hsf ∧ t.hsl = s.hsl)) ∧
    (∀ want : Int, (∀ r, s.rte.cfg.portOfLane lane.toNat = some r → (s.port r.num).state < 2) →
      (32 ≤ lane.toNat → (s.lane (lane.toNat - 32)).state < 2) → Answers (.laneAdaptationUpdate lane want) s s.begin))

/-- R379, R387: a legacy lane goes through its states 1 to 4 as their conditions are met and starts again at state 1
when they are not, or with `RESTART`; each change is reported. R377: received code groups decode to those sent. R242,
R243: in state 4 a tributary frame enters its slip buffer, which drops the oldest of four, and the transmitter reads the
next one or repeats the last; code groups out of place are violations, and the fourth frame in a row of another length
ends the lock. R393, R394, R507: a ring lane that leaves state 4, and the other causes, close the bypass, which opens at
the insertion instant while `VDD_RING` holds it. The model's choices in it: log 2, 48, 49, 116, 130. -/
def Obligations.LegacyLanes : Prop :=
  (∀ (u : State) (l st : Nat), l < 16 → u.rte.active = true → u.ringLane l = false →
    (u.laneEnter l st).lane l = { u.lane l with state := st, badLen := 0, cvAgo := [] } ∧ (u.laneEnter l st).hsl.bypassOpen = u.hsl.bypassOpen ∧
    (∀ k, k ≠ l → (u.laneEnter l st).lane k = u.lane k) ∧
    (u.laneEnter l st).batch = u.batch ++ [⟨0, 160 + 2 * l, 0, l, st, 0, false, 0⟩]) ∧
  (∀ (s : State) (ses : Session) (n : Nat) (w : Word) (v : State), n = s.fld Reg.HSL_LANE_SEL 3 0 →
    s.laneUsed n = true → v = s.stores ses Reg.HSL_LANE_CTRL w → Accepted s ses Reg.HSL_LANE_CTRL w →
    (w = s.withField Reg.HSL_LANE_CTRL 0 0 1 → flagOf (s.regI Reg.HSL_LANE_CTRL n) 0 = false → (s.lane n).state = 0 →
      s.pwr.hostRef = true → Writes (.laneEn ses true) s ses (v.laneEnter n 1)) ∧
    (w = s.withField Reg.HSL_LANE_CTRL 0 0 0 → flagOf (s.regI Reg.HSL_LANE_CTRL n) 0 = true → (s.lane n).state ≠ 0 →
      Writes (.laneEn ses false) s ses (v.laneEnter n 0)) ∧
    (w = s.withField Reg.HSL_LANE_CTRL 31 31 1 → Writes (.laneRestart ses) s ses (v.laneEnter n 1))) ∧
  (∀ (rd : Bool) (gs : List Group), (∀ b, Group.k b ∈ gs → b ∈ specials) →
    readGroups rd ((codeGroups rd gs).1.map (BitVec.ofNat 10)) = (gs.map some, (codeGroups rd gs).2)) ∧
  (∀ (s : State) (lane : BitVec 4) (l : Nat), s.pwr.inReset = false → l = lane.toNat →
    (s.laneUsed l = true → s.pwr.hostRef = true → 1 ≤ (s.lane l).state → (s.lane l).state ≤ 3 →
      Answers (.laneStateAdvance lane) s (s.begin.laneEnter l ((s.lane l).state + 1))) ∧
    (s.laneUsed l = true → 1 ≤ (s.lane l).state → (s.lane l).state ≤ 3 →
      Answers (.laneStateTimeout lane) s (s.begin.laneEnter l 1)) ∧
    ((s.lane l).state = 4 → Answers (.laneLockLost lane) s (s.begin.laneEnter l 1)) ∧
    (s.laneUsed l = false ∨ (s.lane l).state = 0 ∨ 3 < (s.lane l).state →
      Answers (.laneStateAdvance lane) s s.begin ∧ Answers (.laneStateTimeout lane) s s.begin) ∧
    ((s.lane l).state ≠ 4 → Answers (.laneLockLost lane) s s.begin ∧
      ∀ frame before, Answers (.fleamFrame lane frame before) s s.begin) ∧
    (∀ frame before gap got u bytes bad k, (s.lane l).state = 4 → s.ringLane l = false → s.rte.active = true →
      gap = (s.begin.laneRead l before).2 → (u, got) = (s.begin.laneRead l before).1.laneRead l frame →
      (bytes, bad) = fleamRead got → k = outsideBad gap + bad →
      (k = 0 → bytes.length = 128 * s.laneRate l → (s.fleam l).inWait.length < 3 →
        Answers (.fleamFrame lane frame before) s ((u.updFleam l fun x => { x with
          inWait := x.inWait ++ [bytes], inPrimed := x.inPrimed || decide (1 ≤ x.inWait.length) }).updLane l fun x =>
            { x with badLen := 0 })) ∧
      (k = 0 → bytes.length = 128 * s.laneRate l → (s.fleam l).inWait.length = 3 →
        Answers (.fleamFrame lane frame before) s (((u.updFleam l fun x => { x with
          inWait := x.inWait.drop 1 ++ [bytes], inDrop := (x.inDrop + 1) % 256 }).raiseItem 196 0 l 0 0).updLane l fun x =>
            { x with badLen := 0 })) ∧
      Runs (.fleamFrame lane frame before) s fun t =>
        (0 < k → (t.lane l).cv = ((s.lane l).cv + k) % 65536 ∧ (t.lane l).viol = ((s.lane l).viol + k) % 65536 ∧
          (t.lane l).lastViol = 5) ∧
        (0 < bad ∨ bytes.length ≠ 128 * s.laneRate l →
          (t.fleam l).inWait = (s.fleam l).inWait ∧ (t.fleam l).bad = ((s.fleam l).bad + 1) % 65536) ∧
        (bytes.length ≠ 128 * s.laneRate l →
          ((s.lane l).badLen < 3 → (t.lane l).badLen = (s.lane l).badLen + 1 ∧ (t.lane l).state = 4) ∧
          (3 ≤ (s.lane l).badLen → (t.lane l).badLen = 0 ∧ (t.lane l).state = 1)) ∧
        (bytes.length = 128 * s.laneRate l → (t.lane l).badLen = 0 ∧ (t.lane l).state = 4)) ∧
    (∀ b rest, (s.lane l).state = 4 → (s.fleam l).outPrimed = true → (s.fleam l).outWait = b :: rest →
      Answers (.fleamEgressRead lane) s
        ((s.begin.updFleam l fun x => { x with outWait := rest, outLast := some b }).sendGroups l (fleamGroups b))) ∧
    (∀ b, (s.lane l).state = 4 → (s.fleam l).outPrimed = true → (s.fleam l).outWait = [] →
      (s.fleam l).outLast = some b → Answers (.fleamEgressRead lane) s
        (((s.begin.updFleam l fun x => { x with outRepeat := (x.outRepeat + 1) % 256 }).raiseItem 196 1 l 0 0).sendGroups
          l (fleamGroups b)))) ∧
  (∀ s : State, s.pwr.inReset = false → s.rte.active = true →
    (s.ringLane 14 = true → (s.lane 14).state = 4 → s.hsl.bypassOpen = true → Runs (.laneLockLost 14) s fun t =>
      (t.lane 14).state = 1 ∧ t.hsl.bypassOpen = false ∧ t.hsl.closeCause = 1 ∧
      (∀ d n, (t.lock d).owner = some n → n < 256 ∨ 8 ≤ d)) ∧
    (∀ cause : BitVec 4, s.ringOn = true → s.hsl.bypassOpen = true → 1 ≤ cause.toNat → cause.toNat ≤ 4 →
      Answers (.bypassClose cause) s ((({ s.begin with
        hsl := { s.hsl with bypassOpen := false, timeDue := false, closeCause := cause.toNat } }).raise
          188 2 14 cause.toNat 0).raise 190 2 15 cause.toNat 0)) ∧
    (∀ cause : BitVec 4, s.ringOn = false ∨ s.hsl.bypassOpen = false ∨ cause.toNat = 0 ∨ 4 < cause.toNat →
      Answers (.bypassClose cause) s s.begin) ∧
    (s.hsl.bypassOpen = true → Answers .vddRingFall s ((({ s.begin with
      hsl := { s.hsl with bypassOpen := false, timeDue := false, vddRing := false } }).raise 188 2 14 0 0).raise
        190 2 15 0 0)) ∧
    (s.hsl.bypassOpen = false → Answers .vddRingFall s { s.begin with hsl := { s.hsl with vddRing := false } }) ∧
    (s.mayInsert = true → s.hsl.bypassOpen = false → Answers .bypassOpen s ((({ s.begin with
      hsl := { s.hsl with bypassOpen := true, insertions := (s.hsl.insertions + 1) % 256 } }).raise
        188 1 14 0 0).raise 190 1 15 0 0)) ∧
    (s.mayInsert = false ∨ s.hsl.bypassOpen = true → Answers .bypassOpen s s.begin) ∧
    (s.hsl.vddRing = false → s.mayInsert = false))

/-- R389 to R392: a message of another station passes with its hop count one higher; the station's own one, one of 255
hops and, at a master, one of type 0x01 leave /RI/ in their place; a damaged one passes and is counted. Then a time
message from the time lane is taken, and a management message is acted on, counted or ignored as R451 says. Invalid code
groups pass as /V/ and are counted, and `CV_THR` of them within 1,024 end the lock of the lane (R379). A station
forwards a second marker; a master sends its time message, and a station whose source is the ring takes the marker from
its time lane. The model's choices in it: log 50, 82, 131. -/
def Obligations.RingMessages : Prop :=
  (∀ (s : State) (lane15 : Bool) (l : Nat) (msg : List (BitVec 10)) (m : Bytes) (since hop : Nat) (x : State × List (Option
    Group)) (v w : State), s.pwr.inReset = false → s.ringOn = true → l = ringRx lane15 → (s.lane l).state = 4 →
    x = (s.begin.laneRead l []).1.laneRead l msg → x.2.map dataByte = m.map some →
    v = (x.1.ringWindow l (msg.length + 2) []).1 → hop = beAt m 3 1 →
    w = v.ringSend (ringTx lane15) (ringBody ((patchBytes m 3 (beBytes 1 (hop + 1))).map some)) →
    (v.lane l).cvAgo = ((s.lane l).cvAgo.map (· + (msg.length + 2))).filter (· < 1024) ∧
    (∀ k, k ≠ l → v.lane k = s.lane k) ∧
    (ringOk m = false → Answers (.ringMessage lane15 msg [] since) s
      ((v.ringSend (ringTx lane15) (ringBody (m.map some))).ringMsgBad l)) ∧
    (ringOk m = true → beAt m 1 1 = s.station → Answers (.ringMessage lane15 msg [] since) s
      (v.ringSend (ringTx lane15) (ringIdles ((m.length + 3) / 2)))) ∧
    (ringOk m = true → beAt m 1 1 ≠ s.station → s.timeMaster = true → beAt m 0 1 = 1 →
      Answers (.ringMessage lane15 msg [] since) s
        ((v.ringSend (ringTx lane15) (ringIdles ((m.length + 3) / 2))).ringMsgBad l)) ∧
    (ringOk m = true → beAt m 1 1 ≠ s.station → ¬ (s.timeMaster = true ∧ beAt m 0 1 = 1) →
      (hop = 255 → Answers (.ringMessage lane15 msg [] since) s
        (v.ringSend (ringTx lane15) (ringIdles ((m.length + 3) / 2)))) ∧
      (hop ≠ 255 → (s.lane l).quarantine = true ∨ beAt m 0 1 ≠ 1 ∧ beAt m 0 1 ≠ 2 →
        Answers (.ringMessage lane15 msg [] since) s w) ∧
      (hop ≠ 255 → (s.lane l).quarantine = false → beAt m 0 1 = 1 → Answers (.ringMessage lane15 msg [] since) s
        (if s.timeSrc = 2 ∧ lane15 = s.timeLane then
          ({ w with hsl := { w.hsl with msgRx := (w.hsl.msgRx + 1) % 65536 } }).timeMessage (bytesAt m 6 (beAt m 4 2)) since
          else w)) ∧
      (hop ≠ 255 → (s.lane l).quarantine = false → beAt m 0 1 = 2 →
        (flagOf (s.reg Reg.CTL_RING_MGMT) 0 = false ∨ beAt m 2 1 ≠ 255 ∧ beAt m 2 1 ≠ s.station →
          Answers (.ringMessage lane15 msg [] since) s w) ∧
        (flagOf (s.reg Reg.CTL_RING_MGMT) 0 = true →
          (beAt m 2 1 = 255 → Answers (.ringMessage lane15 msg [] since) s (w.ringMsgBad l)) ∧
          (beAt m 2 1 ≠ 255 → beAt m 2 1 = s.station →
            (beAt m 4 2 ≠ 12 ∨ beAt m 6 1 ∉ [1, 2, 0x81, 0x82] →
              Answers (.ringMessage lane15 msg [] since) s (w.ringMsgBad l)) ∧
            (beAt m 4 2 = 12 → beAt m 6 1 = 0x81 ∨ beAt m 6 1 = 0x82 →
              Answers (.ringMessage lane15 msg [] since) s w) ∧
            (beAt m 4 2 = 12 → beAt m 6 1 = 1 ∨ beAt m 6 1 = 2 → Answers (.ringMessage lane15 msg [] since) s
              (({ w with hsl := { w.hsl with msgRx := (w.hsl.msgRx + 1) % 65536 } }).mgmtAct
                (BitVec.ofNat 8 (beAt m 1 1)) (beAt m 6 1 == 2) (m.getD 7 0) (BitVec.ofNat 32 (beAt m 10 4))
                (BitVec.ofNat 32 (beAt m 14 4))))))))) ∧
  (∀ (s : State) (lane15 : Bool) (l : Nat) (msg before : List (BitVec 10)) (since k thr : Nat) (gap : List (Option Group))
    (bytes : List (Option Byte)), s.pwr.inReset = false → s.ringOn = true → l = ringRx lane15 → (s.lane l).state = 4 →
    gap = (s.begin.laneRead l before).2 →
    bytes = ((s.begin.laneRead l before).1.laneRead l msg).2.map dataByte → none ∈ bytes → (s.lane l).cvAgo = [] →
    k = (ringBetween gap).2 + bytes.count none → thr = s.fldI Reg.HSL_LANE_CTRL l 15 8 →
    (k < thr → Runs (.ringMessage lane15 msg before since) s fun t =>
      (t.lane l).state = 4 ∧ (t.lane l).cv = ((s.lane l).cv + k) % 65536 ∧ (t.lane l).lastViol = 5 ∧
      t.hsl.msgBad = min 255 (s.hsl.msgBad + 1) ∧ t.hsl.msgRx = s.hsl.msgRx ∧
      (s.hsl.bypassOpen = true →
        (before ≠ [] → ∃ codes, Out.lane (ringTx lane15) (ringBetween gap).1 codes ∈ t.out) ∧
        ∃ codes, Out.lane (ringTx lane15) (ringBody bytes) codes ∈ t.out)) ∧
    (thr ≤ k → before.length + msg.length ≤ 1022 → Runs (.ringMessage lane15 msg before since) s fun t =>
      (t.lane l).state = 1 ∧ (t.lane l).cv = ((s.lane l).cv + k) % 65536 ∧ (t.lane l).cvAgo = [] ∧
      t.hsl.bypassOpen = false ∧ t.hsl.msgBad = s.hsl.msgBad)) ∧
  (∀ (s : State) (lane15 : Bool) (since : Nat), s.pwr.inReset = false →
    (s.ringOn = false → Answers (.ringSecondMarker lane15 since) s s.begin) ∧
    (∀ msg before, s.ringOn = false ∨ (s.lane (ringRx lane15)).state ≠ 4 →
      Answers (.ringMessage lane15 msg before since) s s.begin) ∧
    (∀ f, s.ringOn = true → f = (if s.timeMaster then s.begin else s.begin.ringSend (ringTx lane15) ringMark) →
      (s.timeSrc ≠ 2 ∨ lane15 ≠ s.timeLane → Answers (.ringSecondMarker lane15 since) s f) ∧
      (s.timeSrc = 2 → lane15 = s.timeLane → Answers (.ringSecondMarker lane15 since) s
        (f.marker since (s.fld Reg.MST_RING_DELAY 19 0))) ∧
      (s.timeSrc = 2 → lane15 = s.timeLane → s.mst.msgTime = none →
        Runs (.ringSecondMarker lane15 since) s fun t =>
          t.mst.markerSeen = true ∧ t.mst.markAt = s.moment (s.mst.markAt + since) ∧ t.mst.qualified = 0 ∧
          t.mst.badSecs = (if s.mst.markerSeen then s.mst.badSecs + 1 else 0) ∧ t.mst.time = s.mst.time))) ∧
  (∀ s : State, s.pwr.inReset = false →
    (∀ m, s.ringOn = true → s.timeMaster = true → s.hsl.bypassOpen = true → s.hsl.timeDue = true →
      m = ringGroups ((ringMsg 1 s.station 0xFF 0 s.timePayload).map some) → Answers .ringTimeSend s
        ((({ s.begin with hsl := { s.hsl with timeDue := false } }).sendGroups 14 m).sendGroups 15 m)) ∧
    (s.ringOn = false ∨ s.timeMaster = false ∨ s.hsl.bypassOpen = false ∨ s.hsl.timeDue = false →
      Answers .ringTimeSend s s.begin))

/-! ### Line framer and containers (09_line_frame.md, 10_containers.md) -/

/-- R197, R200, R202 to R205: a received frame whose alignment word has at most 3 bits in error, after another such
frame, brings the framer in frame, the fifth bad word in a row takes it out, and consecutive readable counters bring
superframe alignment. An equalised frame that waits is decoded in the place of the one that the command carries. In
superframe, a readable tag block gives a staged next copy force, tells a mismatch, and is a violation where no
announcement has told it (R79, R81, R216); announcements are kept and withdrawn (R77); reserved bits are violations
(R216); a chunk of a general channel extends its message, delivers it or ends it (R214); a justification word gives the
container its state and stuff bytes, CAIS and container AIS (R227, R247, R248); and a segment is checked against its tag
(R258, R262). A frame counter field reads as the counter that it was built from. A defect timer sets or clears its raw
state, and of the raw states the highest is reported. The model's choices in it: log 2, 6, 86, 124. -/
def Obligations.FrameAlignment : Prop :=
  (∀ (ov : Bytes) (fc : Nat), fc < 2 ^ 48 → bytesAt ov 16 8 = counterField fc → readCounter ov = some fc) ∧
  (∀ (s : State) (p : Path) (f : RxFrame) (ov : Bytes) (l : LfrState), s.pwr.inReset = false → s.pathUp p = true →
    s.locked p = true → (s.path p).rxd.chain.eqd = [] → ov = padTo 3200 f.overhead → l = s.lfr p →
    Runs (.rxFrame p f) s fun t =>
      (l.inFrame = false → l.cand = true → alignErrors ov ≤ 3 → (t.lfr p).inFrame = true) ∧
      (l.inFrame = false → l.cand = false ∨ 3 < alignErrors ov → (t.lfr p).inFrame = false ∧
        (t.lfr p).cand = decide (alignErrors ov ≤ 3)) ∧
      (l.inFrame = true → (t.lfr p).inFrame = (decide (alignErrors ov ≤ 3) || decide (l.badWords < 4))) ∧
      (l.inFrame = true → alignErrors ov ≤ 3 → f.uncorr = [] →
        (∀ c, l.inSf = false → readCounter ov = some c → l.lastCtr = some ((c + 2 ^ 48 - 1) % 2 ^ 48) →
          (t.lfr p).inSf = true ∧ (t.lfr p).expected = c) ∧
        (∀ c, l.inSf = true → readCounter ov = some c → c = (l.expected + 1) % 2 ^ 48 →
          (t.lfr p).inSf = true ∧ (t.lfr p).expected = c ∧ (t.lfr p).badCtrs = 0) ∧
        (∀ c, l.inSf = true → readCounter ov = some c → c ≠ (l.expected + 1) % 2 ^ 48 →
          (t.lfr p).inSf = decide (l.badCtrs < 4))) ∧
      t.lfr (otherPath p) = s.lfr (otherPath p) ∧ t.txFc = s.txFc) ∧
  (∀ (s : State) (p : Path) (f : RxFrame), s.pwr.inReset = false → s.pathUp p = false ∨ s.locked p = false →
    Answers (.rxFrame p f) s s.begin) ∧
  (∀ (s : State) (p : Path) (f : RxFrame) (ov : Bytes) (l : LfrState) (fc : Nat), s.pwr.inReset = false →
    s.pathUp p = true → s.locked p = true → (s.path p).rxd.chain.eqd = [] → ov = padTo 3200 f.overhead → l = s.lfr p →
    l.inFrame = true → alignErrors ov ≤ 3 → f.uncorr = [] → l.inSf = true → fc = (l.expected + 1) % 2 ^ 48 →
    readCounter ov = some fc → Runs (.rxFrame p f) s fun t =>
      (crcOk ov 40 22 = true →
        (t.mstPath p).lastTag = some (readGens ov 40) ∧ (t.mstPath p).farAmd = BitVec.ofNat 16 (beAt ov 52 2) ∧
        (t.mstPath p).farImage = BitVec.ofNat 32 (beAt ov 54 4) ∧
        (∀ k g, k ∈ [0, 2, 5] → g = (readGens ov 40).get k →
          (s.rxStagedGen p k = some g → (t.mstPath p).rx.get k = g) ∧
          (g ≠ (s.mstPath p).rx.get k → s.rxStagedGen p k ≠ some g → (s.mstPath p).unknownRun.length = 6 →
            (t.mstPath p).unknownRun.getD k 0 = (s.mstPath p).unknownRun.getD k 0 + 1 ∧
            (2 ≤ (s.mstPath p).unknownRun.getD k 0 → (t.mstPath p).mismatch.getLsbD k = true)) ∧
          (g = (s.mstPath p).rx.get k → s.rxStagedGen p k = none → (s.mstPath p).matchRun.length = 6 →
            (t.mstPath p).matchRun.getD k 0 = (s.mstPath p).matchRun.getD k 0 + 1 ∧
            (2 ≤ (s.mstPath p).matchRun.getD k 0 → (t.mstPath p).mismatch.getLsbD k = false))) ∧
        (∀ old k, (s.mstPath p).lastTag = some old → k < 6 → old.get k ≠ (readGens ov 40).get k →
          (s.mstPath p).announced = [] → min 255 (l.secViol + 1) ≤ (t.lfr p).secViol)) ∧
      (∀ off, off ∈ [1152, 1184] → crcOk ov off 30 = true →
        2 < beAt ov off 1 ∨ 63 < beAt ov (off + 1) 1 ∨ 128 ≤ beAt ov (off + 8) 2 ∨
          allZero (bytesAt ov (off + 24) 6) = false → min 255 (l.secViol + 1) ≤ (t.lfr p).secViol) ∧
      (∀ target h, crcOk ov 1152 30 = true → h = beAt ov 1153 1 → h ≤ 63 → target = beAt ov 1154 6 →
        beAt ov 1160 2 < 128 → allZero (bytesAt ov 1176 6) = true → crcOk ov 1184 30 = false ∨ beAt ov 1184 1 = 0 →
        (beAt ov 1152 1 = 1 → (∀ a ∈ (s.mstPath p).announced, a.handle ≠ h ∨ a.target ≠ target) →
          (frameLe target fc = false → ⟨1, h, target, beAt ov 1160 2, readGens ov 1162, beAt ov 1174 2, fc⟩ ∈
            (t.mstPath p).announced) ∧
          (frameLe target fc = true → min 255 (l.secViol + 1) ≤ (t.lfr p).secViol)) ∧
        (beAt ov 1152 1 = 2 → ∀ a ∈ (t.mstPath p).announced, a.handle ≠ h)) ∧
      (crcOk ov 24 14 = true → beAt ov 24 1 % 8 ≠ 0 → min 255 (l.secViol + 1) ≤ (t.lfr p).secViol) ∧
      (crcOk ov 64 62 = true → bitsOf (beAt ov 69 1) 6 0 ≠ 0 → min 255 (l.secViol + 1) ≤ (t.lfr p).secViol) ∧
      (∀ g chunk h n x, g < 8 → s.gccEn p g = true → l.gcc.length = 8 → x = s.chan p g →
        chunk = bytesAt ov (1280 + 128 * g) 128 → h = beAt chunk 0 1 → n = beAt chunk 1 1 →
        (crcOk chunk 0 126 = true → h.testBit 7 = false → t.chan p g = x) ∧
        (crcOk chunk 0 126 = false ∨ h.testBit 7 = true ∧ (n = 0 ∨ 124 < n) →
          (x.rxMsg = none → t.chan p g = x) ∧
          (x.rxMsg ≠ none → t.chan p g = { x with rxMsg := none, discard := (x.discard + 1) % 65536 })) ∧
        (∀ m free, crcOk chunk 0 126 = true → h.testBit 7 = true → 0 < n → n ≤ 124 →
          free = (fieldOf (s.regI (pathReg p Reg.PA_LFR_GCC_RX) g) 15 0 + 65536 - x.rxWr - 4) % 65536 →
          (h.testBit 6 = true ∧ x.rxMsg = none ∧ m = bytesAt chunk 2 n ∨
            h.testBit 6 = false ∧ m.length ≤ 16384 ∧ ∃ old, x.rxMsg = some old ∧ m = old ++ bytesAt chunk 2 n) →
          (h.testBit 5 = false → t.chan p g = { x with rxMsg := some m }) ∧
          (h.testBit 5 = true → entryLen m.length ≤ free →
            t.chan p g = { x with rxMsg := none, rxWr := (x.rxWr + entryLen m.length) % 65536 }) ∧
          (h.testBit 5 = true → free < entryLen m.length →
            t.chan p g = { x with rxMsg := none, overflow := min 255 (x.overflow + 1) }))) ∧
      (∀ c x y jw st stuff n, (s.contsOf p).count c = 1 → s.bonded p c = false → x = s.cont p c → y = t.cont p c →
        jw = beAt ov (128 + 2 * c) 2 → st = jw / 8192 → stuff = jw % 8192 → n = (t.rxSlots p c).length →
        (st = 0 ∧ (stuff < sMin n ∨ sMax n < stuff) →
          y.rxState = x.rxState ∧ y.rxS = x.rxS ∧ y.jwUnread = min 65535 (x.jwUnread + 1) ∧ y.errored = true) ∧
        (st ≠ 0 ∨ sMin n ≤ stuff ∧ stuff ≤ sMax n →
          y.rxState = st ∧ y.rxS = stuff ∧ y.errored = false ∧
          (st < 4 → y.jwUnread = x.jwUnread) ∧ (4 ≤ st → y.jwUnread = min 65535 (x.jwUnread + 1)) ∧
          (st = 1 ∨ 3 ≤ st → 2 ≤ x.aisRun → y.raw.getLsbD 0 = true) ∧
          (st ≠ 0 → y.ais = true ∧ y.aisFrames = (x.aisFrames + 1) % 2 ^ 32) ∧
          (st = 0 → y.rep = 0#4 → t.pathAis p = false → t.lateOn p p c fc = false →
            y.ais = false ∧ y.aisFrames = x.aisFrames)) ∧
        (∀ g, s.encrypted p = true → fc % 16 = c / 16 →
          (if fc % 16 = 0 ∨ x.otherSuperframe fc = true then x.rxSegs else x.rxPrev) = [g] → g.ok = true →
          (s.mstPath p).mismatch.getLsbD 1 = false → (g.fc / 16 + 1) % 2 ^ 44 = fc / 16 →
          (crcOk ov 40 22 = true → (readGens ov 40).get 1 = (s.mstPath p).rx.get 1 ∨
            s.rxStagedGen p 1 = some ((readGens ov 40).get 1)) →
          (bytesAt ov (640 + 16 * (c % 16)) 16 = g.tag c →
            y.authOk = (x.authOk + 1) % 65536 ∧ y.authFail = x.authFail % 65536) ∧
          (bytesAt ov (640 + 16 * (c % 16)) 16 ≠ g.tag c →
            y.authFail = (x.authFail + 1) % 65536 ∧ y.authOk = x.authOk % 65536 ∧
            (2 ≤ x.authBad → y.raw.getLsbD 2 = true))))) ∧
  (∀ (s : State) (p : Path) (f g : RxFrame) (x : List (List Sig)) (rest : List (List (List Sig))),
    s.pwr.inReset = false → s.pathUp p = true → s.locked p = true → (s.path p).rxd.chain.eqd = x :: rest →
    exec (.rxFrame p f) s = exec (.rxFrame p g) s ∧
    Runs (.rxFrame p f) s fun t => (t.path p).rxd.chain.eqd = rest ∧ t.txFc = s.txFc) ∧
  (∀ (s : State) (p : Path) (d : BitVec 2) (v : Bool) (l : LfrState), s.pwr.inReset = false → s.pathUp p = true →
    l = s.lfr p → l.monitored = true → v ≠ l.raw.getLsbD d.toNat →
    (if d.toNat ≤ 1 then 64 else 2930) ≤ l.runs.getD d.toNat 0 → Runs (.defectTimer p d v) s fun t =>
      (∀ i, i < 8 → (t.lfr p).raw.getLsbD i = if i = d.toNat then v else l.raw.getLsbD i) ∧
      (t.lfr p).rep = reportedOf (t.lfr p).raw ∧ (t.lfr p).sticky = l.sticky ||| ((t.lfr p).rep &&& ~~~l.rep) ∧
      (∀ i, i < 8 → (t.lfr p).rep.getLsbD i ≠ l.rep.getLsbD i → t.evt.pend.testBit (pathSrc p (25 + i)) = true) ∧
      t.path (otherPath p) = s.path (otherPath p) ∧ t.pwr = s.pwr ∧ t.mst = s.mst) ∧
  (∀ (s : State) (p : Path), s.pwr.inReset = false → (s.lfr p).quarantine = false → Answers (.quarantineEnd p) s s.begin) ∧
  (∀ (s : State) (p : Path), s.pwr.inReset = false → s.pathUp p = true → (s.lfr p).quarantine = true →
    Runs (.quarantineEnd p) s fun t => (t.lfr p).quarantine = false ∧ (t.lfr p).secViol = 0 ∧
      t.evt.pend.testBit (pathSrc p 35) = true ∧ t.path (otherPath p) = s.path (otherPath p))

/-- R213, R215: writing the write pointer of a channel's transmit ring stores it and no more; a channel whose enable
changes starts with its pointers at 0. R222, R231: a slot entry goes to the next copy of the selected path's table; a
generation other than the one in force stages the next copy, the same one withdraws it. R363: so for the gate list. The
model's choices in it: log 83. -/
def Obligations.ChannelsAndTables : Prop :=
  ∀ (s : State) (ses : Session) (p : Path),
    (∀ (wr : BitVec 16) (w : Word), w = s.withField (pathReg p Reg.PA_LFR_GCC_TX) 15 0 wr.toNat →
      Accepted s ses (pathReg p Reg.PA_LFR_GCC_TX) w →
      Writes (.gccTxWrWrite ses p wr) s ses (s.stores ses (pathReg p Reg.PA_LFR_GCC_TX) w)) ∧
    (∀ (b : Bool) (g : Nat) (w : Word), g = s.pfld p Reg.PA_LFR_GCC_SEL 2 0 →
      w = s.withField (pathReg p Reg.PA_LFR_GCC_CTRL) g g (b2n b) → Accepted s ses (pathReg p Reg.PA_LFR_GCC_CTRL) w →
      (s.gccEn p g = b → Writes (.gccEnWrite ses p b) s ses (s.stores ses (pathReg p Reg.PA_LFR_GCC_CTRL) w)) ∧
      (s.gccEn p g ≠ b → (s.lfr p).gcc.length = 8 → Runs (.gccEnWrite ses p b) s fun t =>
        t.chan p g = { s.chan p g with txRd := 0, rxWr := 0, txErr := false, txMsg := none, rxMsg := none } ∧
        (∀ k, k ≠ g → t.chan p k = s.chan p k) ∧ t.gccEn p g = b ∧
        fieldOf (t.regI (pathReg p Reg.PA_LFR_GCC_TX) g) 15 0 = 0 ∧
        fieldOf (t.regI (pathReg p Reg.PA_LFR_GCC_RX) g) 15 0 = 0)) ∧
    (∀ (entry : BitVec 16) (w : Word), w = BitVec.ofNat 32 entry.toNat → Accepted s ses Reg.CNT_SLOT_ENTRY w →
      Writes (.slotEntryWrite ses entry) s ses
        ((s.stores ses Reg.CNT_SLOT_ENTRY w).updPcnt (pathOf (s.fld Reg.CNT_SLOT_SEL 9 9)) fun t => { t with
          next := modifyAt (fun _ => entry.toNat) (s.fld Reg.CNT_SLOT_SEL 8 0) t.next })) ∧
    (∀ (g : BitVec 16) (off : Nat) (w : Word) (v : State), off = Reg.CNT_SLOT_GEN_A + 4 * pathNum p →
      w = s.withField off 15 0 g.toNat → v = s.stores ses off w → Accepted s ses off w →
      (g ≠ (s.mstPath p).tx.slot → Writes (.slotGenNextWrite ses p g) s ses
        (v.updMstPath p fun m => { m with staged := (0, g) :: m.staged.filter fun e => e.1 != 0
                                          rxStaged := (0, g) :: m.rxStaged.filter fun e => e.1 != 0 })) ∧
      (g = (s.mstPath p).tx.slot → Writes (.slotGenNextWrite ses p g) s ses
        (v.updMstPath p fun m => { m with
          staged := m.staged.filter fun e => e.1 != 0, rxStaged := m.rxStaged.filter fun e => e.1 != 0 }))) ∧
    (∀ (g : BitVec 16) (off : Nat) (w : Word) (v : State), off = (match p with
        | .a => Reg.SCH_GATE_GEN_A
        | .b => Reg.SCH_GATE_GEN_B) →
      w = s.withField off 15 0 g.toNat → v = s.stores ses off w → Accepted s ses off w →
      (g ≠ (s.mstPath p).tx.gate → Writes (.gateGenNextWrite ses p g) s ses
        (v.updMstPath p fun m => { m with staged := (3, g) :: m.staged.filter fun e => e.1 != 3 })) ∧
      (g = (s.mstPath p).tx.gate → Writes (.gateGenNextWrite ses p g) s ses
        (v.updMstPath p fun m => { m with
          staged := m.staged.filter fun e => e.1 != 3, rxStaged := m.rxStaged.filter fun e => e.1 != 3 })))

/-! ### Line encryption (11_line_encryption.md) -/

/-- R273 to R279: the agreement. A HELLO that asks for one, in state 1 with the next slots free and a grant that fits,
starts an attempt: the lower identifier offers, the higher one awaits the offer. Then CERT, KEX_INIT, KEX_RESP and AUTH
are each taken in their state and answered, an AUTH that verifies loads the next slots and stages their epoch, and DONE
ends the attempt in state 7. A NAK and a QUARANTINE of the peer end it in backoff, or have the message named sent again;
a malformed message, and one out of order, is a violation that is answered by a NAK, and a HELLO of another version ends
the attempt. The model's choices in it: log 10, 36, 39, 112, 140. -/
def Obligations.KeyAgreement : Prop :=
  (∀ (s : State) (p : Path) (m : Bytes) (x : Nat × Instr), s.pwr.inReset = false →
    x ∈ [(1, .hello p m), (2, .cert p m), (3, .kexInit p m), (4, .kexResp p m), (5, .auth p m), (6, .done p m),
      (7, .nak p m), (8, .quarantine p m)] →
    (vType m ≠ x.1 → Answers x.2 s s.begin) ∧
    (vType m = x.1 → s.vUp p = true → (s.lfr p).quarantine = false → 1 ≤ (s.cry p).state → (s.cry p).state ≤ 7 →
      (beAt m 1 1 = 1 → vFormOk m = false → Runs x.2 s fun t =>
        min 255 ((s.lfr p).secViol + 1) ≤ (t.lfr p).secViol ∧ (t.lfr p).lastViol = 6 ∧
        (x.1 ≠ 7 → (t.cry p).nakTx = 1 ∧
          Out.varrum p (vMsg 7 0xFFFF (beBytes 1 1 ++ beBytes 1 x.1 ++ beBytes 2 (vSeq m))) ∈ t.out)) ∧
      (beAt m 1 1 = 1 → vFormOk m = true → (s.cry p).state = 1 → 2 ≤ x.1 → x.1 ≤ 6 → Runs x.2 s fun t =>
        min 255 ((s.lfr p).secViol + 1) ≤ (t.lfr p).secViol ∧ (t.lfr p).lastViol = 7 ∧ (t.cry p).nakTx = 2 ∧
        Out.varrum p (vMsg 7 0xFFFF (beBytes 1 2 ++ beBytes 1 x.1 ++ beBytes 2 (vSeq m))) ∈ t.out) ∧
      (beAt m 1 1 ≠ 1 → x.1 = 1 → (s.cry p).state ≤ 6 → Runs x.2 s fun t =>
        (t.cry p).state = 8 ∧ (t.cry p).nakTx = 6 ∧ (t.cry p).prk = [] ∧ (t.cry p).backoff = 60000 ∧
        t.evt.pend.testBit 201 = true))) ∧
  (∀ (s : State) (p : Path) (c : CryState) (m : Bytes), s.pwr.inReset = false → s.vUp p = true →
    (s.lfr p).quarantine = false → c = s.cry p → beAt m 1 1 = 1 → vFormOk m = true →
    (vType m = 1 → vSeq m = 0 → c.state = 1 → c.reply = none → helloId m = c.peerSeen →
      s.nextFree p = false ∨ (beAt m 8 1).testBit 0 = false ∧ s.vAgree p = false → Answers (.hello p m) s
        (s.begin.updCry p fun c => { c with peerHello := some m })) ∧
    (vType m = 1 → vSeq m = 0 → c.state = 1 → c.reply = none → s.nextFree p = true → (beAt m 8 1).testBit 0 = true →
      s.grantOf (rowIdx p) = 0 → c.rowWait = false → s.tru.rngFail = false → s.pwr.queue = [] →
      s.alloc + 150 ≤ s.effCeiling → beNat s.tru.ident ≠ beNat (helloId m) → Runs (.hello p m) s fun t =>
        (t.cry p).peerHello = some m ∧ t.grantOf (rowIdx p) = 150 ∧
        (beNat s.tru.ident < beNat (helloId m) → (t.cry p).responder = false ∧
          (t.cry p).epoch = nextEpoch (s.mstPath p).tx.key.toNat (beAt m 60 2) ∧
          (t.cry p).pin = decide (s.fldI Reg.CRY_POLICY (pathNum p) 8 8 = 1) ∧
          ∃ kex, (t.cry p).reply = some ([vMsg 2 1 (s.tru.chain.getD []), kex], 2) ∧ vType kex = 3 ∧
            beAt kex 8 2 = (t.cry p).epoch % 65536) ∧
        (beNat (helloId m) < beNat s.tru.ident → (t.cry p).responder = true ∧ (t.cry p).state = 4)) ∧
    (vType m = 2 → vSeq m = 1 → c.state = 2 ∨ c.state = 4 → c.rxNext = 1 → c.reply = none →
      chainValid (vBody m) (match c.peerHello with | some h => helloId h | none => []) = true →
      c.pin = false → Answers (.cert p m) s
        (s.begin.updCry p fun c => { c with certPeer := m, rxNext := 2 })) ∧
    (∀ h z, vType m = 3 → vSeq m = 2 → c.state = 4 → c.rxNext = 2 → c.reply = none → c.peerHello = some h →
      beAt m 8 2 = nextEpoch (s.mstPath p).tx.key.toNat (beAt h 60 2) → beAt m 8 2 ≠ 0 →
      Config.ecdh (s.begin.draw 48).2 (bytesAt m 12 97) = some z → Runs (.kexInit p m) s fun t =>
        (t.cry p).kexInit = m ∧ (t.cry p).epoch = beAt m 8 2 ∧ (t.cry p).rxNext = 3 ∧ (t.cry p).state = 4 ∧
        (t.cry p).reply = some ([vMsg 2 1 (s.tru.chain.getD []), (t.cry p).kexResp], 5) ∧
        vType (t.cry p).kexResp = 4 ∧ t.path (otherPath p) = s.path (otherPath p)) ∧
    (∀ z, vType m = 4 → vSeq m = 2 → c.state = 2 → c.rxNext = 2 → c.reply = none → beAt m 8 2 = c.epoch →
      Config.ecdh c.ecdhKey (bytesAt m 12 97) = some z → Runs (.kexResp p m) s fun t =>
        (t.cry p).kexResp = m ∧ (t.cry p).rxNext = 3 ∧ (t.cry p).state = 2 ∧
        (∃ auth, (t.cry p).reply = some ([auth], 3) ∧ vType auth = 5) ∧
        t.path (otherPath p) = s.path (otherPath p)) ∧
    (vType m = 5 → vSeq m = 3 → c.state = 3 ∨ c.state = 5 → c.rxNext = 3 → c.reply = none →
      c.authBadness (vBody m) = 0 → s.nextFree p = true → Runs (.auth p m) s fun t =>
        t.staged p 1 = some (BitVec.ofNat 16 c.epoch) ∧ (t.cry p).rxNext = 4 ∧ (t.cry p).txKeys = c.txKeys ∧
        (t.cry p).rxKeys = c.rxKeys ∧ (t.cry p).nextKeys = some ⟨BitVec.ofNat 16 c.epoch,
          BitVec.ofNat 16 c.epoch, lineKeys c.prk (if c.responder then 0x52 else 0x49) c.epoch,
          lineKeys c.prk (if c.responder then 0x49 else 0x52) c.epoch⟩ ∧
        (∃ ms, (t.cry p).reply = some (ms, if c.responder then 6 else 7)) ∧
        t.path (otherPath p) = s.path (otherPath p)) ∧
    (vType m = 5 → vSeq m = 3 → c.state = 3 ∨ c.state = 5 → c.rxNext = 3 → c.reply = none →
      c.authBadness (vBody m) ≠ 0 ∨ s.nextFree p = false → Runs (.auth p m) s fun t =>
        (t.cry p).state ≥ 8 ∧ (t.cry p).prk = [] ∧ (t.cry p).ecdhKey = [] ∧ t.staged p 1 = s.staged p 1 ∧
        (t.cry p).txKeys = c.txKeys ∧ (t.cry p).rxKeys = c.rxKeys ∧ t.evt.pend.testBit 201 = true) ∧
    (vType m = 6 → vSeq m = 4 → c.state = 6 → c.rxNext = 4 → c.reply = none → beAt m 8 2 = c.epoch →
      Runs (.done p m) s fun t =>
        (t.cry p).state = 7 ∧ (t.cry p).want = false ∧ (t.cry p).doneCnt = (c.doneCnt + 1) % 65536 ∧
        (t.cry p).prk = [] ∧ (t.cry p).ecdhKey = [] ∧ t.evt.pend.testBit 200 = true ∧ t.grantOf (rowIdx p) = 0 ∧
        (t.cry p).peerHello = none ∧ (t.cry p).rekeyRun = false ∧ t.path (otherPath p) = s.path (otherPath p)) ∧
    (vType m = 7 → 2 ≤ c.state → c.state ≤ 6 → 3 ≤ beAt m 8 1 → Runs (.nak p m) s fun t =>
      (t.cry p).state = 8 ∧ (t.cry p).nakRx = beAt m 8 1 ∧ (t.cry p).failCnt = (c.failCnt + 1) % 65536 ∧
      (t.cry p).prk = [] ∧ (t.cry p).ecdhKey = [] ∧ t.evt.pend.testBit 201 = true ∧ t.evt.pend.testBit 202 = true ∧
      t.path (otherPath p) = s.path (otherPath p)) ∧
    (vType m = 7 → 1 ≤ c.state → c.state ≤ 7 → beAt m 8 1 = 1 ∨ beAt m 8 1 = 2 → Answers (.nak p m) s
      (((s.begin.updCry p fun c => { c with nakRx := beAt m 8 1 }).raise 202 0 (contKey p 0) (beAt m 8 1) 0).vSend p
        (c.sent.filter fun x => vType x == beAt m 9 1 && vSeq x == beAt m 10 2))) ∧
    (vType m = 8 → c.state = 7 → s.attempting p = false → Answers (.quarantine p m) s s.begin) ∧
    (vType m = 8 → 2 ≤ c.state → c.state ≤ 6 → Runs (.quarantine p m) s fun t =>
      (t.cry p).state = 8 ∧ (t.cry p).backoff = 1000 * s.fldI Reg.CRY_POLICY (pathNum p) 15 12 + beAt m 8 2 ∧
      (t.cry p).prk = [] ∧ t.evt.pend.testBit 201 = true ∧ t.path (otherPath p) = s.path (otherPath p)))

/-- R256, R265 to R269, R276, R277: prepared messages are sent and their state entered; HELLO is sent again, the last
messages are sent again at most three times and then the attempt fails, and a backoff ends in state 1. A rekey that is
due, or wanted, starts an agreement. `ERASE` and `ERASE_ALL` leave no key of the container, or of any, and the other
path as it is. The model's choices in it: log 2, 36, 38. -/
def Obligations.KeyTimersAndCommands : Prop :=
  (∀ (s : State) (p : Path) (c : CryState), s.pwr.inReset = false → s.vUp p = true →
    (s.lfr p).quarantine = false → c = s.cry p →
    (∀ ms next, c.state ≠ 0 → c.state ≠ 9 → c.reply = some (ms, next) →
      (next ≠ 7 → Answers (.varrumReplyReady p) s
        ((s.begin.vSend p ms).updCry p fun c =>
          { c with reply := none, lastSent := ms, sent := c.sent ++ ms, state := next })) ∧
      (next = 7 → Runs (.varrumReplyReady p) s fun t =>
        (t.cry p).state = 7 ∧ (t.cry p).reply = none ∧ (t.cry p).doneCnt = (c.doneCnt + 1) % 65536 ∧
        (t.cry p).peerHello = none ∧ t.evt.pend.testBit 200 = true ∧ (∀ m ∈ ms, Out.varrum p m ∈ t.out))) ∧
    (c.state ≠ 0 → c.state ≠ 9 →
      (c.reply = none → Answers (.varrumReplyReady p) s s.begin) ∧
      (c.state ≠ 1 ∧ c.state ≠ 7 ∨ c.state = 1 ∧ c.reply ≠ none → Answers (.helloTimer p) s s.begin) ∧
      (c.state < 2 ∨ 6 < c.state ∨ c.reply ≠ none → Answers (.tRespExpiry p) s s.begin) ∧
      (c.state ≠ 8 → Answers (.backoffEnd p) s s.begin)) ∧
    (∀ h, h = s.begin.vHelloMsg p (bytesAt c.hello 28 32) → c.peerHello = none →
      (c.state = 1 → c.reply = none → Answers (.helloTimer p) s
        ((s.begin.updCry p fun c => { c with
          hello := h, lastSent := [h], sent := h :: c.sent.filter fun x => vType x != 1 }).vSend p [h])) ∧
      (c.state = 7 → s.vAgree p = false ∨ s.nextFree p = false → Answers (.helloTimer p) s
        ((s.begin.updCry p fun c => { c with
          hello := h, sent := h :: c.sent.filter fun x => vType x != 1 }).vSend p [h]))) ∧
    (2 ≤ c.state → c.state ≤ 6 → c.reply = none →
      (c.resends < 3 → Answers (.tRespExpiry p) s
        ((s.begin.updCry p fun c => { c with resends := c.resends + 1 }).vSend p c.lastSent)) ∧
      (3 ≤ c.resends → Runs (.tRespExpiry p) s fun t =>
        (t.cry p).state = 8 ∧ (t.cry p).nakRx = 0x0B ∧ (t.cry p).failCnt = (c.failCnt + 1) % 65536 ∧
        (t.cry p).backoff = 1000 * s.fldI Reg.CRY_POLICY (pathNum p) 15 12 ∧ t.evt.pend.testBit 201 = true)) ∧
    (c.state = 8 → Runs (.backoffEnd p) s fun t => (t.cry p).state = 1 ∧ (t.cry p).peerHello = none ∧
      (t.cry p).lastSent = [(t.cry p).hello] ∧ (t.cry p).sent = [(t.cry p).hello] ∧ Out.varrum p (t.cry p).hello ∈ t.out) ∧
    (c.state = 7 → s.keyed p = true → s.nextFree p = true → c.want = false → s.dueDistance p ≤ 2 ^ 22 →
      s.tru.rngFail = false → s.grantOf (rowIdx p) = 0 → s.pwr.queue = [] → s.alloc + 150 ≤ s.effCeiling →
      Runs (.rekeyDue p) s fun t => (t.cry p).state = 1 ∧ (t.cry p).want = true ∧ (t.cry p).rekeyRun = true ∧
        (t.cry p).byAge = true ∧ t.grantOf (rowIdx p) = 150 ∧ Out.varrum p (t.cry p).hello ∈ t.out) ∧
    (s.keyed p = false ∨ s.nextFree p = false ∨ c.want = true ∨ 2 ^ 22 < s.dueDistance p →
      Answers (.rekeyDue p) s s.begin)) ∧
  (∀ (s : State) (ses : Session) (q : Path) (w : Word) (v : State), q = pathOf (s.fld Reg.CRY_PATH_SEL 0 0) →
    (∀ exp : BitVec 6, w = s.withField Reg.CRY_POLICY 5 0 exp.toNat → v = s.stores ses Reg.CRY_POLICY w →
      Accepted s ses Reg.CRY_POLICY w → Writes (.rekeyExpWrite ses exp) s ses
        (if s.fldI Reg.CRY_POLICY (pathNum q) 5 0 ≠ exp.toNat ∧ s.encrypted q = true ∧ s.keyed q = true then
          if v.dueDistance q ≤ 2 ^ 22 then
            (v.updCry q fun c => { c with rekeyRun := false, byAge := c.byAge || !c.want }).vStart q
          else if (s.cry q).byAge = true ∧ s.attempting q = false
            then v.updCry q fun c => { c with rekeyRun := false, byAge := false, want := false } else v
          else v)) ∧
    (w = s.withField Reg.CRY_CMD 31 31 1 → v = s.stores ses Reg.CRY_CMD w → Accepted s ses Reg.CRY_CMD w →
      Writes (.rekeyNow ses) s ses (if s.encrypted q = true then
        (v.updCry q fun c => { c with rekeyRun := false, byAge := false }).vStart q else v)) ∧
    (∀ k, k = s.fld Reg.CRY_CMD 7 0 → w = s.withField Reg.CRY_CMD 30 30 1 → Accepted s ses Reg.CRY_CMD w →
      (s.fld Reg.CRY_CMD 9 9 = 0 → Runs (.erase ses) s fun t =>
        t.txKey q k = none ∧ t.rxKey q k = none ∧ (∀ i, i ≠ k → t.txKey q i = s.txKey q i) ∧
        t.cry (otherPath q) = s.cry (otherPath q)) ∧
      (s.fld Reg.CRY_CMD 9 9 = 1 → Runs (.erase ses) s fun t =>
        (∀ n, (t.cry q).nextKeys = some n → n.tx.getD k none = none ∧ n.rx.getD k none = none) ∧
        (∀ i, t.txKey q i = s.txKey q i) ∧ (∀ i, t.rxKey q i = s.rxKey q i) ∧
        t.cry (otherPath q) = s.cry (otherPath q))) ∧
    (w = s.withField Reg.CRY_CMD 29 29 1 → Accepted s ses Reg.CRY_CMD w → Runs (.eraseAll ses) s fun t =>
      (∀ k, t.txKey q k = none ∧ t.rxKey q k = none) ∧
      (∀ n, (t.cry q).nextKeys = some n → ∀ k, n.tx.getD k none = none ∧ n.rx.getD k none = none) ∧
      t.cry (otherPath q) = s.cry (otherPath q)))

/-! ### Trust core, OTP and tenant pages (12_trust_and_otp.md) -/

/-- R286, R300, R301: OTP is released with its identity checked; the start-up test's first pass supplies the boot random
and the fill keys, its absence latches the fault, and every health failure runs it again. R312: a command that the
lifecycle state does not accept has result 2, one that it accepts and that the grant covers starts its commit. R283: a
commit sets the bits of its words, leaves every other word as it is, and reports; no commit clears a bit. The model's
choices in it: log 29, 83, 97. -/
def Obligations.Custody : Prop :=
  (∀ s : State, s.pwr.inReset = false →
    (s.tru.ready = false → Runs .otpRelease s fun t => t.tru.ready = true ∧ t.tru.identBad = !s.tru.checked 0 16 ∧
      t.tru.otp = s.tru.otp ∧ (∀ k, k ≠ Reg.MON_CAL → sparseGet regReset t.cfg k = sparseGet regReset s.cfg k) ∧
      t.reg Reg.MON_CAL = (if s.tru.monRecordOk = true then BitVec.ofNat 32 (bitsOf (s.tru.word 35) 63 32)
        else s.reg Reg.MON_CAL) ∧
      (s.tru.testing = false → s.tru.rngFail = false → s.tru.br = none → s.tru.fault = false →
        ∃ b, t.tru.br = some b ∧ b.length = 48)) ∧
    (s.tru.ready = true → Answers .otpRelease s s.begin) ∧
    (s.tru.testing = false ∨ s.tru.rngFail = true → Answers .rngStartupPassed s s.begin) ∧
    (s.tru.testing = true → s.tru.rngFail = false → s.tru.ready = true → s.tru.br = none → s.tru.fault = false →
      Runs .rngStartupPassed s fun t => (∃ b, t.tru.br = some b ∧ b.length = 48) ∧ t.tru.pj.length = 4 ∧
        t.tru.testing = false ∧ t.tru.jobCtr = 0 ∧ (t.cry .a).fill.length = 36 ∧ (t.cry .b).fill.length = 36 ∧
        t.tru.otp = s.tru.otp) ∧
    (s.tru.testing = true → s.tru.rngFail = false →
      s.tru.ready = false ∨ s.tru.br ≠ none ∨ s.tru.fault = true → Answers .rngStartupPassed s
        (s.begin.setTru fun t => { t with testing := false })) ∧
    (s.tru.ready = true → s.tru.br = none → s.tru.fault = false →
      ((s.begin.setTru fun t => { t with fault := true }).lifecycle = 7) ∧
      Answers .rngStartupTimeout s (if s.lifecycle = 7 then s.begin.setTru fun t => { t with fault := true }
        else (s.begin.setTru fun t => { t with fault := true }).raise 266 0 0 0 0)) ∧
    (s.tru.ready = false ∨ s.tru.br ≠ none ∨ s.tru.fault = true → Answers .rngStartupTimeout s s.begin) ∧
    (∀ took, (∀ c, s.tru.busy = some c → c.waiting = true) → Answers (.otpCommitDone took) s s.begin) ∧
    (∀ n, n = s.tru.rngFails + 1 → Answers .rngHealthFailure s ((s.begin.setTru fun t => { t with
      testing := true, rngFails := n, rngFail := t.rngFail || decide (3 ≤ n) }).raise 268
        (b2n (decide (3 ≤ n) && !s.tru.rngFail)) 0 0 0)) ∧
    (∀ took c, s.tru.busy = some c → c.waiting = false → Runs (.otpCommitDone took) s fun t =>
      (∀ w i, (s.tru.word w).testBit i = true → (t.tru.word w).testBit i = true) ∧
      (∀ w, (∀ x ∈ c.words, x.1 ≠ w) → t.tru.word w = s.tru.word w) ∧
      (took = [] → (∀ x ∈ c.words, ∀ i, x.2.getLsbD i = true → (t.tru.word x.1).testBit i = true) ∧
        t.evt.pend.testBit 264 = true ∧ (c.asker = 0 → c.next = false →
          t.tru.busy = none ∧ t.tru.result = 0 ∧ t.tru.resOp = c.op ∧ t.grantOf 10 = 0)))) ∧
  (∀ (s : State) (ses : Session) (op : Nat) (c : Instr) (w : Word) (v : State),
    (op, c) ∈ [(1, Instr.provision ses), (2, .transfer ses), (3, .decommission ses), (4, .bootProfile ses),
      (5, .certLoad ses)] → w = BitVec.ofNat 32 (2 ^ 31 + op) → v = s.stores ses Reg.TRU_CMD w →
    Accepted s ses Reg.TRU_CMD w →
    (truAccepts s.lifecycle op = false → Writes c s ses
      (v.setTru fun t => { t with result := 2, resOp := op, detail := 0 })) ∧
    (∀ oc : OtpCommit, truAccepts s.lifecycle op = true → s.pwr.queue = [] → s.alloc + 250 ≤ s.effCeiling →
      (op = 1 ∧ (s.truInput.length = 97 ∨ s.truInput.length = 2049) ∧ s.tru.inForce ownerRegion = none ∧
          (∃ g, s.tru.unused ownerRegion = some g ∧ oc = ownerCommit 1 g s.truInput true) ∨
        op = 1 ∧ (s.truInput.length = 97 ∨ s.truInput.length = 2049) ∧
          (∃ g, s.tru.inForce ownerRegion = some g ∧ sha384 s.truInput = s.tru.ownerHash g) ∧
          oc = lifecycleCommit 1 2 ∨
        op = 2 ∧ s.blobCheck s.truInput 1 = 0 ∧
          oc = ownerCommit 2 (beAt s.truInput 7 1) (bytesAt s.truInput 32 (beAt s.truInput 28 4)) false ∨
        op = 3 ∧ s.blobCheck s.truInput 2 = 0 ∧ s.rte.active = false ∧ oc = lifecycleCommit 3 3 ∨
        op = 4 ∧ (∃ g, s.tru.unused bootRegion = some g ∧ oc.words = slotWords (bootRegion.slot g) 8
          [0xB001 * 2 ^ 48, s.bootWord] ∧ oc.asker = 0 ∧ oc.op = 4 ∧ oc.region = 314 ∧ oc.aim = g ∧ oc.next = false)) →
      Runs c s fun t => t.tru.busy = some { oc with waiting := false } ∧ t.grantOf 10 = s.grantOf 10 + 250 ∧
        t.tru.otp = s.tru.otp ∧ (op = 3 → (∀ p, p < 32 → ∀ i, i < 8 → (t.page p).keys.getD i none = none) ∧
          t.keyed .a = false ∧ t.keyed .b = false)) ∧
    (op = 5 → truAccepts s.lifecycle 5 = true → (chainValid s.truInput s.tru.ident = true →
      chainKeys s.truInput = (Config.ecPublic s.tru.ecKey, Config.mldsaPublic s.tru.mlKey) → Writes c s ses
        ((v.setTru fun t => { t with chain := some s.truInput, result := 0, resOp := 5, detail := 0 }).raise
          269 0 0 0 0)) ∧
      (chainValid s.truInput s.tru.ident = false → Writes c s ses
        ((v.setTru fun t => { t with result := 0x0A, resOp := 5, detail := 0 }).raise 269 1 0 0 0))))

/-- R304 to R309: the job of each operation. A page that is ready starts the descriptor at its head: one that the checks
of R308 refuse becomes a job with their status, and one that they accept is worked out from the key of its slot, the
encrypting operations with the next encryption counter. Nothing but the page and that counter changes. The model's
choices in it: log 10, 34, 35. -/
def Obligations.TenantJobs : Prop :=
  ∀ (s : State) (page : BitVec 5) (p : Nat) (d : Desc) (src aad key c m : Bytes) (j : Job) (ty : Nat),
    s.pwr.inReset = false → p = page.toNat → d = (s.page p).desc (s.page p).sqHead →
    (∀ (op : Nat) (i : Instr), (op, i) ∈ [(1, Instr.gcmSeal page src aad), (2, .gcmOpen page src aad),
        (3, .cbcEnc page src), (4, .cbcDec page src), (5, .cmacGen page src), (6, .cmacVer page src),
        (7, .hmacGen page src), (8, .hmacVer page src), (9, .xtsEnc page src), (10, .xtsDec page src),
        (16, .derive page), (17, .jobErase page)] →
      (s.jobReady p = false ∨ d.op ≠ op → Answers i s s.begin) ∧
      (s.jobReady p = true → d.op = op → s.jobCheck p d ≠ 0 → Answers i s
        (s.begin.updPage p fun x => { x with
          sqHead := (x.sqHead + 1) % 16, run := some (d.job (s.page p).sqHead (s.jobCheck p d) []) }))) ∧
    (s.jobReady p = true → s.jobCheck p d = 0 →
      (d.op = 16 → Answers (.derive page) s (s.begin.updPage p fun x => { x.setKey d.slot
        (some (d.len, s.tru.jobKey p d.len d.iv)) with
          sqHead := (x.sqHead + 1) % 16, run := some (d.job (s.page p).sqHead 0 []) })) ∧
      (d.op = 17 → Answers (.jobErase page) s ((s.begin.updPage p fun x => { x.setKey d.slot none with
          sqHead := (x.sqHead + 1) % 16, run := some (d.job (s.page p).sqHead 0 []) }).raise 270 0 p d.slot 0))) ∧
    (s.jobReady p = true → s.jobCheck p d = 0 → (s.page p).keys.getD d.slot none = some (ty, key) →
      j = d.job (s.page p).sqHead 0 key →
      (∀ iv, d.op = 1 → iv = padTo 4 s.tru.pj ++ beBytes 8 s.tru.jobCtr → c = ctrXor key iv 0 (padTo d.len src) →
        Answers (.gcmSeal page src aad) s
          ((s.begin.setTru fun t => { t with jobCtr := (s.tru.jobCtr + 1) % 2 ^ 64 }).updPage p fun x => { x with
            sqHead := (x.sqHead + 1) % 16
            run := some { j with iv := iv, data := c ++ gcmTag key iv (padTo d.aad aad) c } })) ∧
      (d.op = 2 → c = padTo (d.len - 16) src → Answers (.gcmOpen page src aad) s (s.begin.updPage p fun x => { x with
        sqHead := (x.sqHead + 1) % 16
        run := some (if gcmTag key (d.iv.take 12) (padTo d.aad aad) c = bytesAt src (d.len - 16) 16
          then { j with data := ctrXor key (d.iv.take 12) 0 c }
          else { j with status := 1, data := List.replicate (d.len - 16) 0 }) })) ∧
      (∀ iv, d.op = 3 → iv = padTo 16 (Config.aesBlock key
          (padTo 4 s.tru.pj ++ beBytes 8 s.tru.jobCtr ++ [0, 0, 0, 0])) → m = pkcsPad (padTo d.len src) →
        Answers (.cbcEnc page src) s
          ((s.begin.setTru fun t => { t with jobCtr := (s.tru.jobCtr + 1) % 2 ^ 64 }).updPage p fun x => { x with
            sqHead := (x.sqHead + 1) % 16
            run := some { j with iv := iv, data := cbcEncrypt key (m.length / 16) iv m } })) ∧
      (d.op = 4 → Answers (.cbcDec page src) s (s.begin.updPage p fun x => { x with
        sqHead := (x.sqHead + 1) % 16
        run := some (match pkcsUnpad (cbcDecrypt key (d.len / 16) d.iv (padTo d.len src)) with
          | some b => { j with data := b }
          | none => { j with status := 2, data := List.replicate d.len 0 }) })) ∧
      (d.op = 5 → Answers (.cmacGen page src) s (s.begin.updPage p fun x => { x with
        sqHead := (x.sqHead + 1) % 16
        run := some { j with data := padTo 16 (Config.cmac key (padTo d.len src)) } })) ∧
      (d.op = 6 → Answers (.cmacVer page src) s (s.begin.updPage p fun x => { x with
        sqHead := (x.sqHead + 1) % 16
        run := some { j with
          status := if padTo 16 (Config.cmac key (padTo (d.len - 16) src)) = bytesAt src (d.len - 16) 16 then 0
            else 1 } })) ∧
      (d.op = 7 → Answers (.hmacGen page src) s (s.begin.updPage p fun x => { x with
        sqHead := (x.sqHead + 1) % 16, run := some { j with data := hmac384 key (padTo d.len src) } })) ∧
      (d.op = 8 → Answers (.hmacVer page src) s (s.begin.updPage p fun x => { x with
        sqHead := (x.sqHead + 1) % 16
        run := some { j with
          status := if hmac384 key (padTo (d.len - 48) src) = bytesAt src (d.len - 48) 48 then 0 else 1 } })) ∧
      (d.op = 9 → Answers (.xtsEnc page src) s (s.begin.updPage p fun x => { x with
        sqHead := (x.sqHead + 1) % 16
        run := some { j with data := padTo d.len (Config.xtsEnc key d.iv (padTo d.len src)) } })) ∧
      (d.op = 10 → Answers (.xtsDec page src) s (s.begin.updPage p fun x => { x with
        sqHead := (x.sqHead + 1) % 16
        run := some { j with data := padTo d.len (Config.xtsDec key d.iv (padTo d.len src)) } })))

/-- R304, R305, R308, R310, R311: a job that completes writes its output and its record, one whose DMA failed or whose
key was erased ends with that status and leaves zeros where it opened; an enabled page takes the tail that is written,
and a reset empties its slots and rings and ends its job. The model's choices in it: log 34, 98. -/
def Obligations.PageRecords : Prop :=
  ∀ (s : State) (page : BitVec 5) (p : Nat), s.pwr.inReset = false → p = page.toNat →
    (∀ j : Job, (s.page p).run = some j →
      (Runs (.jobComplete page false) s fun t =>
        (t.page p).run = none ∧ (t.page p).cqTail = ((s.page p).cqTail + 1) % 16 ∧
        (t.page p).jobs = ((s.page p).jobs + 1) % 65536 ∧ (t.page p).keys = (s.page p).keys ∧
        sparseGet (fun _ => (0 : Word)) (t.page p).cq (8 * (s.page p).cqTail) =
          BitVec.ofNat 32 (j.status * 2 ^ 24 + j.op * 2 ^ 16 + j.idx) ∧
        sparseGet (fun _ => (0 : Word)) (t.page p).cq (8 * (s.page p).cqTail + 1) = j.tag ∧
        (j.status = 0 ∨ knownOp j.op = true ∧ j.extent = 0 → j.status ≠ 0 ∨ j.data.length < 2 ^ 32 →
          sparseGet (fun _ => (0 : Word)) (t.page p).cq (8 * (s.page p).cqTail + 2) =
            BitVec.ofNat 32 (if j.status = 0 then j.data.length else 0)) ∧
        (j.data ≠ [] → Out.dma j.dst j.data ∈ t.out) ∧ (∀ q, q ≠ p → t.page q = s.page q)) ∧
      (j.status ≤ 2 → j.op ≠ 16 → j.op ≠ 17 → Runs (.jobComplete page true) s fun t =>
        (t.page p).run = none ∧ (t.page p).faults = min 255 ((s.page p).faults + 1) ∧
        sparseGet (fun _ => (0 : Word)) (t.page p).cq (8 * (s.page p).cqTail) =
          BitVec.ofNat 32 (7 * 2 ^ 24 + j.op * 2 ^ 16 + j.idx) ∧
        (j.opens = true → Out.dma j.dst (List.replicate j.extent 0) ∈ t.out)) ∧
      (j.erased = true → Runs (.erasedAbort page) s fun t =>
        (t.page p).run = none ∧ (t.page p).jobs = ((s.page p).jobs + 1) % 65536 ∧
        sparseGet (fun _ => (0 : Word)) (t.page p).cq (8 * (s.page p).cqTail) =
          BitVec.ofNat 32 (8 * 2 ^ 24 + j.op * 2 ^ 16 + j.idx) ∧
        (j.opens = true → Out.dma j.dst (List.replicate j.extent 0) ∈ t.out))) ∧
    (∀ d : Desc, (s.page p).run = none → d = (s.page p).desc (s.page p).sqHead →
      (s.jobReady p = true → knownOp d.op = false → Runs (.jobComplete page false) s fun t =>
        (t.page p).run = none ∧ (t.page p).sqHead = ((s.page p).sqHead + 1) % 16 ∧
        (t.page p).cqTail = ((s.page p).cqTail + 1) % 16 ∧ (t.page p).jobs = ((s.page p).jobs + 1) % 65536 ∧
        sparseGet (fun _ => (0 : Word)) (t.page p).cq (8 * (s.page p).cqTail) =
          BitVec.ofNat 32 (10 * 2 ^ 24 + d.op * 2 ^ 16 + (s.page p).sqHead) ∧ (∀ q, q ≠ p → t.page q = s.page q)) ∧
      (s.jobReady p = false ∨ knownOp d.op = true → ∀ e, Answers (.jobComplete page e) s s.begin) ∧
      Answers (.erasedAbort page) s s.begin) ∧
    (∀ j : Job, (s.page p).run = some j → j.erased = false → Answers (.erasedAbort page) s s.begin) ∧
    (∀ tail : BitVec 4, (s.pageEn p = true → Answers (.sqTailWrite page tail) s
        (s.begin.updPage p fun x => { x with sqTail := tail.toNat })) ∧
      (s.pageEn p = false → Answers (.sqTailWrite page tail) s s.begin)) ∧
    (∀ (ses : Session) (disable : Bool) (n : Nat) (w : Word), n = s.fld Reg.TRU_PAGE_SEL 4 0 →
      w = (if disable then s.withField Reg.TRU_PAGE_CTRL 0 0 0 else s.withField Reg.TRU_PAGE_CTRL 31 31 1) →
      Accepted s ses Reg.TRU_PAGE_CTRL w → (disable = true → s.pageEn n = true) →
      Runs (.pageReset ses disable) s fun t =>
        (t.page n).run = none ∧ (∀ i, i < 8 → (t.page n).keys.getD i none = none) ∧
        (t.page n).sqHead = 0 ∧ (t.page n).sqTail = 0 ∧ (t.page n).cqHead = 0 ∧ (t.page n).cqTail = 0 ∧
        t.pageEn n = (!disable && s.pageEn n) ∧ (∀ q, q ≠ n → t.page q = s.page q))

/-! ### Packet path and scheduler (13_packet_path.md, 14_scheduling.md) -/

/-- R317 to R323: the instructions of an engine. Each acts on the pass of its engine and on nothing else, and the `ADD`s
that follow it run at once (log 41): the register operations with their cycle, the comparisons and flags, branches, the
cursor and the keys; a load or a key copy that reaches past the window of a packet that fills it ends the pass as
depth-exceeded. -/
def Obligations.EngineInstructions : Prop :=
  ∀ (s : State) (engine : BitVec 6) (e : Nat) (x : Pass) (w u v imm : Word) (d : Nat), s.pwr.inReset = false →
    e = engine.toNat → s.engine e = some x → w = s.fetch x → x.cycles < s.cycMax → d = fieldOf w 25 22 →
    u = x.g (fieldOf w 21 18) → v = x.g (fieldOf w 17 14) → imm = BitVec.ofNat 32 (fieldOf w 13 0) →
    (∀ (n : Nat) (y : Pass), (opOf (s.fetch y) ≠ 8 → s.runAdds n y = y) ∧
      (opOf (s.fetch y) = 8 → y.cycles < s.cycMax → s.runAdds (n + 1) y = s.runAdds n
        ((y.setG (fieldOf (s.fetch y) 25 22)
          (y.g (fieldOf (s.fetch y) 21 18) + y.g (fieldOf (s.fetch y) 17 14))).next 1))) ∧
    (∀ (i : Instr) (y : Pass), (opOf w, i, y) ∈ [
        (0x01, Instr.nop engine, x.next 1),
        (0x04, .movi engine, (x.setG d (BitVec.ofNat 32 (fieldOf w 15 0))).next 1),
        (0x05, .movhi engine, (x.setG d (setField (x.g d) 31 16 (fieldOf w 15 0))).next 1),
        (0x09, .sub engine, (x.setG d (u - v)).next 1),
        (0x0A, .and engine, (x.setG d (u &&& v)).next 1),
        (0x0B, .or engine, (x.setG d (u ||| v)).next 1),
        (0x0C, .xor engine, (x.setG d (u ^^^ v)).next 1),
        (0x0D, .shl engine, (x.setG d (u <<< (v.toNat % 32))).next 1),
        (0x0E, .shr engine, (x.setG d (u >>> (v.toNat % 32))).next 1),
        (0x10, .addi engine, (x.setG d (u + BitVec.ofInt 32 (signedOf 14 (fieldOf w 13 0)))).next 1),
        (0x11, .andi engine, (x.setG d (u &&& imm)).next 1),
        (0x12, .ori engine, (x.setG d (u ||| imm)).next 1),
        (0x13, .shli engine, (x.setG d (u <<< (imm.toNat % 32))).next 1),
        (0x14, .shri engine, (x.setG d (u >>> (imm.toNat % 32))).next 1),
        (0x18, .cmp engine, { x with eq := u == v, lt := decide (u.toNat < v.toNat) }.next 1),
        (0x19, .cmpi engine, { x with
          eq := u == BitVec.ofNat 32 (fieldOf w 15 0), lt := decide (u.toNat < fieldOf w 15 0) }.next 1),
        (0x1C, .br engine, if x.holds d then { x with pc := fieldOf w 13 0, cycles := x.cycles + 2 } else x.next 1),
        (0x21, .setc engine, { x with cursor := u }.next 1),
        (0x25, .keyr engine, (x.setKey d (keyCopy d (beBytes (if d < 2 then 4 else keySizes.getD d 0)
          u.toNat))).next 1),
        (0x28, .chklen engine, (if x.limit < x.cursor.toNat + u.toNat then { x with conflict := true }
          else { x with limit := x.cursor.toNat + u.toNat }).next 1),
        (0x29, .flag engine, { x with flags := x.flags ||| BitVec.ofNat 8 (fieldOf w 7 0) }.next 1)] →
      Answers i s (s.begin.setEngine e (some (s.runAdds 255 y)))) ∧
    (∀ (i : Instr) (a n : Nat) (y : Pass), (opOf w, i, a, n) ∈ [
        (0x02, Instr.ldf engine, (x.cursor + BitVec.ofNat 32 (fieldOf w 7 0)).toNat, 2 ^ fieldOf w 9 8),
        (0x03, .ldr engine, (x.cursor + u).toNat, 2 ^ fieldOf w 9 8),
        (0x24, .key engine, (x.cursor + BitVec.ofNat 32 (fieldOf w 7 0)).toNat, fieldOf w 12 8)] →
      y = { x with conflict := x.conflict || decide (x.limit0 < a + n) } →
      (a + n ≤ 256 ∨ x.pkt.frame.length < 252 → Answers i s (s.begin.setEngine e (some (s.runAdds 255 (if opOf w = 0x24
        then (y.setKey d (keyCopy d (x.window a n))).next 1
        else (y.setG d (BitVec.ofNat 32 (beNat (x.window a n)))).next 1))))) ∧
      (256 < a + n → 252 ≤ x.pkt.frame.length → Answers i s (s.begin.endPass e x .deep) ∧ Runs i s fun t =>
        t.engine e = none ∧ (t.pktPort x.pkt.port).depth = ((s.pktPort x.pkt.port).depth + 1) % 65536)) ∧
    (opOf w = 0x20 →
      (x.headers < 16 → Answers (.adv engine) s (s.begin.setEngine e (some (s.runAdds 255 ({ x with
        cursor := x.cursor + (if flagOf w 16 then u else BitVec.ofNat 32 (fieldOf w 7 0))
        headers := x.headers + 1 }.next 1))))) ∧
      (16 ≤ x.headers → Answers (.adv engine) s (s.begin.endPass e x .deep)))

/-- R316, R321, R324, R330 to R336, R343, R371: frames that a port's MAC takes and sends, the start and the ends of a
pass, and the flow commands: each is taken when none runs, and completes with its code, its place and its counts. The
model's choices in it: log 42, 43, 44, 117. -/
def Obligations.PacketFlow : Prop :=
  (∀ (s : State) (port : BitVec 5) (f : Nat) (frame : Bytes) (t : Nat), s.pwr.inReset = false → f = port.toNat →
    (s.inst 2 = false ∨ s.rte.cfg.packetPort f = false ∨ (s.port f).state ≠ 5 →
      ∀ bad, Answers (.macFrameRx port frame bad t) s s.begin) ∧
    ((s.port f).boundQ = [] ∨ (s.port f).state ≠ 5 → Answers (.macFrameTx port) s s.begin) ∧
    (s.inst 2 = true → s.rte.cfg.packetPort f = true → (s.port f).state = 5 →
    (60 ≤ frame.length → frame.length ≤ 16379 → beAt frame 12 2 ≠ 0x8808 → (s.portEntry f).1 = true →
      (s.pkt.waiting.filter fun w => w.1.port == f && w.1.num == 0).length < 256 →
      Runs (.macFrameRx port frame false t) s fun r =>
        r.pkt.waiting = s.pkt.waiting ++ [(⟨s.pkt.nextId, f, 0, t, frame⟩, (s.portEntry f).2.1)] ∧
        r.pkt.nextId = s.pkt.nextId + 1 ∧ (r.pktPort f).parsed = ((s.pktPort f).parsed + 1) % 2 ^ 32 ∧
        r.sch.time = max s.sch.time t) ∧
    (∀ bad, bad = true ∨ frame.length < 60 ∨ 16379 < frame.length ∨ beAt frame 12 2 = 0x8808 →
      Answers (.macFrameRx port frame bad t) s
        (((({ s.begin with sch := { s.sch with time := max s.sch.time t } }).count 7 f 1).count 8 f
          (frame.length + 4)).updPort f fun x => { x with macDrop := (x.macDrop + 1) % 65536 })) ∧
    (∀ k b rest, (s.port f).boundQ = (k, b) :: rest → Answers (.macFrameTx port) s
      ((((s.begin.updPort f fun x => { x with
        boundQ := rest, boundBytes := x.boundBytes - b.length }).count 9 f 1).count 0xA f b.length).emit
          (.packet f b))))) ∧
  (∀ (s : State) (engine : BitVec 6) (e : Nat), s.pwr.inReset = false → e = engine.toNat →
    (∀ k addr rest, s.engine e = none → s.pkt.waiting = (k, addr) :: rest → Answers (.passStart engine) s
      (((s.begin.setPkt fun x => { x with waiting := rest }).setEngine e
        (some (s.runAdds 255 (startPass k addr)))).emit (.pass e))) ∧
    (s.engine e ≠ none ∨ s.pkt.waiting = [] → Answers (.passStart engine) s s.begin) ∧
    ((∀ x, s.engine e = some x → x.cycles < s.cycMax) → Answers (.cycleLimit engine) s s.begin) ∧
    (∀ x, s.engine e = some x → s.cycMax ≤ x.cycles → s.inst 2 = true → Runs (.cycleLimit engine) s fun t =>
      t.engine e = none ∧ (t.pktPort x.pkt.port).cycle = min 255 ((s.pktPort x.pkt.port).cycle + 1) ∧
      (∀ i, i ≠ e → t.engine i = s.engine i)) ∧
    (∀ x, s.engine e = some x → x.cycles < s.cycMax → opOf (s.fetch x) = 0x00 → Runs (.drop engine) s fun t =>
      t.engine e = none ∧ (∀ i, i ≠ e → t.engine i = s.engine i) ∧ (if x.conflict
        then (t.pktPort x.pkt.port).length = ((s.pktPort x.pkt.port).length + 1) % 65536
        else (t.pktPort x.pkt.port).progDrop = ((s.pktPort x.pkt.port).progDrop + 1) % 65536)) ∧
    (∀ x, s.engine e = some x → x.cycles < s.cycMax → opOf (s.fetch x) = 0x30 → x.conflict = false →
      Runs (.lookup engine []) s fun t => t.engine e = none ∧ (∀ i, i ≠ e → t.engine i = s.engine i) ∧
        t.pkt.second.passes = s.pkt.second.passes + 1 ∧
        t.pkt.second.cycles = s.pkt.second.cycles + x.cycles + 1)) ∧
  (∀ (s : State) (ses : Session) (op : Nat) (i : Instr) (w : Word), s.inst 2 = true →
    (op, i) ∈ [(1, Instr.insert ses), (2, .delete ses), (3, .read ses), (4, .update ses), (5, .clear ses)] →
    w = BitVec.ofNat 32 (2 ^ 31 + op) → Accepted s ses Reg.PKT_FLOW_CMD w → Writes i s ses
      ((s.stores ses Reg.PKT_FLOW_CMD w).setPkt fun k => { k with cmd := some op })) ∧
  (∀ (s : State) (op : Nat) (key : Bytes) (u : State) (l : Line), s.pwr.inReset = false → s.inst 2 = true →
    s.pkt.cmd = some op → key = s.flowKey → u = (s.begin.flowLookup key).1 → Runs .flowCommandComplete s fun t =>
      t.pkt.cmd = none ∧ t.evt.pend.testBit 239 = true ∧
      (op = 1 ∨ op = 4 → resultOk s.flowRes = false → t.pkt.result = 5 ∧ t.pkt.sig = s.pkt.sig) ∧
      (op = 1 → resultOk s.flowRes = true → (s.begin.flowLookup key).2.line ≠ none → t.pkt.result = 2) ∧
      (∀ a b, op = 1 → resultOk s.flowRes = true → (s.begin.flowLookup key).2.line = none →
        u.freeWay 0 (u.keyBucket key 0) = some (0, a, b) → t.pkt.result = 0 ∧
          t.sigAt (0, a, b) = setField (setField 0 31 17 (s.keySig key)) 16 0 (s.keyBucket key 1) ∧
          t.pkt.moves = 0 ∧ t.pkt.pkts = 0 ∧ t.pkt.bytes = 0 ∧ (t.pkt.table, t.pkt.bucket, t.pkt.way) = (0, a, b)) ∧
      (2 ≤ op → op ≤ 5 → (op = 4 → resultOk s.flowRes = true) → (s.begin.flowLookup key).2.line = some l →
        t.pkt.result = 0 ∧ (t.pkt.table, t.pkt.bucket, t.pkt.way) = (l.t, l.b, l.w) ∧
        (op = 2 → t.sigAt l.place = 0) ∧ (op ≠ 4 → t.pkt.pkts = l.pkts ∧ t.pkt.bytes = l.bytes) ∧
        (op = 3 → l.result.length = 8 → t.flowRes = l.result)) ∧
      (2 ≤ op → op ≤ 5 → (op = 4 → resultOk s.flowRes = true) → (s.begin.flowLookup key).2.line = none →
        (s.begin.flowLookup key).2.bad = none → t.pkt.result = 3)) ∧
  (∀ s : State, s.pwr.inReset = false →
    (s.pkt.cmd = none → s.pkt.tenantQ = [] → Answers .flowCommandComplete s s.begin) ∧
    (s.pkt.cmd ≠ none ∨ s.pkt.learn = [] → Answers .learnInsert s s.begin)) ∧
  (∀ (s : State) (key r : Bytes) (rest : List (Bytes × Bytes)), s.pwr.inReset = false → s.pkt.cmd = none →
    s.pkt.learn = (key, r) :: rest → Runs .learnInsert s fun t => t.pkt.learn = rest ∧ t.pkt.cmd = none ∧
      t.pkt.waiting = s.pkt.waiting ∧ t.pkt.engines = s.pkt.engines)

/-- R350, R351, R354 to R361, R364, R403: the scheduler. The head packet of the queue that a container's request takes
leaves as its unit and frees its cells, or is dropped where one of its words is uncorrectable; a request that no queue
can serve is answered with an idle unit. A calendar bin releases what is due, at most 32 entries: those leave the
calendar and their queues become eligible, but one that is not yet due enters a later bin, and the rest carry to the
next bin. Every queue is sampled. A policed packet conforms exactly where the bucket admits it. The model's choices in
it: log 42, 118, 144, 147, 148. -/
def Obligations.Scheduling : Prop :=
  (∀ (s : State) (p : Path) (cont : BitVec 8) (c t : Nat) (bad : Option (BitVec 23)) (v u : State),
    s.pwr.inReset = false → c = cont.toNat →
    (s.inst 3 = false ∨ s.client p c ≠ .packet ∨ s.txSlots p c = [] ∨
      8 * packetWords (s.txSlots p c).length ≤ (s.cont p c).buf.length →
      Answers (.unitRequest p cont t bad) s s.begin) ∧
    (s.inst 3 = true → s.client p c = .packet → s.txSlots p c ≠ [] →
      (s.cont p c).buf.length < 8 * packetWords (s.txSlots p c).length →
      v = (match bad with
        | some w => if s.mem.sramWritten w.toNat = true then s.begin.setSramErr 0 w.toNat 2 else s.begin
        | none => s.begin) →
      u = (v.schedAt t).noteGates p c →
      (u.pick p c (packetWords (s.txSlots p c).length) 4 0 = none → Answers (.unitRequest p cont t bad) s
        ((((u.updCont p c fun x => { x with buf := x.buf ++ idleUnit }).count 4 (contKey p c) 1).count 5 (contKey p c)
          idleUnit.length).emit (.unit p c idleUnit))) ∧
      ∀ q k rest b, u.pick p c (packetWords (s.txSlots p c).length) 4 0 = some q → (s.queue q).pkts = k :: rest →
        b = packetUnit (q % 16) k.data → Runs (.unitRequest p cont t bad) s fun r => (r.queue q).pkts = rest ∧
          r.sch.used = s.sch.used - cellsOf k.data.length ∧ (∀ i, i ≠ q → r.queue i = s.queue i) ∧
          ((u.cellsRead k).2 = false → (r.cont p c).buf = (s.cont p c).buf ++ b ∧ Out.unit p c b ∈ r.out) ∧
          ((u.cellsRead k).2 = true → (r.cont p c).buf = (s.cont p c).buf ∧
            min 255 (s.mem.sramUncorr + 1) ≤ r.mem.sramUncorr))) ∧
  (∀ (s : State) (pos : Nat) (due : List CalEntry), s.pwr.inReset = false → s.inst 3 = true → pos = s.sch.calPos →
    due = (s.sch.cal.filter fun e => decide (e.bin ≤ pos)) → (s.sch.cal.map (·.queue)).Nodup →
    Runs .calendarBin s fun t =>
      t.sch.calPos = pos + 1 ∧ t.sch.time = max s.sch.time (pos * s.binWidth) ∧
      t.sch.carry = (s.sch.carry + (due.length - 32)) % 65536 ∧
      (∀ e ∈ s.sch.cal, pos < e.bin → e ∈ t.sch.cal) ∧ (∀ e ∈ due.drop 32, { e with bin := pos + 1 } ∈ t.sch.cal) ∧
      (∀ e ∈ due.take 32, e.elig ≤ pos * s.binWidth → t.inCalendar e.queue = false ∧
        ((s.queue e.queue).elig ≤ t.sch.time → t.eligible e.queue = true)) ∧
      (∀ e ∈ due.take 32, pos * s.binWidth < e.elig → (s.queueEnt e.queue).byteTime ≠ 0 →
        (s.queue e.queue).pkts ≠ [] → t.sch.time < (s.queue e.queue).elig →
        ⟨e.queue, (s.queue e.queue).elig,
          min (pos + 65536) (max (pos + 1) (ceilDiv (s.queue e.queue).elig s.binWidth))⟩ ∈ t.sch.cal) ∧
      t.sch.queues = s.sch.queues ∧ t.sch.used = s.sch.used ∧ t.pkt = s.pkt ∧ t.cnt = s.cnt) ∧
  (∀ s : State, s.pwr.inReset = false → s.inst 3 = false → Answers .calendarBin s s.begin ∧
    ∀ t, Answers (.queueSample t) s s.begin) ∧
  (∀ (s : State) (t q : Nat), s.pwr.inReset = false → s.inst 3 = true → Runs (.queueSample t) s fun r =>
    r.sch.time = max s.sch.time t ∧ r.sch.used = s.sch.used ∧ (r.queue q).pkts = (s.queue q).pkts ∧
    (s.sch.queues.map (·.1) = [q] → (r.queue q).depth = (s.queue q).cells ∧
      (r.queue q).depthMax = max (s.queue q).depthMax (s.queue q).cells)) ∧
  (∀ (e : PolEntry) (x : PolState) (t len : Nat),
    (e.fleam = false → (police e x t len).2 = decide (max x.tat t + len * e.rate - t ≤ e.burst * e.rate) ∧
      ((police e x t len).2 = true → (police e x t len).1 = { x with tat := max x.tat t + len * e.rate }) ∧
      ((police e x t len).2 = false → (police e x t len).1 = x)) ∧
    (e.fleam = true → x.lastTick = t / tickTime → (police e x t len).2 = decide (64 * len ≤ x.tokens) ∧
      (police e x t len).1 = { x with tokens := if 64 * len ≤ x.tokens then x.tokens - 64 * len else x.tokens }))

/-! ### Memory die and SRAM (16_memory.md) -/

/-- R402 to R405: a write of the host window within one code word is what a read then returns, at every byte that it
writes; every byte of another word outside the journal ring reads as before, and an area that the window does not write
keeps its bytes. A read of clean words returns their bytes, and zero where the window is blind; one that meets an
uncorrectable word is marked. The oldest merge entry goes over its word, but a write-back of the scrubber whose word has
become clean meanwhile writes nothing (R407). The model's choices in it: log 3, 52, 96, 146. -/
def Obligations.HostWindow : Prop :=
  ∀ s : State, s.pwr.inReset = false →
    (∀ (addr : BitVec 27) (data : Bytes) (a w : Nat), s.ctl.pcieUp = true → a = addr.toNat → w = a / 32 → data ≠ [] →
      a % 32 + data.length ≤ 32 →
      (s.windowLocked a = true → Answers (.bar4Write addr data) s s.begin) ∧
      (s.windowLocked a = false → s.mem.stalled = [] → (s.mem.mergeOf w).isSome = true ∨ s.mem.merge.length < 16 →
        Runs (.bar4Write addr data) s fun t =>
          (∀ ctr i, i < data.length → t.mem.readByte ctr (a + i) = data.getD i 0) ∧
          (∀ ctr x, x / 32 ≠ w → ¬ inJournal (x / 32) → t.mem.readByte ctr x = s.mem.readByte ctr x) ∧
          (data.length = 32 → t.mem.isWritten w = true ∧ t.mem.poisoned w = false ∧ t.mem.upsets w = 0) ∧
          t.cfg = s.cfg ∧ t.pwr = s.pwr)) ∧
    (∀ (addr : BitVec 27) (len : BitVec 12) (a n : Nat) (words : List Nat), s.ctl.pcieUp = true → a = addr.toNat →
      n = len.toNat → a + n ≤ 0x08000000 → s.mem.stalled = [] →
      words = (((List.range ((a + n + 31) / 32 - a / 32)).map (· + a / 32)).filter fun w => !s.windowBlind (32 * w)) →
      ((∀ w ∈ words, s.mem.outcome s.begin.freeCtr w = .clean) → Answers (.bar4Read addr len []) s
        (s.begin.emit (.memData ((List.range n).map fun i => if s.windowBlind (a + i) then 0
          else s.mem.readByte s.begin.freeCtr (a + i)) false))) ∧
      ((∃ w ∈ words, s.mem.outcome s.begin.freeCtr w = .uncorrectable) → Runs (.bar4Read addr len []) s fun t =>
        ∃ b, Out.memData b true ∈ t.out)) ∧
    (s.mem.merge = [] → Answers (.mergeDone []) s s.begin) ∧
    (∀ e rest, s.mem.merge = e :: rest → s.mem.stalled = [] → (∀ x ∈ e.patch, x.1 < 32) → ¬ inJournal e.word →
      (∀ f ∈ rest, f.word ≠ e.word ∧ ¬ inJournal f.word) →
      (e.scrub ≠ none → e.patch = [] → s.mem.outcome s.begin.freeCtr e.word = .clean → Answers (.mergeDone []) s
        { s.begin with mem := { s.mem with merge := rest } }) ∧
      (e.scrub = none ∨ e.patch ≠ [] ∨ s.mem.outcome s.begin.freeCtr e.word ≠ .clean →
        Runs (.mergeDone []) s fun t => t.mem.merge = rest ∧
        (∀ i b, e.patch.find? (fun x => x.1 == i) = some (i, b) → t.mem.byte (32 * e.word + i) = b) ∧
        t.mem.isWritten e.word = true ∧ t.mem.upsets e.word = 0)) ∧
    (∀ addr data, s.ctl.pcieUp = false → Answers (.bar4Write addr data) s s.begin) ∧
    (∀ addr len, s.ctl.pcieUp = false → Answers (.bar4Read addr len []) s s.begin)

/-- R401, R407, R409, R410, R412, R417: the walker reads written words only and clears what it corrects; a scrub pass
starts with its first quota, reads its bursts, has a correctable word written back, and ends when nothing is left to
read or to write back; the copy of a row is followed by its switch, which is reported; a commit of the remap table is
refused outside the states that allow it or where nothing is new, and otherwise starts; clearing the ledger leaves the
pending entries. The model's choices in it: log 40, 54, 55, 56, 149. -/
def Obligations.ScrubAndRepair : Prop :=
  (∀ s : State, s.pwr.inReset = false →
    (s.mem.sramUpset = [] → Answers (.sramWalk []) s s.begin) ∧
    (∀ k, s.mem.sramUpset = [(k, 1)] → Answers (.sramWalk []) s { s.begin with
      mem := { s.mem with sramUpset := [], sramCorr := (s.mem.sramCorr + 1) % 65536 } }) ∧
    (∀ kind addr n, s.sramHolds kind addr = false →
      exec (.sramWalk [(kind, addr, n)]) s = exec (.sramWalk []) s) ∧
    (∀ kind addr, s.sramHolds kind addr = true → addr < 2 ^ 40 → s.mem.sramUpset = [] →
      Answers (.sramWalk [(kind, addr, 2)]) s (({ s.begin with mem := { s.mem with
        sramUpset := [(sramKey kind addr, 2)], sramUncorr := min 255 (s.mem.sramUncorr + 1) } }).raiseOnce
          225 0 0 kind addr)) ∧
    (flagOf (s.reg Reg.MEM_SCRUB_CTRL) 31 = false ∨ s.mem.scrub.running = true ∨
      s.mem.scrub.pass ≠ 0 ∧ s.mem.scrub.elapsed < s.mem.scrub.period → Answers .scrubPassStart s s.begin) ∧
    (flagOf (s.reg Reg.MEM_SCRUB_CTRL) 31 = true → s.mem.scrub.running = false →
      s.mem.scrub.pass = 0 ∨ s.mem.scrub.period ≤ s.mem.scrub.elapsed → Answers .scrubPassStart s
        (s.begin.setScrub fun c => { c with
          running := true, pass := c.pass + 1, pos := 0, elapsed := 0, period := s.fld Reg.MEM_SCRUB_CTRL 16 0
          late := false, quota := ceilDiv (s.mem.burstsLeft 0) (max 1 (s.fld Reg.MEM_SCRUB_CTRL 16 0)) })) ∧
    (s.mem.scrub.running = false ∨ s.mem.scrub.quota = 0 ∨ flagOf (s.reg Reg.MEM_SCRUB_CTRL) 31 = false →
      Answers (.scrubBurstDone []) s s.begin) ∧
    (∀ g w, s.mem.scrub.running = true → 0 < s.mem.scrub.quota → flagOf (s.reg Reg.MEM_SCRUB_CTRL) 31 = true →
      s.mem.nextBurst s.mem.scrub.pos = some g → w / 8 = g → s.mem.isWritten w = true → s.mem.upsets w = 1 →
      (∀ i, i < 8 → s.mem.poisoned (8 * g + i) = false ∧ (8 * g + i ≠ w → s.mem.upsets (8 * g + i) = 0)) →
      (∀ i, i < 8 → s.mem.isWritten (8 * g + i) = true) → s.mem.merge = [] → Runs (.scrubBurstDone []) s fun t =>
        t.mem.merge = [⟨w, [], false, some s.mem.scrub.pass⟩] ∧ t.mem.corr = (s.mem.corr + 1) % 65536 ∧
        t.mem.upsets w = 1 ∧ t.mem.scrub.pos = 8 * g + 8 ∧ t.mem.scrub.quota = s.mem.scrub.quota - 1) ∧
    (∀ g, s.mem.scrub.running = true → flagOf (s.reg Reg.MEM_SCRUB_CTRL) 31 = true → 0 < s.mem.scrub.quota → s.mem.nextBurst s.mem.scrub.pos = some g →
      (∀ i, i < 8 → s.mem.isWritten (8 * g + i) = true → s.mem.poisoned (8 * g + i) = false ∧
        s.mem.upsets (8 * g + i) = 0) → Answers (.scrubBurstDone []) s
          (s.begin.setScrub fun c => { c with pos := 8 * g + 8, quota := c.quota - 1 })) ∧
    (s.mem.scrub.running = false ∨ s.mem.nextBurst s.mem.scrub.pos ≠ none ∨ (∃ e ∈ s.mem.merge, e.scrub ≠ none) →
      Answers .scrubPassEnd s s.begin) ∧
    (s.mem.scrub.running = true → s.mem.nextBurst s.mem.scrub.pos = none → (∀ e ∈ s.mem.merge, e.scrub = none) →
      Runs .scrubPassEnd s fun t =>
      t.mem.scrub.running = false ∧ t.mem.scrub.passes = (s.mem.scrub.passes + 1) % 65536 ∧
      t.mem.watch = s.mem.watch.filter (fun e => e.lastPass == s.mem.scrub.pass) ∧
      (s.mem.scrub.late = true → t.evt.pend.testBit 222 = true)) ∧
    (∀ e before after, s.mem.remap = before ++ e :: after → (∀ x ∈ before, x.copied = true ∨ x.applied = true) →
      e.copied = false → e.applied = false → Answers .remapCopyDone s { s.begin with
        mem := { s.mem with remap := before ++ { e with copied := true } :: after } }) ∧
    ((∀ e ∈ s.mem.remap, e.copied = true ∨ e.applied = true) → Answers .remapCopyDone s s.begin) ∧
    ((s.mem.remap.map fun e => (e.bank, e.row)).Nodup → Runs .remapSwitch s fun t =>
      t.mem.remap = s.mem.remap.map (fun e => if e.due && e.copied && !e.applied then { e with applied := true }
        else e) ∧
      ((∃ e ∈ s.mem.remap, e.due = true ∧ e.copied = true ∧ e.applied = false) → t.evt.pend.testBit 218 = true) ∧
      (∀ a, ¬ inJournal (a / 32) → t.mem.byte a = s.mem.byte a))) ∧
  (∀ (s : State) (ses : Session) (w : Word) (g : Nat), w = s.withField Reg.MEM_REPAIR_CMD 31 31 1 →
    Accepted s ses Reg.MEM_REPAIR_CMD w → s.tru.busy = none →
    (s.lifecycle ≠ 1 → s.lifecycle ≠ 2 → Runs (.commit ses) s fun t =>
      t.mem.repairResult = 2 ∧ t.mem.repairBusy = s.mem.repairBusy ∧ t.evt.pend.testBit 224 = true ∧ t.tru = s.tru) ∧
    (s.lifecycle = 1 ∨ s.lifecycle = 2 → s.tru.unused repairRegion = some g →
      ((∀ e ∈ s.mem.remap, e.applied = true → e.persistent = true) → Runs (.commit ses) s fun t =>
        t.mem.repairResult = 0x0D ∧ t.mem.repairBusy = s.mem.repairBusy ∧ t.evt.pend.testBit 224 = true ∧ t.tru = s.tru) ∧
      ((∃ e ∈ s.mem.remap, e.applied = true ∧ e.persistent = false) → s.pwr.queue = [] →
        s.alloc + 250 ≤ s.effCeiling → Runs (.commit ses) s fun t =>
          t.mem.repairBusy = true ∧ t.mem.repairWait = false ∧ t.grantOf 10 = s.grantOf 10 + 250 ∧
          t.tru.busy = some ⟨2, 0, 144, g, repairWords (repairRegion.slot g) (s.mem.remap.filter (·.applied)),
            false, false⟩))) ∧
  (∀ (s : State) (ses : Session) (w : Word) (v : State), w = s.withField Reg.MEM_LEDGER_SEL 31 31 1 →
    v = s.stores ses Reg.MEM_LEDGER_SEL w → Accepted s ses Reg.MEM_LEDGER_SEL w → Writes (.ledgerClear ses) s ses
      { v with mem := { v.mem with ledger := v.mem.ledger.filter fun e => e.state == 0 } })

/-! ### Monitor (17_monitor.md) -/

/-- R422 to R428: a trigger queues the conversions of its sequence, or is counted where they are still under way; what
is due at once meets the converter when every sequence of the tick has fired. A conversion that becomes due starts on an
idle converter, with the field record then in force (R443), and with both paths an urgent one aborts a running one once;
a conversion that ends is corrected and written to the result register, or is the sample of its dither turn. The
self-calibration takes its grant, and ends with the factors that its sums give. The model's choices in it: log 57, 59,
111. -/
def Obligations.Conversions : Prop :=
  (∀ (u : State) (t q : Nat) (w : Word) (busy : Bool), w = u.regI Reg.MON_SEQ_CTRL q →
    busy = (u.mon.queue ++ u.mon.running.toList ++ u.mon.aborted.toList).any (fun c => !c.dither && c.num == q) →
    (busy = true ∨ u.mon.calRun = true → (u.trigger t q).mon.trigOvr = (u.mon.trigOvr + 1) % 65536 ∧
      (u.trigger t q).mon.queue = u.mon.queue) ∧
    (busy = false → u.mon.calRun = false → (u.trigger t q).mon.queue = u.mon.queue ++ (u.seqChans q).map fun c =>
      ⟨false, q, c, t + fieldOf w 15 0, decide (fieldOf w 15 0 = 0), flagOf w 29, flagOf w 28, false, 0, 0, (0, 0)⟩)) ∧
  (∀ (u : State) (t src q : Nat), q < 8 →
    (∀ i, i < 8 → i ≠ q → u.fldI Reg.MON_SEQ_CTRL i 30 30 = 0 ∨ u.fldI Reg.MON_SEQ_CTRL i 18 16 ≠ src) →
    u.fire t src = (if u.fldI Reg.MON_SEQ_CTRL q 30 30 = 1 ∧ u.fldI Reg.MON_SEQ_CTRL q 18 16 = src
      then (u.trigger t q).convMeet else u.convMeet)) ∧
  (∀ s : State, s.pwr.inReset = false →
    (∀ (t : BitVec 2) (w : Word) (now : Nat), w = s.regI Reg.MON_TMR t.toNat →
      now = s.moment (s.mon.timerAt.getD t.toNat 0 + 1000 * fieldOf w 19 0) → Answers (.monitorTimer t) s
        (if flagOf w 31 then (s.begin.setMon fun m => { m with
          timerAt := modifyAt (fun _ => now) t.toNat m.timerAt }).fire now (1 + t.toNat) else s.begin)) ∧
    (s.mon.queue = [] → (s.mon.running ≠ none ∨ s.mon.aborted = none) →
      Answers .urgentDue s s.begin ∧ Answers .conversionDue s s.begin) ∧
    (∀ c d : Conv, s.mon.queue = [c] → c.ready = false → s.mon.calRun = false →
      d = { c with ready := true, field := fcalEntry s.mon.fcal c.chan } →
      (c.urgent = true → s.mon.running = none → Answers .urgentDue s { s.begin with
        mon := { s.mon with queue := [], running := some d } }) ∧
      (∀ r, c.urgent = true → s.mon.running = some r → r.urgent = false → r.redone = false → s.twoPath = true →
        Answers .urgentDue s { s.begin with mon := { s.mon with
          queue := [], running := some d, aborted := some r, aborts := min 255 (s.mon.aborts + 1) } }) ∧
      (c.urgent = false → s.mon.running = none → s.mon.aborted = none → Answers .conversionDue s { s.begin with
        mon := { s.mon with queue := [], running := some d } })) ∧
    (∀ raw : BitVec 16, s.mon.running = none → Answers (.conversionDone raw) s s.begin) ∧
    (∀ (raw : BitVec 16) (c : Conv), s.mon.running = some c → c.dither = false → c.resEn = true →
      Runs (.conversionDone raw) s fun t =>
        t.mon.resValid = true ∧ t.mon.resSeq = c.num ∧ t.mon.resChan = c.chan ∧
        t.mon.resCode = s.convCode c raw.toNat ∧ t.mon.resOver = (s.mon.resOver || s.mon.resValid) ∧
        (s.reg Reg.MON_CAL = 0 → c.field = (0, 0) → t.mon.resCode = raw.toNat)) ∧
    (∀ (raw : BitVec 16) (c : Conv) (p : Path) (x : Turn) (code : Int), s.mon.running = some c → c.dither = true →
      c.num = pathNum p → (s.dither p).turn = some x → s.turnHolds p → code = (s.convCode c raw.toNat : Nat) →
      Runs (.conversionDone raw) s fun t => t.mon.resCode = s.mon.resCode ∧
        (t.dither p).turn = some (if (s.dither p).turns = c.turn then { x with
          taken := x.taken + 1, err := if c.half % 2 = 1 then x.err + code else x.err - code } else x)) ∧
    (s.mon.calRun = false → ∀ a b, Answers (.selfCalDone a b) s s.begin) ∧
    (∀ (a b : Nat) (o d g : Int), s.mon.calRun = true → o = roundHalfEven (16 * a) 8192 → d = 16 * b - 8192 * o →
      g = roundHalfEven (2 ^ 20 * ((800000 + s.refTrim) * 65536 * 131072 - 1600000 * d)) (1600000 * d).toNat →
      Runs (.selfCalDone a b) s fun t =>
        t.mon.calRun = false ∧ t.grantOf 9 = 0 ∧ t.evt.pend.testBit 272 = true ∧
        (-32768 ≤ o → o ≤ 32767 → fieldOf (t.reg Reg.MON_CAL) 31 16 = toField 16 o) ∧
        (0 < d → -32768 ≤ g → g ≤ 32767 → fieldOf (t.reg Reg.MON_CAL) 15 0 = toField 16 g))) ∧
  (∀ (s : State) (ses : Session) (w : Word) (v : State),
    (∀ q, q = s.fld Reg.MON_SEQ_SEL 2 0 → w = s.withField Reg.MON_SEQ_CTRL 31 31 1 → v = s.stores ses Reg.MON_SEQ_CTRL w →
      Accepted s ses Reg.MON_SEQ_CTRL w → Writes (.sequenceGo ses) s ses
        (if s.fldI Reg.MON_SEQ_CTRL q 30 30 = 1 ∧ s.fldI Reg.MON_SEQ_CTRL q 18 16 = 0 then (v.trigger s.upNs q).convMeet else v)) ∧
    (w = s.withField Reg.MON_CTRL 1 1 1 → v = s.stores ses Reg.MON_CTRL w → Accepted s ses Reg.MON_CTRL w →
      Writes (.resAck ses) s ses (v.setMon fun m => { m with resValid := false })) ∧
    (w = s.withField Reg.MON_CTRL 0 0 1 → v = s.stores ses Reg.MON_CTRL w → Accepted s ses Reg.MON_CTRL w →
      (s.pwr.queue = [] → s.alloc + 50 ≤ s.effCeiling → (s.dither .a).turn = none → (s.dither .b).turn = none →
        Writes (.selfCal ses) s ses
          ((v.addGrant 9 50).setMon fun m => { m with calWait := false, calRun := true })) ∧
      (s.effCeiling < s.base + 50 → Runs (.selfCal ses) s fun t =>
        t.mon.calDenied = true ∧ t.mon.calRun = s.mon.calRun ∧ t.evt.pend.testBit 273 = true ∧
        t.evt.pend.testBit 289 = true ∧ t.pwr.grants = s.pwr.grants)) ∧
    (v = s.stores ses Reg.MON_CAL w → Accepted s ses Reg.MON_CAL w → Writes (.monCalWrite ses w) s ses
      (if s.reg Reg.MON_CAL = w then v else v.unsettleAll fun _ _ => true)))

/-- R430, R432, R435 to R440, R443: a chain takes pending settings that are inside their ranges and starts anew, and
refuses others. A dither turn steps its output by its amplitude at each half-period, and at its end moves the bias
inside its rails by what its samples say, or leaves it where a sample is missing; the received level moves its loop; a
host write of an output fixes its rails. A field record that checks comes into force. The model's choices in it: log 58,
60, 83. -/
def Obligations.OpticalLoops : Prop :=
  (∀ (s : State) (p : Path), s.pwr.inReset = false → (s.path p).cnv.dacReady = true →
    (∀ i base amp, (s.dither p).turn = none → s.mon.calRun = false → s.nextTurn p = some i →
      base = (s.rail (optLoop p i)).out → amp = fieldOf (s.regI Reg.MON_DITH0 (pathNum p)) 9 0 →
      Runs (.ditherHalfPeriod p) s fun t =>
        (t.dither p).turn = some ⟨i, 1, amp, fieldOf (s.regI Reg.MON_DITH1 (pathNum p)) 12 0,
          fieldOf (s.regI Reg.MON_DITH1 (pathNum p)) 31 16, fieldOf (s.regI Reg.MON_DITH0 (pathNum p)) 21 12,
          s.moment s.upNs, 0, 0⟩ ∧
        (t.dither p).turns = (s.dither p).turns + 1 ∧
        s.biased (pathNum p * 8 + i) (base + amp) ∈ t.out ∧ t.rails = s.rails) ∧
    ((s.dither p).turn = none → s.mon.calRun = true ∨ s.nextTurn p = none → Answers (.ditherHalfPeriod p) s s.begin) ∧
    ((s.dither p).turn = none → Answers (.ditherTurnEnd p) s s.begin) ∧
    (∀ x base, (s.dither p).turn = some x → s.turnHolds p → base = (s.rail (optLoop p x.loop)).out →
      (x.half < 2 * x.cyc → Runs (.ditherHalfPeriod p) s fun t =>
        (t.dither p).turn = some { x with
          half := x.half + 1
          began := s.moment (if x.half = 0 then x.began else x.began + 1000 * x.halfUs) } ∧ t.rails = s.rails ∧
        s.biased (pathNum p * 8 + x.loop) (if x.half % 2 = 0 then base + x.amp else base - x.amp) ∈ t.out) ∧
      (2 * x.cyc ≤ x.half → 2 * x.cyc ≤ x.taken → Runs (.ditherTurnEnd p) s fun t =>
        (t.dither p).turn = none ∧ (t.dither p).last = x.loop ∧
        (t.rail (optLoop p x.loop)).out = (s.rail (optLoop p x.loop)).bound base
          (base + (if flagOf (s.optCtrl p x.loop) 14 then 1 else -1) *
            roundHalfEven x.err (2 ^ fieldOf (s.optCtrl p x.loop) 11 8)) ∧
        (∀ i, i ≠ optLoop p x.loop → t.rail i = s.rail i)) ∧
      (2 * x.cyc ≤ x.half → x.taken < 2 * x.cyc → Runs (.ditherTurnEnd p) s fun t =>
        (t.dither p).turn = none ∧ t.rails = s.rails ∧
        Out.monitor (pathNum p * 8 + x.loop) base.toNat
          (s.biasVolts (pathNum p * 8 + x.loop) base.toNat) ∈ t.out))) ∧
  (∀ (s : State) (p : Path) (out : Int), s.pwr.inReset = false → out = (s.rail (optLoop p 7)).out →
    (s.optRuns p 7 = false → Answers (.rxLevelLoopUpdate p) s s.begin) ∧
    (s.optRuns p 7 = true → Runs (.rxLevelLoopUpdate p) s fun t =>
      (t.rail (optLoop p 7)).out = (s.rail (optLoop p 7)).bound out (out + loopMove (s.optCtrl p 7)
        (4 * ((s.regI Reg.MON_LOOP_SET (pathNum p * 8 + 7)).toNat : Int) -
          (((s.path p).cnv.adc.map fun a => a.rms).sum : Nat)) 4) ∧
      (∀ i, i ≠ optLoop p 7 → t.rail i = s.rail i))) ∧
  (∀ (s : State) (ses : Session) (w : Word) (v : State),
    (∀ (i : Nat) (c : ChainCfg), i = s.fld Reg.MON_CH_SEL 2 0 → c = s.chainPending i →
      w = s.withField Reg.MON_CH_CTRL 31 31 1 → v = s.stores ses Reg.MON_CH_CTRL w → Accepted s ses Reg.MON_CH_CTRL w →
      (c.ok = true → Runs (.chainApply ses) s fun t => t.chain i = { s.chain i with
          cfg := c, integ := [0, 0, 0, 0], comb := [0, 0, 0, 0], phase := 0, hist := [], left := c.taps + 3 } ∧
        (∀ k, k ≠ i → t.chain k = s.chain k)) ∧
      (c.ok = false → Writes (.chainApply ses) s ses (v.updChain i fun x => { x with refused := true }))) ∧
    (w = s.withField Reg.MON_CTRL 2 2 1 → v = s.stores ses Reg.MON_CTRL w → Accepted s ses Reg.MON_CTRL w →
      (fcalOk s.fcalPending = true → Runs (.fcalApply ses) s fun t =>
        t.mon.fcal = some s.fcalPending ∧ t.mon.fcalBad = s.mon.fcalBad) ∧
      (fcalOk s.fcalPending = false → Writes (.fcalApply ses) s ses
        ((v.setMon fun m => { m with fcalBad := true }).raise 277 0 0 0 0))) ∧
    (∀ (code : BitVec 16) (p : Path) (i id : Nat), p = pathOf (s.fld Reg.MON_OPT_SEL 0 0) →
      i = s.fld Reg.MON_LOOP_SEL 2 0 → id = optLoop p i → w = BitVec.ofNat 32 code.toNat →
      Accepted s ses Reg.MON_DAC_CODE w → Runs (.dacCodeWrite ses code) s fun t =>
        (t.rail id).min = code.toNat ∧ (t.rail id).max = code.toNat ∧ (t.rail id).out = code.toNat ∧
        (t.rail id).step = (s.rail id).step ∧ (t.rail id).freeze = (s.rail id).freeze ∧
        (∀ k, k ≠ id → t.rail k = s.rail k) ∧ s.biased (pathNum p * 8 + i) code.toNat ∈ t.out))

/-! ### Events, the journal, counters and limits (18_control_and_observability.md, 19_power_and_bringup.md) -/

/-- R464, R466, R468: an unlimited occurrence of an event sets its pending bit, takes the next sequence number and,
while two records are free, writes its record of 32 bytes at `EVT_JRN_WR`; with fewer free it is lost and keeps its
number. A limited occurrence that was raised in this second is suppressed: it does none of this. The model's choices in
it: log 15. -/
def Obligations.EventRecords : Prop :=
  ∀ (s : State) (o : Occ), o.kind = 0 →
    ((o.limit = 0 ∨ evKey o ∉ s.evt.raised) →
      (s.raiseOcc o).evt.pend.testBit o.src = true ∧ (s.raiseOcc o).evt.seq = s.evt.seq + 1 ∧
      (∀ n, n ≠ o.src → (s.raiseOcc o).evt.pend.testBit n = s.evt.pend.testBit n) ∧
      (2 ≤ s.jrnFree → (s.raiseOcc o).evt.wr = (s.evt.wr + 1) % 32768 ∧ (s.raiseOcc o).evt.lost = s.evt.lost ∧
        ∃ supp, ∀ i, i < 32 → (s.raiseOcc o).mem.byte (0x06C00000 + 32 * (s.evt.wr % 32768) + i) =
          (recordBytes (s.evt.seq + 1).toNat s.mst.sec s.mst.ns (fieldOf (s.regI Reg.EVT_SRC_CFG o.src) 29 27)
            o supp).getD i 0) ∧
      (s.jrnFree < 2 → (s.raiseOcc o).evt.wr = s.evt.wr ∧ (s.raiseOcc o).mem = s.mem ∧
        (s.raiseOcc o).evt.lost = some (match s.evt.lost with
          | none => ((s.evt.seq + 1).toNat, 1) | some (f, n) => (f, n + 1)))) ∧
    (o.limit ≠ 0 → evKey o ∈ s.evt.raised →
      (s.raiseOcc o).evt = { s.evt with supp := (s.raiseOcc o).evt.supp } ∧ (s.raiseOcc o).mem = s.mem ∧
      (s.raiseOcc o).out = s.out)

/-- R465, R468, R469: the end of a vector's holdoff sends one message for the raises during it; the loss marker is
written once two records are free; a full sector is written to the spill area and a sector whose flash fails is skipped;
a spill read brings a sector into its buffer. R471, R474, R477: writing a counter's entry sets the counter to 0, a dump
that has been written returns its buffer to the host, and a wayside item that ends is noted, a failed one reported. The
model's choices in it: log 62, 63, 143. -/
def Obligations.JournalAndCounters : Prop :=
  (∀ s : State, s.pwr.inReset = false →
    (∀ (v : BitVec 6) (n : Nat) (e : EvtState), n = v.toNat →
      e = { s.evt with holdoff := s.evt.holdoff.filter (· != n), held := s.evt.held.filter (· != n) } →
      (n ∉ s.evt.held → Answers (.holdoffEnd v) s { s.begin with evt := e }) ∧
      (n ∈ s.evt.held → s.ctl.pcieUp = true → s.fld Reg.EVT_CTRL 15 0 ≠ 0 →
        flagOf (s.reg (Reg.MSIX_TABLE + 16 * n + 12)) 0 = false → Answers (.holdoffEnd v) s
        (({ s.begin with evt := { e with holdoff := e.holdoff ++ [n] } }).emit (.msix n)))) ∧
    (s.evt.lost = none ∨ s.jrnFree < 2 → Answers .lossMarker s s.begin) ∧
    (∀ f n, s.evt.lost = some (f, n) → 3 ≤ s.jrnFree → evKey ⟨0, 303, 1, 0, f, n, false, 1⟩ ∉ s.evt.raised → Inv s →
      Runs .lossMarker s fun t => t.evt.lost = none ∧ t.evt.seq = s.evt.seq + 2 ∧
        t.evt.wr = (s.evt.wr + 2) % 32768 ∧ t.evt.pend.testBit 303 = true ∧
        ∀ i, i < 32 → t.mem.byte (0x06C00000 + 32 * (s.evt.wr % 32768) + i) = (recordBytes (s.evt.seq + 1).toNat
          s.mst.sec s.mst.ns (fieldOf (s.regI Reg.EVT_SRC_CFG 303) 29 27) ⟨4, 303, 1, 0, f, n, false, 0⟩ 0).getD i 0) ∧
    (∀ f n, s.evt.lost = some (f, n) → s.jrnFree = 2 → evKey ⟨0, 303, 1, 0, f, n, false, 1⟩ ∉ s.evt.raised → Inv s →
      Runs .lossMarker s fun t => t.evt.lost = some ((s.evt.seq + 2).toNat, 1) ∧ t.evt.seq = s.evt.seq + 2 ∧
        t.evt.wr = (s.evt.wr + 1) % 32768 ∧ t.evt.pend.testBit 303 = true ∧
        ∀ i, i < 32 → t.mem.byte (0x06C00000 + 32 * (s.evt.wr % 32768) + i) = (recordBytes (s.evt.seq + 1).toNat
          s.mst.sec s.mst.ns (fieldOf (s.regI Reg.EVT_SRC_CFG 303) 29 27) ⟨4, 303, 1, 0, f, n, false, 0⟩ 0).getD i 0) ∧
    (s.lifecycle ≠ 1 ∧ s.lifecycle ≠ 2 ∨ s.evt.spill = [] ∨ s.fld Reg.EVT_SPILL_CTRL 23 0 = 0 ∨
      s.evt.spill.length < 128 ∧ s.evt.spillFlush = false → ∀ b, Answers (.spillSectorWrite b) s s.begin) ∧
    (∀ (k at_ : Nat), k = s.fld Reg.EVT_SPILL_CTRL 23 0 → k ≠ 0 → at_ = s.evt.spillNext % k →
      s.lifecycle = 1 ∨ s.lifecycle = 2 → 128 ≤ s.evt.spill.length →
      ((∀ i ∈ s.evt.spill.take 128, s.mem.outcome s.begin.freeCtr (journalBase / 32 + i) = .clean) →
        Answers (.spillSectorWrite false) s { s.begin with evt := { s.evt with
          spill := s.evt.spill.drop 128, spillNext := (at_ + 1) % k
          spillFlush := s.evt.spillFlush && !(s.evt.spill.drop 128).isEmpty
          sectors := sparseSet (fun _ => none) at_ (some (s.tru.sectorKey, (s.evt.spill.take 128).flatMap fun i =>
            s.mem.readBytes s.begin.freeCtr (journalBase + 32 * i) 32)) s.evt.sectors } }) ∧
      (∀ n, n < 128 → s.mem.outcome s.begin.freeCtr (journalBase / 32 + s.evt.spill.getD n 0) = .uncorrectable →
        Runs (.spillSectorWrite false) s fun t => (s.evt.spill.drop 128) <+: t.evt.spill ∧ ∃ b,
          sparseGet (fun _ => none) t.evt.sectors at_ = some (s.tru.sectorKey, b) ∧ b.length = 4096 ∧
          (b.getD (32 * n + 15) 0).toNat.testBit 3 = true ∧ ∀ i, 16 ≤ i → i < 32 → b.getD (32 * n + i) 0 = 0) ∧
      Answers (.spillSectorWrite true) s (({ s.begin with evt := { s.evt with
        spillNext := (at_ + 1) % k, sectors := sparseSet (fun _ => none) at_ none s.evt.sectors } }).occ
          ⟨0, 303, 2, 0, at_, 0, false, 1⟩)) ∧
    (s.evt.spillRead = none → Answers .spillReadDone s s.begin) ∧
    (∀ n b, s.evt.spillRead = some n → sparseGet (fun _ => none) s.evt.sectors n = some (s.tru.sectorKey, b) →
      b.length = 4096 → s.lifecycle = 1 ∨ s.lifecycle = 2 → Inv s →
      Runs .spillReadDone s fun t => t.evt = { s.evt with spillRead := none, spillDone := true } ∧
        (∀ i, i < 4096 → t.mem.byte (0x06D00000 + i) = b.getD i 0) ∧
        (∀ a, a < 0x06D00000 ∨ 0x06D01000 ≤ a → t.mem.byte a = s.mem.byte a)) ∧
    (s.pmc.job = none → Answers .dumpWritten s s.begin) ∧
    (∀ j : DumpJob, s.pmc.job = some j → flagOf (s.reg Reg.PMC_DUMP_VEC) 6 = false → Answers .dumpWritten s
      { (s.begin.emit (.dma (s.dumpAddr + 64) (j.bytes.drop 64))).emit (.dma s.dumpAddr (j.bytes.take 64)) with
        pmc := { s.pmc with
          job := none, dumps := (s.pmc.dumps + 1) % 65536, dev := (s.pmc.dev + 1) % (s.fld Reg.PMC_DUMP_BUF 31 24 + 1)
          trunc := if j.cut then min 255 (s.pmc.trunc + 1) else s.pmc.trunc } }) ∧
    (∀ (item : BitVec 2) (i : Nat) (found : Option Word) (m : PmcState), i = item.toNat →
      m = { s.pmc with
        wstRunning := s.pmc.wstRunning - 2 ^ i, wstDone := s.pmc.wstDone ||| 2 ^ i
        wstBlock := if i = 0 then (s.pmc.wstBlock + 1) % 16 else s.pmc.wstBlock
        wstEngine := if i = 2 then (s.pmc.wstEngine + 1) % 64 else s.pmc.wstEngine } →
      (s.pmc.wstRunning.testBit i = false → ∀ ups, Answers (.waysideItemDone item found ups) s s.begin) ∧
      (s.pmc.wstRunning.testBit i = true →
        (∀ bad : Option Nat, i ≠ 0 → bad = (if i = 3 then s.tru.waysideOtp else found.map fun d => d.toNat) →
          (bad = none → Answers (.waysideItemDone item found []) s { s.begin with pmc := m }) ∧
          (∀ d, bad = some d → Answers (.waysideItemDone item found []) s (({ s.begin with pmc := { m with
            wstFail := (m.wstFail + 1) % 65536, wstFailed := m.wstFailed ||| 2 ^ i } }).occ
              ⟨0, 303, 4, i, d, 0, false, 2⟩))) ∧
        (i = 0 → s.mem.merge = [] → s.mem.stalled = [] → Inv s → Runs (.waysideItemDone item found []) s fun t =>
          t.pmc.wstRunning = m.wstRunning ∧ t.pmc.wstDone = m.wstDone ∧ t.pmc.wstFail = s.pmc.wstFail ∧
          t.pmc.wstBlock = m.wstBlock ∧
          (∀ j, j < 32768 → t.mem.byte (s.waysideBlock + j) = (s.waysidePattern s.waysideBlock).getD j 0) ∧
          (∀ x, x < s.waysideBlock ∨ s.waysideBlock + 32768 ≤ x → t.mem.byte x = s.mem.byte x))))) ∧
  (∀ (s : State) (ses : Session),
    (∀ (sector : BitVec 24) (w : Word) (v : State), w = BitVec.ofNat 32 (2 ^ 31 + sector.toNat) →
      v = s.stores ses Reg.EVT_SPILL_CMD w → Accepted s ses Reg.EVT_SPILL_CMD w → Writes (.spillRead ses sector) s ses
        { v with evt := { v.evt with spillRead := some sector.toNat } }) ∧
    (∀ (n : BitVec 13) (w : Word) (v : State), v = s.stores ses (Reg.PMC_CFG0 + 4 * n.toNat) w →
      Accepted s ses (Reg.PMC_CFG0 + 4 * n.toNat) w → Writes (.pmcCfgWrite ses n w) s ses
        { v with pmc := { v.pmc with cnt := sparseSet (fun _ => 0) n.toNat 0 v.pmc.cnt } })) ∧
  (∀ (s : State) (cls idx amount n : Nat), n < 8192 →
    (∀ e ∈ s.cfg, Reg.PMC_CFG0 ≤ e.1 → e.1 < Reg.PMC_CFG0 + 4 * 8192 → fieldOf e.2 29 24 = cls →
      fieldOf e.2 15 0 = idx → e.1 = Reg.PMC_CFG0 + 4 * n) →
    (∀ w, (s.cfg.filter fun e => decide (e.1 = Reg.PMC_CFG0 + 4 * n)) = [(Reg.PMC_CFG0 + 4 * n, w)] →
      fieldOf w 29 24 = cls → fieldOf w 15 0 = idx →
      s.count cls idx amount = { s with pmc := pmcAdd s.pmcCfg 4 n amount s.pmc }) ∧
    ((∀ w, (Reg.PMC_CFG0 + 4 * n, w) ∈ s.cfg → fieldOf w 29 24 ≠ cls ∨ fieldOf w 15 0 ≠ idx) →
      s.count cls idx amount = s))
end

