-- ==== Sys2Proof/Laws/Fields.lean ====
section
/-!
SUPPORT. Fields of words: what a word holds after one of its fields is replaced.
-/
namespace Sys2Proof.Machine

theorem flagOf_testBit (w : Word) (i : Nat) : flagOf w i = w.toNat.testBit i := rfl

/-- Bits of the number below a multiple of a power of two. -/
theorem testBit_parts {a v n lo i k : Nat} (hv : v < 2 ^ k) (hn : n < 2 ^ lo) :
    (a * 2 ^ (lo + k) + v * 2 ^ lo + n).testBit i =
      if i < lo then n.testBit i else if i < lo + k then v.testBit (i - lo) else a.testBit (i - (lo + k)) := by
  have e : a * 2 ^ (lo + k) + v * 2 ^ lo + n = 2 ^ lo * (2 ^ k * a + v) + n := by ring
  rw [e, Nat.testBit_two_pow_mul_add _ hn]
  split
  · rfl
  · rw [Nat.testBit_two_pow_mul_add _ hv]
    by_cases h : i < lo + k
    · rw [if_pos h, if_pos (by omega)]
    · rw [if_neg h, if_neg (by omega), Nat.sub_sub]

/-- A number with bits [hi:lo] replaced, by its parts. -/
theorem replaced_parts (n lo k v : Nat) :
    n - (n / 2 ^ lo) % 2 ^ k * 2 ^ lo + (v % 2 ^ k) * 2 ^ lo =
      n / 2 ^ (lo + k) * 2 ^ (lo + k) + (v % 2 ^ k) * 2 ^ lo + n % 2 ^ lo := by
  have h1 := Nat.div_add_mod n (2 ^ lo)
  have h2 := Nat.div_add_mod (n / 2 ^ lo) (2 ^ k)
  have h3 : n / 2 ^ lo / 2 ^ k = n / 2 ^ (lo + k) := by rw [Nat.div_div_eq_div_mul, pow_add]
  rw [h3] at h2
  have e : n = n / 2 ^ (lo + k) * 2 ^ (lo + k) + n / 2 ^ lo % 2 ^ k * 2 ^ lo + n % 2 ^ lo := by
    conv_lhs => rw [← h1, ← h2]
    ring
  omega

/-- A bit of a word with a field replaced: inside the field the new value's, outside the old word's. -/
theorem testBit_setField (w : Word) {hi lo v i : Nat} (hl : lo ≤ hi) (hh : hi < 32) :
    (setField w hi lo v).toNat.testBit i = if lo ≤ i ∧ i ≤ hi then v.testBit (i - lo) else w.toNat.testBit i := by
  have hk : hi + 1 = lo + (hi + 1 - lo) := by omega
  generalize hkk : hi + 1 - lo = k at hk
  have hw : w.toNat < 2 ^ 32 := w.isLt
  have key : ∀ j, (w.toNat - bitsOf w.toNat hi lo * 2 ^ lo + (v % 2 ^ k) * 2 ^ lo).testBit j =
      if lo ≤ j ∧ j ≤ hi then v.testBit (j - lo) else w.toNat.testBit j := by
    intro j
    rw [show bitsOf w.toNat hi lo = (w.toNat / 2 ^ lo) % 2 ^ k by rw [bitsOf, hkk], replaced_parts,
      testBit_parts (Nat.mod_lt _ (Nat.two_pow_pos _)) (Nat.mod_lt _ (Nat.two_pow_pos _))]
    by_cases h1 : j < lo
    · rw [if_pos h1, if_neg (by omega), Nat.testBit_mod_two_pow, decide_eq_true h1, Bool.true_and]
    · by_cases h2 : j < lo + k
      · rw [if_neg h1, if_pos h2, if_pos (by omega), Nat.testBit_mod_two_pow, decide_eq_true (by omega),
          Bool.true_and]
      · rw [if_neg h1, if_neg h2, if_neg (by omega), Nat.testBit_div_two_pow]
        congr 1; omega
  unfold setField
  rw [hkk]
  simp only [BitVec.toNat_ofNat, Nat.testBit_mod_two_pow, key]
  by_cases hi32 : i < 32
  · simp [hi32]
  · have : w.toNat.testBit i = false := Nat.testBit_lt_two_pow (Nat.lt_of_lt_of_le hw (Nat.pow_le_pow_right (by decide) (by omega)))
    simp only [hi32, decide_false, Bool.false_and]
    split
    · omega
    · exact this.symm

theorem flagOf_setField (w : Word) {hi lo v i : Nat} (hl : lo ≤ hi) (hh : hi < 32) :
    flagOf (setField w hi lo v) i = if lo ≤ i ∧ i ≤ hi then v.testBit (i - lo) else flagOf w i :=
  testBit_setField w hl hh

/-- A bit of a field. -/
theorem testBit_fieldOf (w : Word) {hi lo i : Nat} (hl : lo ≤ hi) :
    (fieldOf w hi lo).testBit i = (decide (i ≤ hi - lo) && w.toNat.testBit (lo + i)) := by
  unfold fieldOf bitsOf
  rw [Nat.testBit_mod_two_pow, Nat.testBit_div_two_pow]
  congr 1
  · simp only [decide_eq_decide]; omega
  · congr 1; omega

/-- A field reads as what was put there. -/
theorem fieldOf_setField_same (w : Word) {hi lo v : Nat} (hl : lo ≤ hi) (hh : hi < 32) :
    fieldOf (setField w hi lo v) hi lo = v % 2 ^ (hi + 1 - lo) := by
  refine Nat.eq_of_testBit_eq fun i => ?_
  rw [testBit_fieldOf _ hl, testBit_setField w hl hh, Nat.testBit_mod_two_pow]
  by_cases h : i ≤ hi - lo
  · rw [if_pos (by omega), decide_eq_true h, decide_eq_true (by omega), Nat.add_sub_cancel_left]
  · rw [decide_eq_false h, decide_eq_false (by omega), Bool.false_and, Bool.false_and]

/-- Replacing a field leaves a field apart from it alone. -/
theorem fieldOf_setField_other (w : Word) {hi lo v hi' lo' : Nat} (hl : lo ≤ hi) (hh : hi < 32) (hl' : lo' ≤ hi')
    (hd : hi < lo' ∨ hi' < lo) : fieldOf (setField w hi lo v) hi' lo' = fieldOf w hi' lo' := by
  refine Nat.eq_of_testBit_eq fun i => ?_
  rw [testBit_fieldOf _ hl', testBit_fieldOf _ hl', testBit_setField w hl hh]
  by_cases h : i ≤ hi' - lo'
  · rw [if_neg (by omega)]
  · simp [h]

/-- A bit of a masked word. -/
theorem flagOf_and (w m : Word) (i : Nat) : flagOf (w &&& m) i = (flagOf w i && flagOf m i) := by
  simp [flagOf, Nat.testBit_and]

theorem flagOf_or (w m : Word) (i : Nat) : flagOf (w ||| m) i = (flagOf w i || flagOf m i) := by
  simp [flagOf, Nat.testBit_or]

end Sys2Proof.Machine
end

