-- ==== Sys2Proof/Laws/Sparse.lean ====
section
/-!
SUPPORT. Sparse storage: a read after a write, and the canonical form that every write keeps.
-/
namespace Sys2Proof.Machine

variable {α : Type} [DecidableEq α] {d : Nat → α}

theorem sparseWfFrom_mono {m : Sparse α} {lo lo' : Nat} (h : lo' ≤ lo) (hm : sparseWfFrom d lo m = true) :
    sparseWfFrom d lo' m = true := by
  cases m with
  | nil => rfl
  | cons e m => simp_all [sparseWfFrom]; omega

/-! ### Noting and removing -/

omit [DecidableEq α] in
theorem sparseGet_noteAt_same {m : Sparse α} {k : Nat} {v : α} : sparseGet d (noteAt k v m) k = v := by
  induction m with
  | nil => simp [noteAt, sparseGet]
  | cons e m ih =>
    obtain ⟨a, w⟩ := e
    simp only [noteAt]
    split
    · simp [sparseGet]
    · split
      · simp [sparseGet]
      · rename_i h1 h2
        simpa [sparseGet, Ne.symm h2] using ih

omit [DecidableEq α] in
theorem sparseGet_noteAt_other {m : Sparse α} {k j : Nat} {v : α} (h : j ≠ k) :
    sparseGet d (noteAt k v m) j = sparseGet d m j := by
  induction m with
  | nil => simp [noteAt, sparseGet, Ne.symm h]
  | cons e m ih =>
    obtain ⟨a, w⟩ := e
    simp only [noteAt]
    split
    · simp [sparseGet, Ne.symm h]
    · split
      · rename_i h1 h2
        subst h2
        simp [sparseGet, Ne.symm h]
      · simp only [sparseGet, ih]

omit [DecidableEq α] in
theorem sparseGet_filter {m : Sparse α} {k j : Nat} :
    sparseGet d (m.filter fun e => e.1 != k) j = if j = k then d k else sparseGet d m j := by
  induction m with
  | nil => simp only [List.filter_nil, sparseGet]; split <;> simp_all
  | cons e m ih =>
    obtain ⟨a, w⟩ := e
    by_cases ha : a = k
    · subst ha
      simp only [List.filter_cons, bne_self_eq_false, Bool.false_eq_true, if_false, ih, sparseGet]
      by_cases hj : j = a
      · simp [hj]
      · simp [hj, Ne.symm hj]
    · simp only [List.filter_cons, bne_iff_ne, ne_eq, ha, not_false_eq_true, if_true, sparseGet, ih]
      by_cases hj : j = k
      · subst hj; simp [ha]
      · simp [hj]

theorem noteAt_wfFrom {m : Sparse α} {lo k : Nat} {v : α} (hm : sparseWfFrom d lo m = true) (h : lo ≤ k)
    (hv : v ≠ d k) : sparseWfFrom d lo (noteAt k v m) = true := by
  induction m generalizing lo with
  | nil => simp [noteAt, sparseWfFrom, h, hv]
  | cons e m ih =>
    obtain ⟨a, w⟩ := e
    simp only [sparseWfFrom, Bool.and_eq_true, decide_eq_true_eq] at hm
    simp only [noteAt]
    split
    · simp only [sparseWfFrom, Bool.and_eq_true, decide_eq_true_eq]
      exact ⟨⟨h, hv⟩, ⟨by omega, hm.1.2⟩, hm.2⟩
    · split
      · rename_i h1 h2
        subst h2
        simp only [sparseWfFrom, Bool.and_eq_true, decide_eq_true_eq]
        exact ⟨⟨h, hv⟩, hm.2⟩
      · simp only [sparseWfFrom, Bool.and_eq_true, decide_eq_true_eq]
        exact ⟨hm.1, ih hm.2 (by omega)⟩

theorem sparseFilter_wfFrom {m : Sparse α} {lo : Nat} (p : Nat × α → Bool) (hm : sparseWfFrom d lo m = true) :
    sparseWfFrom d lo (m.filter p) = true := by
  induction m generalizing lo with
  | nil => rfl
  | cons e m ih =>
    obtain ⟨a, w⟩ := e
    simp only [sparseWfFrom, Bool.and_eq_true, decide_eq_true_eq] at hm
    rw [List.filter_cons]
    split
    · simp only [sparseWfFrom, Bool.and_eq_true, decide_eq_true_eq]
      exact ⟨hm.1, ih hm.2⟩
    · exact sparseWfFrom_mono (by omega) (ih hm.2)

/-! ### Storing -/

theorem sparseSet_eq {m : Sparse α} {k : Nat} {v : α} :
    sparseSet d k v m = if v = d k then m.filter fun e => e.1 != k else noteAt k v m := by
  cases m <;> rfl

/-- A read after a write to the same place gives the value written. -/
@[simp] theorem sparseGet_set_same {m : Sparse α} {k : Nat} {v : α} : sparseGet d (sparseSet d k v m) k = v := by
  rw [sparseSet_eq]
  split
  · rw [sparseGet_filter, if_pos rfl]; exact Eq.symm ‹_›
  · exact sparseGet_noteAt_same

/-- A write leaves every other place alone. -/
theorem sparseGet_set_other {m : Sparse α} {k j : Nat} {v : α} (h : j ≠ k) :
    sparseGet d (sparseSet d k v m) j = sparseGet d m j := by
  rw [sparseSet_eq]
  split
  · rw [sparseGet_filter, if_neg h]
  · exact sparseGet_noteAt_other h

/-- Every write keeps the canonical form. -/
theorem sparseSet_wf {m : Sparse α} {k : Nat} {v : α} (hm : sparseWf d m = true) :
    sparseWf d (sparseSet d k v m) = true := by
  rw [sparseSet_eq]
  split
  · exact sparseFilter_wfFrom _ hm
  · exact noteAt_wfFrom hm (Nat.zero_le k) ‹_›

theorem sparseSetList_wf {m : Sparse α} {k : Nat} (l : List α) (hm : sparseWf d m = true) :
    sparseWf d (sparseSetList d k l m) = true := by
  induction l generalizing k m with
  | nil => exact hm
  | cons v l ih => exact ih (sparseSet_wf hm)

/-- A place outside the range of a list write is left alone. -/
theorem sparseGet_setList_other {m : Sparse α} {k j : Nat} (l : List α) (h : j < k ∨ k + l.length ≤ j) :
    sparseGet d (sparseSetList d k l m) j = sparseGet d m j := by
  induction l generalizing k m with
  | nil => rfl
  | cons v l ih =>
    simp only [List.length_cons] at h
    rw [sparseSetList, ih (by omega), sparseGet_set_other (by omega)]

/-- A place inside the range of a list write reads as the item written there. -/
theorem sparseGet_setList {m : Sparse α} {k i : Nat} (l : List α) (h : i < l.length) :
    sparseGet d (sparseSetList d k l m) (k + i) = l[i] := by
  induction l generalizing k i m with
  | nil => simp at h
  | cons v l ih =>
    cases i with
    | zero =>
      rw [sparseSetList, sparseGet_setList_other _ (by omega)]
      exact sparseGet_set_same
    | succ i =>
      have := ih (k := k + 1) (i := i) (m := sparseSet d k v m) (by simpa using h)
      rw [sparseSetList, show k + (i + 1) = k + 1 + i by omega, this]
      rfl

end Sys2Proof.Machine
end

