-- ==== Sys2Proof/Laws/State.lean ====
section
/-!
SUPPORT. What each update of the state leaves alone: for every update one theorem whose parts are one equation per field,
and which of a state's parts the updates of a path change.
-/
namespace Sys2Proof.Machine

@[simp] theorem State.updPath_frame (s : State) (p : Path) (f : PathState → PathState) :
    (s.updPath p f).pending = s.pending ∧ (s.updPath p f).out = s.out ∧ (s.updPath p f).batch = s.batch ∧
    (s.updPath p f).freeCtr = s.freeCtr ∧ (s.updPath p f).upNs = s.upNs ∧ (s.updPath p f).phase = s.phase ∧
    (s.updPath p f).txFc = s.txFc ∧ (s.updPath p f).fcLoaded = s.fcLoaded ∧ (s.updPath p f).cfg = s.cfg ∧
    (s.updPath p f).shadow = s.shadow ∧ (s.updPath p f).custom = s.custom ∧ (s.updPath p f).mst = s.mst ∧
    (s.updPath p f).evt = s.evt ∧ (s.updPath p f).ctl = s.ctl ∧ (s.updPath p f).pmc = s.pmc ∧
    (s.updPath p f).mem = s.mem ∧ (s.updPath p f).pwr = s.pwr ∧ (s.updPath p f).rte = s.rte ∧
    (s.updPath p f).rails = s.rails ∧ (s.updPath p f).cnt = s.cnt ∧ (s.updPath p f).tables = s.tables ∧
    (s.updPath p f).tblShadow = s.tblShadow ∧ (s.updPath p f).hbDrop = s.hbDrop ∧ (s.updPath p f).tru = s.tru ∧
    (s.updPath p f).sch = s.sch ∧ (s.updPath p f).pkt = s.pkt ∧ (s.updPath p f).hsf = s.hsf ∧
    (s.updPath p f).hsl = s.hsl ∧ (s.updPath p f).mon = s.mon := by
  cases p <;> and_intros <;> rfl

@[simp] theorem State.updMstPath_frame (s : State) (p : Path) (f : PathMst → PathMst) :
    (s.updMstPath p f).pending = s.pending ∧ (s.updMstPath p f).out = s.out ∧ (s.updMstPath p f).batch = s.batch ∧
    (s.updMstPath p f).freeCtr = s.freeCtr ∧ (s.updMstPath p f).upNs = s.upNs ∧ (s.updMstPath p f).phase = s.phase ∧
    (s.updMstPath p f).txFc = s.txFc ∧ (s.updMstPath p f).fcLoaded = s.fcLoaded ∧ (s.updMstPath p f).cfg = s.cfg ∧
    (s.updMstPath p f).shadow = s.shadow ∧ (s.updMstPath p f).custom = s.custom ∧ (s.updMstPath p f).evt = s.evt ∧
    (s.updMstPath p f).ctl = s.ctl ∧ (s.updMstPath p f).pmc = s.pmc ∧ (s.updMstPath p f).mem = s.mem ∧
    (s.updMstPath p f).pwr = s.pwr ∧ (s.updMstPath p f).rte = s.rte ∧ (s.updMstPath p f).rails = s.rails ∧
    (s.updMstPath p f).pa = s.pa ∧ (s.updMstPath p f).pb = s.pb ∧ (s.updMstPath p f).cnt = s.cnt ∧
    (s.updMstPath p f).tables = s.tables ∧ (s.updMstPath p f).tblShadow = s.tblShadow ∧
    (s.updMstPath p f).hbDrop = s.hbDrop ∧ (s.updMstPath p f).tru = s.tru ∧ (s.updMstPath p f).sch = s.sch ∧
    (s.updMstPath p f).pkt = s.pkt ∧ (s.updMstPath p f).hsf = s.hsf ∧ (s.updMstPath p f).hsl = s.hsl ∧
    (s.updMstPath p f).mon = s.mon := by
  cases p <;> and_intros <;> rfl

@[simp] theorem State.updCnv_frame (s : State) (p : Path) (f : CnvState → CnvState) :
    (s.updCnv p f).pending = s.pending ∧ (s.updCnv p f).out = s.out ∧ (s.updCnv p f).batch = s.batch ∧
    (s.updCnv p f).freeCtr = s.freeCtr ∧ (s.updCnv p f).upNs = s.upNs ∧ (s.updCnv p f).phase = s.phase ∧
    (s.updCnv p f).txFc = s.txFc ∧ (s.updCnv p f).fcLoaded = s.fcLoaded ∧ (s.updCnv p f).cfg = s.cfg ∧
    (s.updCnv p f).shadow = s.shadow ∧ (s.updCnv p f).custom = s.custom ∧ (s.updCnv p f).mst = s.mst ∧
    (s.updCnv p f).evt = s.evt ∧ (s.updCnv p f).ctl = s.ctl ∧ (s.updCnv p f).pmc = s.pmc ∧ (s.updCnv p f).mem = s.mem ∧
    (s.updCnv p f).pwr = s.pwr ∧ (s.updCnv p f).rte = s.rte ∧ (s.updCnv p f).rails = s.rails ∧
    (s.updCnv p f).cnt = s.cnt ∧ (s.updCnv p f).tables = s.tables ∧ (s.updCnv p f).tblShadow = s.tblShadow ∧
    (s.updCnv p f).hbDrop = s.hbDrop ∧ (s.updCnv p f).tru = s.tru ∧ (s.updCnv p f).sch = s.sch ∧
    (s.updCnv p f).pkt = s.pkt ∧ (s.updCnv p f).hsf = s.hsf ∧ (s.updCnv p f).hsl = s.hsl ∧ (s.updCnv p f).mon = s.mon := by
  cases p <;> and_intros <;> rfl

@[simp] theorem State.updRxd_frame (s : State) (p : Path) (f : RxdState → RxdState) :
    (s.updRxd p f).pending = s.pending ∧ (s.updRxd p f).out = s.out ∧ (s.updRxd p f).batch = s.batch ∧
    (s.updRxd p f).freeCtr = s.freeCtr ∧ (s.updRxd p f).upNs = s.upNs ∧ (s.updRxd p f).phase = s.phase ∧
    (s.updRxd p f).txFc = s.txFc ∧ (s.updRxd p f).fcLoaded = s.fcLoaded ∧ (s.updRxd p f).cfg = s.cfg ∧
    (s.updRxd p f).shadow = s.shadow ∧ (s.updRxd p f).custom = s.custom ∧ (s.updRxd p f).mst = s.mst ∧
    (s.updRxd p f).evt = s.evt ∧ (s.updRxd p f).ctl = s.ctl ∧ (s.updRxd p f).pmc = s.pmc ∧ (s.updRxd p f).mem = s.mem ∧
    (s.updRxd p f).pwr = s.pwr ∧ (s.updRxd p f).rte = s.rte ∧ (s.updRxd p f).rails = s.rails ∧
    (s.updRxd p f).cnt = s.cnt ∧ (s.updRxd p f).tables = s.tables ∧ (s.updRxd p f).tblShadow = s.tblShadow ∧
    (s.updRxd p f).hbDrop = s.hbDrop ∧ (s.updRxd p f).tru = s.tru ∧ (s.updRxd p f).sch = s.sch ∧
    (s.updRxd p f).pkt = s.pkt ∧ (s.updRxd p f).hsf = s.hsf ∧ (s.updRxd p f).hsl = s.hsl ∧ (s.updRxd p f).mon = s.mon := by
  cases p <;> and_intros <;> rfl

@[simp] theorem State.updTxd_frame (s : State) (p : Path) (f : TxdState → TxdState) :
    (s.updTxd p f).pending = s.pending ∧ (s.updTxd p f).out = s.out ∧ (s.updTxd p f).batch = s.batch ∧
    (s.updTxd p f).freeCtr = s.freeCtr ∧ (s.updTxd p f).upNs = s.upNs ∧ (s.updTxd p f).phase = s.phase ∧
    (s.updTxd p f).txFc = s.txFc ∧ (s.updTxd p f).fcLoaded = s.fcLoaded ∧ (s.updTxd p f).cfg = s.cfg ∧
    (s.updTxd p f).shadow = s.shadow ∧ (s.updTxd p f).custom = s.custom ∧ (s.updTxd p f).mst = s.mst ∧
    (s.updTxd p f).evt = s.evt ∧ (s.updTxd p f).ctl = s.ctl ∧ (s.updTxd p f).pmc = s.pmc ∧ (s.updTxd p f).mem = s.mem ∧
    (s.updTxd p f).pwr = s.pwr ∧ (s.updTxd p f).rte = s.rte ∧ (s.updTxd p f).rails = s.rails ∧
    (s.updTxd p f).cnt = s.cnt ∧ (s.updTxd p f).tables = s.tables ∧ (s.updTxd p f).tblShadow = s.tblShadow ∧
    (s.updTxd p f).hbDrop = s.hbDrop ∧ (s.updTxd p f).tru = s.tru ∧ (s.updTxd p f).sch = s.sch ∧
    (s.updTxd p f).pkt = s.pkt ∧ (s.updTxd p f).hsf = s.hsf ∧ (s.updTxd p f).hsl = s.hsl ∧ (s.updTxd p f).mon = s.mon := by
  cases p <;> and_intros <;> rfl

@[simp] theorem State.updTrk_frame (s : State) (p : Path) (f : TrkState → TrkState) :
    (s.updTrk p f).pending = s.pending ∧ (s.updTrk p f).out = s.out ∧ (s.updTrk p f).batch = s.batch ∧
    (s.updTrk p f).freeCtr = s.freeCtr ∧ (s.updTrk p f).upNs = s.upNs ∧ (s.updTrk p f).phase = s.phase ∧
    (s.updTrk p f).txFc = s.txFc ∧ (s.updTrk p f).fcLoaded = s.fcLoaded ∧ (s.updTrk p f).cfg = s.cfg ∧
    (s.updTrk p f).shadow = s.shadow ∧ (s.updTrk p f).custom = s.custom ∧ (s.updTrk p f).mst = s.mst ∧
    (s.updTrk p f).evt = s.evt ∧ (s.updTrk p f).ctl = s.ctl ∧ (s.updTrk p f).pmc = s.pmc ∧ (s.updTrk p f).mem = s.mem ∧
    (s.updTrk p f).pwr = s.pwr ∧ (s.updTrk p f).rte = s.rte ∧ (s.updTrk p f).rails = s.rails ∧
    (s.updTrk p f).cnt = s.cnt ∧ (s.updTrk p f).tables = s.tables ∧ (s.updTrk p f).tblShadow = s.tblShadow ∧
    (s.updTrk p f).hbDrop = s.hbDrop ∧ (s.updTrk p f).tru = s.tru ∧ (s.updTrk p f).sch = s.sch ∧
    (s.updTrk p f).pkt = s.pkt ∧ (s.updTrk p f).hsf = s.hsf ∧ (s.updTrk p f).hsl = s.hsl ∧ (s.updTrk p f).mon = s.mon := by
  cases p <;> and_intros <;> rfl

@[simp] theorem State.updFec_frame (s : State) (p : Path) (f : FecState → FecState) :
    (s.updFec p f).pending = s.pending ∧ (s.updFec p f).out = s.out ∧ (s.updFec p f).batch = s.batch ∧
    (s.updFec p f).freeCtr = s.freeCtr ∧ (s.updFec p f).upNs = s.upNs ∧ (s.updFec p f).phase = s.phase ∧
    (s.updFec p f).txFc = s.txFc ∧ (s.updFec p f).fcLoaded = s.fcLoaded ∧ (s.updFec p f).cfg = s.cfg ∧
    (s.updFec p f).shadow = s.shadow ∧ (s.updFec p f).custom = s.custom ∧ (s.updFec p f).mst = s.mst ∧
    (s.updFec p f).evt = s.evt ∧ (s.updFec p f).ctl = s.ctl ∧ (s.updFec p f).pmc = s.pmc ∧ (s.updFec p f).mem = s.mem ∧
    (s.updFec p f).pwr = s.pwr ∧ (s.updFec p f).rte = s.rte ∧ (s.updFec p f).rails = s.rails ∧
    (s.updFec p f).cnt = s.cnt ∧ (s.updFec p f).tables = s.tables ∧ (s.updFec p f).tblShadow = s.tblShadow ∧
    (s.updFec p f).hbDrop = s.hbDrop ∧ (s.updFec p f).tru = s.tru ∧ (s.updFec p f).sch = s.sch ∧
    (s.updFec p f).pkt = s.pkt ∧ (s.updFec p f).hsf = s.hsf ∧ (s.updFec p f).hsl = s.hsl ∧ (s.updFec p f).mon = s.mon := by
  cases p <;> and_intros <;> rfl

@[simp] theorem State.updLfr_frame (s : State) (p : Path) (f : LfrState → LfrState) :
    (s.updLfr p f).pending = s.pending ∧ (s.updLfr p f).out = s.out ∧ (s.updLfr p f).batch = s.batch ∧
    (s.updLfr p f).freeCtr = s.freeCtr ∧ (s.updLfr p f).upNs = s.upNs ∧ (s.updLfr p f).phase = s.phase ∧
    (s.updLfr p f).txFc = s.txFc ∧ (s.updLfr p f).fcLoaded = s.fcLoaded ∧ (s.updLfr p f).cfg = s.cfg ∧
    (s.updLfr p f).shadow = s.shadow ∧ (s.updLfr p f).custom = s.custom ∧ (s.updLfr p f).mst = s.mst ∧
    (s.updLfr p f).evt = s.evt ∧ (s.updLfr p f).ctl = s.ctl ∧ (s.updLfr p f).pmc = s.pmc ∧ (s.updLfr p f).mem = s.mem ∧
    (s.updLfr p f).pwr = s.pwr ∧ (s.updLfr p f).rte = s.rte ∧ (s.updLfr p f).rails = s.rails ∧
    (s.updLfr p f).cnt = s.cnt ∧ (s.updLfr p f).tables = s.tables ∧ (s.updLfr p f).tblShadow = s.tblShadow ∧
    (s.updLfr p f).hbDrop = s.hbDrop ∧ (s.updLfr p f).tru = s.tru ∧ (s.updLfr p f).sch = s.sch ∧
    (s.updLfr p f).pkt = s.pkt ∧ (s.updLfr p f).hsf = s.hsf ∧ (s.updLfr p f).hsl = s.hsl ∧ (s.updLfr p f).mon = s.mon := by
  cases p <;> and_intros <;> rfl

@[simp] theorem State.updPcnt_frame (s : State) (p : Path) (f : PathCnt → PathCnt) :
    (s.updPcnt p f).pending = s.pending ∧ (s.updPcnt p f).out = s.out ∧ (s.updPcnt p f).batch = s.batch ∧
    (s.updPcnt p f).freeCtr = s.freeCtr ∧ (s.updPcnt p f).upNs = s.upNs ∧ (s.updPcnt p f).phase = s.phase ∧
    (s.updPcnt p f).txFc = s.txFc ∧ (s.updPcnt p f).fcLoaded = s.fcLoaded ∧ (s.updPcnt p f).cfg = s.cfg ∧
    (s.updPcnt p f).shadow = s.shadow ∧ (s.updPcnt p f).custom = s.custom ∧ (s.updPcnt p f).mst = s.mst ∧
    (s.updPcnt p f).evt = s.evt ∧ (s.updPcnt p f).ctl = s.ctl ∧ (s.updPcnt p f).pmc = s.pmc ∧
    (s.updPcnt p f).mem = s.mem ∧ (s.updPcnt p f).pwr = s.pwr ∧ (s.updPcnt p f).rte = s.rte ∧
    (s.updPcnt p f).rails = s.rails ∧ (s.updPcnt p f).cnt = s.cnt ∧ (s.updPcnt p f).tables = s.tables ∧
    (s.updPcnt p f).tblShadow = s.tblShadow ∧ (s.updPcnt p f).hbDrop = s.hbDrop ∧ (s.updPcnt p f).tru = s.tru ∧
    (s.updPcnt p f).sch = s.sch ∧ (s.updPcnt p f).pkt = s.pkt ∧ (s.updPcnt p f).hsf = s.hsf ∧
    (s.updPcnt p f).hsl = s.hsl ∧ (s.updPcnt p f).mon = s.mon := by
  cases p <;> and_intros <;> rfl

@[simp] theorem State.updCry_frame (s : State) (p : Path) (f : CryState → CryState) :
    (s.updCry p f).pending = s.pending ∧ (s.updCry p f).out = s.out ∧ (s.updCry p f).batch = s.batch ∧
    (s.updCry p f).freeCtr = s.freeCtr ∧ (s.updCry p f).upNs = s.upNs ∧ (s.updCry p f).phase = s.phase ∧
    (s.updCry p f).txFc = s.txFc ∧ (s.updCry p f).fcLoaded = s.fcLoaded ∧ (s.updCry p f).cfg = s.cfg ∧
    (s.updCry p f).shadow = s.shadow ∧ (s.updCry p f).custom = s.custom ∧ (s.updCry p f).mst = s.mst ∧
    (s.updCry p f).evt = s.evt ∧ (s.updCry p f).ctl = s.ctl ∧ (s.updCry p f).pmc = s.pmc ∧ (s.updCry p f).mem = s.mem ∧
    (s.updCry p f).pwr = s.pwr ∧ (s.updCry p f).rte = s.rte ∧ (s.updCry p f).rails = s.rails ∧
    (s.updCry p f).cnt = s.cnt ∧ (s.updCry p f).tables = s.tables ∧ (s.updCry p f).tblShadow = s.tblShadow ∧
    (s.updCry p f).hbDrop = s.hbDrop ∧ (s.updCry p f).tru = s.tru ∧ (s.updCry p f).sch = s.sch ∧
    (s.updCry p f).pkt = s.pkt ∧ (s.updCry p f).hsf = s.hsf ∧ (s.updCry p f).hsl = s.hsl ∧ (s.updCry p f).mon = s.mon := by
  cases p <;> and_intros <;> rfl

@[simp] theorem State.updLaser_frame (s : State) (p : Path) (f : LaserState → LaserState) :
    (s.updLaser p f).pending = s.pending ∧ (s.updLaser p f).out = s.out ∧ (s.updLaser p f).batch = s.batch ∧
    (s.updLaser p f).freeCtr = s.freeCtr ∧ (s.updLaser p f).upNs = s.upNs ∧ (s.updLaser p f).phase = s.phase ∧
    (s.updLaser p f).txFc = s.txFc ∧ (s.updLaser p f).fcLoaded = s.fcLoaded ∧ (s.updLaser p f).cfg = s.cfg ∧
    (s.updLaser p f).shadow = s.shadow ∧ (s.updLaser p f).custom = s.custom ∧ (s.updLaser p f).mst = s.mst ∧
    (s.updLaser p f).evt = s.evt ∧ (s.updLaser p f).ctl = s.ctl ∧ (s.updLaser p f).pmc = s.pmc ∧
    (s.updLaser p f).mem = s.mem ∧ (s.updLaser p f).pwr = s.pwr ∧ (s.updLaser p f).rte = s.rte ∧
    (s.updLaser p f).rails = s.rails ∧ (s.updLaser p f).cnt = s.cnt ∧ (s.updLaser p f).tables = s.tables ∧
    (s.updLaser p f).tblShadow = s.tblShadow ∧ (s.updLaser p f).hbDrop = s.hbDrop ∧ (s.updLaser p f).tru = s.tru ∧
    (s.updLaser p f).sch = s.sch ∧ (s.updLaser p f).pkt = s.pkt ∧ (s.updLaser p f).hsf = s.hsf ∧
    (s.updLaser p f).hsl = s.hsl ∧ (s.updLaser p f).mon = s.mon := by
  cases p <;> and_intros <;> rfl

@[simp] theorem State.updAdc_frame (s : State) (p : Path) (n : Nat) (f : AdcState → AdcState) :
    (s.updAdc p n f).pending = s.pending ∧ (s.updAdc p n f).out = s.out ∧ (s.updAdc p n f).batch = s.batch ∧
    (s.updAdc p n f).freeCtr = s.freeCtr ∧ (s.updAdc p n f).upNs = s.upNs ∧ (s.updAdc p n f).phase = s.phase ∧
    (s.updAdc p n f).txFc = s.txFc ∧ (s.updAdc p n f).fcLoaded = s.fcLoaded ∧ (s.updAdc p n f).cfg = s.cfg ∧
    (s.updAdc p n f).shadow = s.shadow ∧ (s.updAdc p n f).custom = s.custom ∧ (s.updAdc p n f).mst = s.mst ∧
    (s.updAdc p n f).evt = s.evt ∧ (s.updAdc p n f).ctl = s.ctl ∧ (s.updAdc p n f).pmc = s.pmc ∧
    (s.updAdc p n f).mem = s.mem ∧ (s.updAdc p n f).pwr = s.pwr ∧ (s.updAdc p n f).rte = s.rte ∧
    (s.updAdc p n f).rails = s.rails ∧ (s.updAdc p n f).cnt = s.cnt ∧ (s.updAdc p n f).tables = s.tables ∧
    (s.updAdc p n f).tblShadow = s.tblShadow ∧ (s.updAdc p n f).hbDrop = s.hbDrop ∧ (s.updAdc p n f).tru = s.tru ∧
    (s.updAdc p n f).sch = s.sch ∧ (s.updAdc p n f).pkt = s.pkt ∧ (s.updAdc p n f).hsf = s.hsf ∧
    (s.updAdc p n f).hsl = s.hsl ∧ (s.updAdc p n f).mon = s.mon := by
  cases p <;> and_intros <;> rfl

@[simp] theorem State.updChan_frame (s : State) (p : Path) (n : Nat) (f : Chan → Chan) :
    (s.updChan p n f).pending = s.pending ∧ (s.updChan p n f).out = s.out ∧ (s.updChan p n f).batch = s.batch ∧
    (s.updChan p n f).freeCtr = s.freeCtr ∧ (s.updChan p n f).upNs = s.upNs ∧ (s.updChan p n f).phase = s.phase ∧
    (s.updChan p n f).txFc = s.txFc ∧ (s.updChan p n f).fcLoaded = s.fcLoaded ∧ (s.updChan p n f).cfg = s.cfg ∧
    (s.updChan p n f).shadow = s.shadow ∧ (s.updChan p n f).custom = s.custom ∧ (s.updChan p n f).mst = s.mst ∧
    (s.updChan p n f).evt = s.evt ∧ (s.updChan p n f).ctl = s.ctl ∧ (s.updChan p n f).pmc = s.pmc ∧
    (s.updChan p n f).mem = s.mem ∧ (s.updChan p n f).pwr = s.pwr ∧ (s.updChan p n f).rte = s.rte ∧
    (s.updChan p n f).rails = s.rails ∧ (s.updChan p n f).cnt = s.cnt ∧ (s.updChan p n f).tables = s.tables ∧
    (s.updChan p n f).tblShadow = s.tblShadow ∧ (s.updChan p n f).hbDrop = s.hbDrop ∧ (s.updChan p n f).tru = s.tru ∧
    (s.updChan p n f).sch = s.sch ∧ (s.updChan p n f).pkt = s.pkt ∧ (s.updChan p n f).hsf = s.hsf ∧
    (s.updChan p n f).hsl = s.hsl ∧ (s.updChan p n f).mon = s.mon := by
  cases p <;> and_intros <;> rfl

@[simp] theorem State.updPort_frame (s : State) (n : Nat) (f : PortState → PortState) :
    (s.updPort n f).pending = s.pending ∧ (s.updPort n f).out = s.out ∧ (s.updPort n f).batch = s.batch ∧
    (s.updPort n f).freeCtr = s.freeCtr ∧ (s.updPort n f).upNs = s.upNs ∧ (s.updPort n f).phase = s.phase ∧
    (s.updPort n f).txFc = s.txFc ∧ (s.updPort n f).fcLoaded = s.fcLoaded ∧ (s.updPort n f).cfg = s.cfg ∧
    (s.updPort n f).shadow = s.shadow ∧ (s.updPort n f).custom = s.custom ∧ (s.updPort n f).mst = s.mst ∧
    (s.updPort n f).evt = s.evt ∧ (s.updPort n f).ctl = s.ctl ∧ (s.updPort n f).pmc = s.pmc ∧
    (s.updPort n f).mem = s.mem ∧ (s.updPort n f).pwr = s.pwr ∧ (s.updPort n f).rte = s.rte ∧
    (s.updPort n f).rails = s.rails ∧ (s.updPort n f).pa = s.pa ∧ (s.updPort n f).pb = s.pb ∧
    (s.updPort n f).cnt = s.cnt ∧ (s.updPort n f).tables = s.tables ∧ (s.updPort n f).tblShadow = s.tblShadow ∧
    (s.updPort n f).hbDrop = s.hbDrop ∧ (s.updPort n f).tru = s.tru ∧ (s.updPort n f).sch = s.sch ∧
    (s.updPort n f).pkt = s.pkt ∧ (s.updPort n f).hsl = s.hsl ∧ (s.updPort n f).mon = s.mon := by
  and_intros <;> rfl

@[simp] theorem State.updFastLane_frame (s : State) (n : Nat) (f : FastLane → FastLane) :
    (s.updFastLane n f).pending = s.pending ∧ (s.updFastLane n f).out = s.out ∧ (s.updFastLane n f).batch = s.batch ∧
    (s.updFastLane n f).freeCtr = s.freeCtr ∧ (s.updFastLane n f).upNs = s.upNs ∧ (s.updFastLane n f).phase = s.phase ∧
    (s.updFastLane n f).txFc = s.txFc ∧ (s.updFastLane n f).fcLoaded = s.fcLoaded ∧ (s.updFastLane n f).cfg = s.cfg ∧
    (s.updFastLane n f).shadow = s.shadow ∧ (s.updFastLane n f).custom = s.custom ∧ (s.updFastLane n f).mst = s.mst ∧
    (s.updFastLane n f).evt = s.evt ∧ (s.updFastLane n f).ctl = s.ctl ∧ (s.updFastLane n f).pmc = s.pmc ∧
    (s.updFastLane n f).mem = s.mem ∧ (s.updFastLane n f).pwr = s.pwr ∧ (s.updFastLane n f).rte = s.rte ∧
    (s.updFastLane n f).rails = s.rails ∧ (s.updFastLane n f).pa = s.pa ∧ (s.updFastLane n f).pb = s.pb ∧
    (s.updFastLane n f).cnt = s.cnt ∧ (s.updFastLane n f).tables = s.tables ∧
    (s.updFastLane n f).tblShadow = s.tblShadow ∧ (s.updFastLane n f).hbDrop = s.hbDrop ∧
    (s.updFastLane n f).tru = s.tru ∧ (s.updFastLane n f).sch = s.sch ∧ (s.updFastLane n f).pkt = s.pkt ∧
    (s.updFastLane n f).hsl = s.hsl ∧ (s.updFastLane n f).mon = s.mon := by
  and_intros <;> rfl

@[simp] theorem State.updLane_frame (s : State) (n : Nat) (f : LegacyLane → LegacyLane) :
    (s.updLane n f).pending = s.pending ∧ (s.updLane n f).out = s.out ∧ (s.updLane n f).batch = s.batch ∧
    (s.updLane n f).freeCtr = s.freeCtr ∧ (s.updLane n f).upNs = s.upNs ∧ (s.updLane n f).phase = s.phase ∧
    (s.updLane n f).txFc = s.txFc ∧ (s.updLane n f).fcLoaded = s.fcLoaded ∧ (s.updLane n f).cfg = s.cfg ∧
    (s.updLane n f).shadow = s.shadow ∧ (s.updLane n f).custom = s.custom ∧ (s.updLane n f).mst = s.mst ∧
    (s.updLane n f).evt = s.evt ∧ (s.updLane n f).ctl = s.ctl ∧ (s.updLane n f).pmc = s.pmc ∧
    (s.updLane n f).mem = s.mem ∧ (s.updLane n f).pwr = s.pwr ∧ (s.updLane n f).rte = s.rte ∧
    (s.updLane n f).rails = s.rails ∧ (s.updLane n f).pa = s.pa ∧ (s.updLane n f).pb = s.pb ∧
    (s.updLane n f).cnt = s.cnt ∧ (s.updLane n f).tables = s.tables ∧ (s.updLane n f).tblShadow = s.tblShadow ∧
    (s.updLane n f).hbDrop = s.hbDrop ∧ (s.updLane n f).tru = s.tru ∧ (s.updLane n f).sch = s.sch ∧
    (s.updLane n f).pkt = s.pkt ∧ (s.updLane n f).hsf = s.hsf ∧ (s.updLane n f).mon = s.mon := by
  and_intros <;> rfl

@[simp] theorem State.updSession_frame (s : State) (n : Nat) (f : SessState → SessState) :
    (s.updSession n f).pending = s.pending ∧ (s.updSession n f).out = s.out ∧ (s.updSession n f).batch = s.batch ∧
    (s.updSession n f).freeCtr = s.freeCtr ∧ (s.updSession n f).upNs = s.upNs ∧ (s.updSession n f).phase = s.phase ∧
    (s.updSession n f).txFc = s.txFc ∧ (s.updSession n f).fcLoaded = s.fcLoaded ∧ (s.updSession n f).cfg = s.cfg ∧
    (s.updSession n f).shadow = s.shadow ∧ (s.updSession n f).custom = s.custom ∧ (s.updSession n f).mst = s.mst ∧
    (s.updSession n f).evt = s.evt ∧ (s.updSession n f).pmc = s.pmc ∧ (s.updSession n f).mem = s.mem ∧
    (s.updSession n f).pwr = s.pwr ∧ (s.updSession n f).rte = s.rte ∧ (s.updSession n f).rails = s.rails ∧
    (s.updSession n f).pa = s.pa ∧ (s.updSession n f).pb = s.pb ∧ (s.updSession n f).cnt = s.cnt ∧
    (s.updSession n f).tables = s.tables ∧ (s.updSession n f).tblShadow = s.tblShadow ∧
    (s.updSession n f).hbDrop = s.hbDrop ∧ (s.updSession n f).tru = s.tru ∧ (s.updSession n f).sch = s.sch ∧
    (s.updSession n f).pkt = s.pkt ∧ (s.updSession n f).hsf = s.hsf ∧ (s.updSession n f).hsl = s.hsl ∧
    (s.updSession n f).mon = s.mon := by
  and_intros <;> rfl

@[simp] theorem State.updLock_frame (s : State) (n : Nat) (f : LockState → LockState) :
    (s.updLock n f).pending = s.pending ∧ (s.updLock n f).out = s.out ∧ (s.updLock n f).batch = s.batch ∧
    (s.updLock n f).freeCtr = s.freeCtr ∧ (s.updLock n f).upNs = s.upNs ∧ (s.updLock n f).phase = s.phase ∧
    (s.updLock n f).txFc = s.txFc ∧ (s.updLock n f).fcLoaded = s.fcLoaded ∧ (s.updLock n f).cfg = s.cfg ∧
    (s.updLock n f).shadow = s.shadow ∧ (s.updLock n f).custom = s.custom ∧ (s.updLock n f).mst = s.mst ∧
    (s.updLock n f).evt = s.evt ∧ (s.updLock n f).pmc = s.pmc ∧ (s.updLock n f).mem = s.mem ∧
    (s.updLock n f).pwr = s.pwr ∧ (s.updLock n f).rte = s.rte ∧ (s.updLock n f).rails = s.rails ∧
    (s.updLock n f).pa = s.pa ∧ (s.updLock n f).pb = s.pb ∧ (s.updLock n f).cnt = s.cnt ∧
    (s.updLock n f).tables = s.tables ∧ (s.updLock n f).tblShadow = s.tblShadow ∧ (s.updLock n f).hbDrop = s.hbDrop ∧
    (s.updLock n f).tru = s.tru ∧ (s.updLock n f).sch = s.sch ∧ (s.updLock n f).pkt = s.pkt ∧
    (s.updLock n f).hsf = s.hsf ∧ (s.updLock n f).hsl = s.hsl ∧ (s.updLock n f).mon = s.mon := by
  and_intros <;> rfl

@[simp] theorem State.updChain_frame (s : State) (n : Nat) (f : Chain → Chain) :
    (s.updChain n f).pending = s.pending ∧ (s.updChain n f).out = s.out ∧ (s.updChain n f).batch = s.batch ∧
    (s.updChain n f).freeCtr = s.freeCtr ∧ (s.updChain n f).upNs = s.upNs ∧ (s.updChain n f).phase = s.phase ∧
    (s.updChain n f).txFc = s.txFc ∧ (s.updChain n f).fcLoaded = s.fcLoaded ∧ (s.updChain n f).cfg = s.cfg ∧
    (s.updChain n f).shadow = s.shadow ∧ (s.updChain n f).custom = s.custom ∧ (s.updChain n f).mst = s.mst ∧
    (s.updChain n f).evt = s.evt ∧ (s.updChain n f).ctl = s.ctl ∧ (s.updChain n f).pmc = s.pmc ∧
    (s.updChain n f).mem = s.mem ∧ (s.updChain n f).pwr = s.pwr ∧ (s.updChain n f).rte = s.rte ∧
    (s.updChain n f).rails = s.rails ∧ (s.updChain n f).pa = s.pa ∧ (s.updChain n f).pb = s.pb ∧
    (s.updChain n f).cnt = s.cnt ∧ (s.updChain n f).tables = s.tables ∧ (s.updChain n f).tblShadow = s.tblShadow ∧
    (s.updChain n f).hbDrop = s.hbDrop ∧ (s.updChain n f).tru = s.tru ∧ (s.updChain n f).sch = s.sch ∧
    (s.updChain n f).pkt = s.pkt ∧ (s.updChain n f).hsf = s.hsf ∧ (s.updChain n f).hsl = s.hsl := by
  and_intros <;> rfl

@[simp] theorem State.updPktPort_frame (s : State) (n : Nat) (f : PktPort → PktPort) :
    (s.updPktPort n f).pending = s.pending ∧ (s.updPktPort n f).out = s.out ∧ (s.updPktPort n f).batch = s.batch ∧
    (s.updPktPort n f).freeCtr = s.freeCtr ∧ (s.updPktPort n f).upNs = s.upNs ∧ (s.updPktPort n f).phase = s.phase ∧
    (s.updPktPort n f).txFc = s.txFc ∧ (s.updPktPort n f).fcLoaded = s.fcLoaded ∧ (s.updPktPort n f).cfg = s.cfg ∧
    (s.updPktPort n f).shadow = s.shadow ∧ (s.updPktPort n f).custom = s.custom ∧ (s.updPktPort n f).mst = s.mst ∧
    (s.updPktPort n f).evt = s.evt ∧ (s.updPktPort n f).ctl = s.ctl ∧ (s.updPktPort n f).pmc = s.pmc ∧
    (s.updPktPort n f).mem = s.mem ∧ (s.updPktPort n f).pwr = s.pwr ∧ (s.updPktPort n f).rte = s.rte ∧
    (s.updPktPort n f).rails = s.rails ∧ (s.updPktPort n f).pa = s.pa ∧ (s.updPktPort n f).pb = s.pb ∧
    (s.updPktPort n f).cnt = s.cnt ∧ (s.updPktPort n f).tables = s.tables ∧ (s.updPktPort n f).tblShadow = s.tblShadow ∧
    (s.updPktPort n f).hbDrop = s.hbDrop ∧ (s.updPktPort n f).tru = s.tru ∧ (s.updPktPort n f).sch = s.sch ∧
    (s.updPktPort n f).hsf = s.hsf ∧ (s.updPktPort n f).hsl = s.hsl ∧ (s.updPktPort n f).mon = s.mon := by
  and_intros <;> rfl

@[simp] theorem State.updPage_frame (s : State) (n : Nat) (f : Page → Page) :
    (s.updPage n f).pending = s.pending ∧ (s.updPage n f).out = s.out ∧ (s.updPage n f).batch = s.batch ∧
    (s.updPage n f).freeCtr = s.freeCtr ∧ (s.updPage n f).upNs = s.upNs ∧ (s.updPage n f).phase = s.phase ∧
    (s.updPage n f).txFc = s.txFc ∧ (s.updPage n f).fcLoaded = s.fcLoaded ∧ (s.updPage n f).cfg = s.cfg ∧
    (s.updPage n f).shadow = s.shadow ∧ (s.updPage n f).custom = s.custom ∧ (s.updPage n f).mst = s.mst ∧
    (s.updPage n f).evt = s.evt ∧ (s.updPage n f).ctl = s.ctl ∧ (s.updPage n f).pmc = s.pmc ∧
    (s.updPage n f).mem = s.mem ∧ (s.updPage n f).pwr = s.pwr ∧ (s.updPage n f).rte = s.rte ∧
    (s.updPage n f).rails = s.rails ∧ (s.updPage n f).pa = s.pa ∧ (s.updPage n f).pb = s.pb ∧
    (s.updPage n f).cnt = s.cnt ∧ (s.updPage n f).tables = s.tables ∧ (s.updPage n f).tblShadow = s.tblShadow ∧
    (s.updPage n f).hbDrop = s.hbDrop ∧ (s.updPage n f).sch = s.sch ∧ (s.updPage n f).pkt = s.pkt ∧
    (s.updPage n f).hsf = s.hsf ∧ (s.updPage n f).hsl = s.hsl ∧ (s.updPage n f).mon = s.mon := by
  and_intros <;> rfl

@[simp] theorem State.updSchQueue_frame (s : State) (n : Nat) (f : QState → QState) :
    (s.updSchQueue n f).pending = s.pending ∧ (s.updSchQueue n f).out = s.out ∧ (s.updSchQueue n f).batch = s.batch ∧
    (s.updSchQueue n f).freeCtr = s.freeCtr ∧ (s.updSchQueue n f).upNs = s.upNs ∧ (s.updSchQueue n f).phase = s.phase ∧
    (s.updSchQueue n f).txFc = s.txFc ∧ (s.updSchQueue n f).fcLoaded = s.fcLoaded ∧ (s.updSchQueue n f).cfg = s.cfg ∧
    (s.updSchQueue n f).shadow = s.shadow ∧ (s.updSchQueue n f).custom = s.custom ∧ (s.updSchQueue n f).mst = s.mst ∧
    (s.updSchQueue n f).evt = s.evt ∧ (s.updSchQueue n f).ctl = s.ctl ∧ (s.updSchQueue n f).pmc = s.pmc ∧
    (s.updSchQueue n f).mem = s.mem ∧ (s.updSchQueue n f).pwr = s.pwr ∧ (s.updSchQueue n f).rte = s.rte ∧
    (s.updSchQueue n f).rails = s.rails ∧ (s.updSchQueue n f).pa = s.pa ∧ (s.updSchQueue n f).pb = s.pb ∧
    (s.updSchQueue n f).cnt = s.cnt ∧ (s.updSchQueue n f).tables = s.tables ∧
    (s.updSchQueue n f).tblShadow = s.tblShadow ∧ (s.updSchQueue n f).hbDrop = s.hbDrop ∧
    (s.updSchQueue n f).tru = s.tru ∧ (s.updSchQueue n f).pkt = s.pkt ∧ (s.updSchQueue n f).hsf = s.hsf ∧
    (s.updSchQueue n f).hsl = s.hsl ∧ (s.updSchQueue n f).mon = s.mon := by
  and_intros <;> rfl

@[simp] theorem State.updPol_frame (s : State) (n : Nat) (f : PolState → PolState) :
    (s.updPol n f).pending = s.pending ∧ (s.updPol n f).out = s.out ∧ (s.updPol n f).batch = s.batch ∧
    (s.updPol n f).freeCtr = s.freeCtr ∧ (s.updPol n f).upNs = s.upNs ∧ (s.updPol n f).phase = s.phase ∧
    (s.updPol n f).txFc = s.txFc ∧ (s.updPol n f).fcLoaded = s.fcLoaded ∧ (s.updPol n f).cfg = s.cfg ∧
    (s.updPol n f).shadow = s.shadow ∧ (s.updPol n f).custom = s.custom ∧ (s.updPol n f).mst = s.mst ∧
    (s.updPol n f).evt = s.evt ∧ (s.updPol n f).ctl = s.ctl ∧ (s.updPol n f).pmc = s.pmc ∧ (s.updPol n f).mem = s.mem ∧
    (s.updPol n f).pwr = s.pwr ∧ (s.updPol n f).rte = s.rte ∧ (s.updPol n f).rails = s.rails ∧
    (s.updPol n f).pa = s.pa ∧ (s.updPol n f).pb = s.pb ∧ (s.updPol n f).cnt = s.cnt ∧
    (s.updPol n f).tables = s.tables ∧ (s.updPol n f).tblShadow = s.tblShadow ∧ (s.updPol n f).hbDrop = s.hbDrop ∧
    (s.updPol n f).tru = s.tru ∧ (s.updPol n f).pkt = s.pkt ∧ (s.updPol n f).hsf = s.hsf ∧ (s.updPol n f).hsl = s.hsl ∧
    (s.updPol n f).mon = s.mon := by
  and_intros <;> rfl

@[simp] theorem State.updFleam_frame (s : State) (n : Nat) (f : Fleam → Fleam) :
    (s.updFleam n f).pending = s.pending ∧ (s.updFleam n f).out = s.out ∧ (s.updFleam n f).batch = s.batch ∧
    (s.updFleam n f).freeCtr = s.freeCtr ∧ (s.updFleam n f).upNs = s.upNs ∧ (s.updFleam n f).phase = s.phase ∧
    (s.updFleam n f).txFc = s.txFc ∧ (s.updFleam n f).fcLoaded = s.fcLoaded ∧ (s.updFleam n f).cfg = s.cfg ∧
    (s.updFleam n f).shadow = s.shadow ∧ (s.updFleam n f).custom = s.custom ∧ (s.updFleam n f).mst = s.mst ∧
    (s.updFleam n f).evt = s.evt ∧ (s.updFleam n f).ctl = s.ctl ∧ (s.updFleam n f).pmc = s.pmc ∧
    (s.updFleam n f).mem = s.mem ∧ (s.updFleam n f).pwr = s.pwr ∧ (s.updFleam n f).rte = s.rte ∧
    (s.updFleam n f).rails = s.rails ∧ (s.updFleam n f).pa = s.pa ∧ (s.updFleam n f).pb = s.pb ∧
    (s.updFleam n f).tables = s.tables ∧ (s.updFleam n f).tblShadow = s.tblShadow ∧ (s.updFleam n f).hbDrop = s.hbDrop ∧
    (s.updFleam n f).tru = s.tru ∧ (s.updFleam n f).sch = s.sch ∧ (s.updFleam n f).pkt = s.pkt ∧
    (s.updFleam n f).hsf = s.hsf ∧ (s.updFleam n f).hsl = s.hsl ∧ (s.updFleam n f).mon = s.mon := by
  and_intros <;> rfl

@[simp] theorem State.updRail_frame (s : State) (n : Nat) (f : RailState → RailState) :
    (s.updRail n f).pending = s.pending ∧ (s.updRail n f).out = s.out ∧ (s.updRail n f).batch = s.batch ∧
    (s.updRail n f).freeCtr = s.freeCtr ∧ (s.updRail n f).upNs = s.upNs ∧ (s.updRail n f).phase = s.phase ∧
    (s.updRail n f).txFc = s.txFc ∧ (s.updRail n f).fcLoaded = s.fcLoaded ∧ (s.updRail n f).cfg = s.cfg ∧
    (s.updRail n f).shadow = s.shadow ∧ (s.updRail n f).custom = s.custom ∧ (s.updRail n f).mst = s.mst ∧
    (s.updRail n f).evt = s.evt ∧ (s.updRail n f).ctl = s.ctl ∧ (s.updRail n f).pmc = s.pmc ∧
    (s.updRail n f).mem = s.mem ∧ (s.updRail n f).pwr = s.pwr ∧ (s.updRail n f).rte = s.rte ∧
    (s.updRail n f).pa = s.pa ∧ (s.updRail n f).pb = s.pb ∧ (s.updRail n f).cnt = s.cnt ∧
    (s.updRail n f).tables = s.tables ∧ (s.updRail n f).tblShadow = s.tblShadow ∧ (s.updRail n f).hbDrop = s.hbDrop ∧
    (s.updRail n f).tru = s.tru ∧ (s.updRail n f).sch = s.sch ∧ (s.updRail n f).pkt = s.pkt ∧
    (s.updRail n f).hsf = s.hsf ∧ (s.updRail n f).hsl = s.hsl ∧ (s.updRail n f).mon = s.mon := by
  and_intros <;> rfl

@[simp] theorem State.setOut_frame (s : State) (n : Nat) (v : Int) :
    (s.setOut n v).pending = s.pending ∧ (s.setOut n v).out = s.out ∧ (s.setOut n v).batch = s.batch ∧
    (s.setOut n v).freeCtr = s.freeCtr ∧ (s.setOut n v).upNs = s.upNs ∧ (s.setOut n v).phase = s.phase ∧
    (s.setOut n v).txFc = s.txFc ∧ (s.setOut n v).fcLoaded = s.fcLoaded ∧ (s.setOut n v).cfg = s.cfg ∧
    (s.setOut n v).shadow = s.shadow ∧ (s.setOut n v).custom = s.custom ∧ (s.setOut n v).mst = s.mst ∧
    (s.setOut n v).evt = s.evt ∧ (s.setOut n v).ctl = s.ctl ∧ (s.setOut n v).pmc = s.pmc ∧ (s.setOut n v).mem = s.mem ∧
    (s.setOut n v).pwr = s.pwr ∧ (s.setOut n v).rte = s.rte ∧ (s.setOut n v).pa = s.pa ∧ (s.setOut n v).pb = s.pb ∧
    (s.setOut n v).cnt = s.cnt ∧ (s.setOut n v).tables = s.tables ∧ (s.setOut n v).tblShadow = s.tblShadow ∧
    (s.setOut n v).hbDrop = s.hbDrop ∧ (s.setOut n v).tru = s.tru ∧ (s.setOut n v).sch = s.sch ∧
    (s.setOut n v).pkt = s.pkt ∧ (s.setOut n v).hsf = s.hsf ∧ (s.setOut n v).hsl = s.hsl ∧ (s.setOut n v).mon = s.mon := by
  and_intros <;> rfl

@[simp] theorem State.updCont_frame (s : State) (p : Path) (n : Nat) (f : ContState → ContState) :
    (s.updCont p n f).pending = s.pending ∧ (s.updCont p n f).out = s.out ∧ (s.updCont p n f).batch = s.batch ∧
    (s.updCont p n f).freeCtr = s.freeCtr ∧ (s.updCont p n f).upNs = s.upNs ∧ (s.updCont p n f).phase = s.phase ∧
    (s.updCont p n f).txFc = s.txFc ∧ (s.updCont p n f).fcLoaded = s.fcLoaded ∧ (s.updCont p n f).cfg = s.cfg ∧
    (s.updCont p n f).shadow = s.shadow ∧ (s.updCont p n f).custom = s.custom ∧ (s.updCont p n f).mst = s.mst ∧
    (s.updCont p n f).evt = s.evt ∧ (s.updCont p n f).ctl = s.ctl ∧ (s.updCont p n f).pmc = s.pmc ∧
    (s.updCont p n f).mem = s.mem ∧ (s.updCont p n f).pwr = s.pwr ∧ (s.updCont p n f).rte = s.rte ∧
    (s.updCont p n f).rails = s.rails ∧ (s.updCont p n f).pa = s.pa ∧ (s.updCont p n f).pb = s.pb ∧
    (s.updCont p n f).tables = s.tables ∧ (s.updCont p n f).tblShadow = s.tblShadow ∧
    (s.updCont p n f).hbDrop = s.hbDrop ∧ (s.updCont p n f).tru = s.tru ∧ (s.updCont p n f).sch = s.sch ∧
    (s.updCont p n f).pkt = s.pkt ∧ (s.updCont p n f).hsf = s.hsf ∧ (s.updCont p n f).hsl = s.hsl ∧
    (s.updCont p n f).mon = s.mon := by
  and_intros <;> rfl

@[simp] theorem State.setEngine_frame (s : State) (n : Nat) (x : Option Pass) :
    (s.setEngine n x).pending = s.pending ∧ (s.setEngine n x).out = s.out ∧ (s.setEngine n x).batch = s.batch ∧
    (s.setEngine n x).freeCtr = s.freeCtr ∧ (s.setEngine n x).upNs = s.upNs ∧ (s.setEngine n x).phase = s.phase ∧
    (s.setEngine n x).txFc = s.txFc ∧ (s.setEngine n x).fcLoaded = s.fcLoaded ∧ (s.setEngine n x).cfg = s.cfg ∧
    (s.setEngine n x).shadow = s.shadow ∧ (s.setEngine n x).custom = s.custom ∧ (s.setEngine n x).mst = s.mst ∧
    (s.setEngine n x).evt = s.evt ∧ (s.setEngine n x).ctl = s.ctl ∧ (s.setEngine n x).pmc = s.pmc ∧
    (s.setEngine n x).mem = s.mem ∧ (s.setEngine n x).pwr = s.pwr ∧ (s.setEngine n x).rte = s.rte ∧
    (s.setEngine n x).rails = s.rails ∧ (s.setEngine n x).pa = s.pa ∧ (s.setEngine n x).pb = s.pb ∧
    (s.setEngine n x).cnt = s.cnt ∧ (s.setEngine n x).tables = s.tables ∧ (s.setEngine n x).tblShadow = s.tblShadow ∧
    (s.setEngine n x).hbDrop = s.hbDrop ∧ (s.setEngine n x).tru = s.tru ∧ (s.setEngine n x).sch = s.sch ∧
    (s.setEngine n x).hsf = s.hsf ∧ (s.setEngine n x).hsl = s.hsl ∧ (s.setEngine n x).mon = s.mon := by
  and_intros <;> rfl

@[simp] theorem State.setRegI_frame (s : State) (off idx : Nat) (w : Word) :
    (s.setRegI off idx w).pending = s.pending ∧ (s.setRegI off idx w).out = s.out ∧
    (s.setRegI off idx w).batch = s.batch ∧ (s.setRegI off idx w).freeCtr = s.freeCtr ∧
    (s.setRegI off idx w).upNs = s.upNs ∧ (s.setRegI off idx w).phase = s.phase ∧ (s.setRegI off idx w).txFc = s.txFc ∧
    (s.setRegI off idx w).fcLoaded = s.fcLoaded ∧ (s.setRegI off idx w).shadow = s.shadow ∧
    (s.setRegI off idx w).custom = s.custom ∧ (s.setRegI off idx w).mst = s.mst ∧ (s.setRegI off idx w).evt = s.evt ∧
    (s.setRegI off idx w).ctl = s.ctl ∧ (s.setRegI off idx w).pmc = s.pmc ∧ (s.setRegI off idx w).mem = s.mem ∧
    (s.setRegI off idx w).pwr = s.pwr ∧ (s.setRegI off idx w).rte = s.rte ∧ (s.setRegI off idx w).rails = s.rails ∧
    (s.setRegI off idx w).pa = s.pa ∧ (s.setRegI off idx w).pb = s.pb ∧ (s.setRegI off idx w).cnt = s.cnt ∧
    (s.setRegI off idx w).tables = s.tables ∧ (s.setRegI off idx w).tblShadow = s.tblShadow ∧
    (s.setRegI off idx w).hbDrop = s.hbDrop ∧ (s.setRegI off idx w).tru = s.tru ∧ (s.setRegI off idx w).sch = s.sch ∧
    (s.setRegI off idx w).pkt = s.pkt ∧ (s.setRegI off idx w).hsf = s.hsf ∧ (s.setRegI off idx w).hsl = s.hsl ∧
    (s.setRegI off idx w).mon = s.mon := by
  and_intros <;> rfl

@[simp] theorem State.setReg_frame (s : State) (off : Nat) (w : Word) :
    (s.setReg off w).pending = s.pending ∧ (s.setReg off w).out = s.out ∧ (s.setReg off w).batch = s.batch ∧
    (s.setReg off w).freeCtr = s.freeCtr ∧ (s.setReg off w).upNs = s.upNs ∧ (s.setReg off w).phase = s.phase ∧
    (s.setReg off w).txFc = s.txFc ∧ (s.setReg off w).fcLoaded = s.fcLoaded ∧ (s.setReg off w).shadow = s.shadow ∧
    (s.setReg off w).custom = s.custom ∧ (s.setReg off w).mst = s.mst ∧ (s.setReg off w).evt = s.evt ∧
    (s.setReg off w).ctl = s.ctl ∧ (s.setReg off w).pmc = s.pmc ∧ (s.setReg off w).mem = s.mem ∧
    (s.setReg off w).pwr = s.pwr ∧ (s.setReg off w).rte = s.rte ∧ (s.setReg off w).rails = s.rails ∧
    (s.setReg off w).pa = s.pa ∧ (s.setReg off w).pb = s.pb ∧ (s.setReg off w).cnt = s.cnt ∧
    (s.setReg off w).tables = s.tables ∧ (s.setReg off w).tblShadow = s.tblShadow ∧ (s.setReg off w).hbDrop = s.hbDrop ∧
    (s.setReg off w).tru = s.tru ∧ (s.setReg off w).sch = s.sch ∧ (s.setReg off w).pkt = s.pkt ∧
    (s.setReg off w).hsf = s.hsf ∧ (s.setReg off w).hsl = s.hsl ∧ (s.setReg off w).mon = s.mon := by
  and_intros <;> rfl

@[simp] theorem State.setFldI_frame (s : State) (off idx hi lo v : Nat) :
    (s.setFldI off idx hi lo v).pending = s.pending ∧ (s.setFldI off idx hi lo v).out = s.out ∧
    (s.setFldI off idx hi lo v).batch = s.batch ∧ (s.setFldI off idx hi lo v).freeCtr = s.freeCtr ∧
    (s.setFldI off idx hi lo v).upNs = s.upNs ∧ (s.setFldI off idx hi lo v).phase = s.phase ∧
    (s.setFldI off idx hi lo v).txFc = s.txFc ∧ (s.setFldI off idx hi lo v).fcLoaded = s.fcLoaded ∧
    (s.setFldI off idx hi lo v).shadow = s.shadow ∧ (s.setFldI off idx hi lo v).custom = s.custom ∧
    (s.setFldI off idx hi lo v).mst = s.mst ∧ (s.setFldI off idx hi lo v).evt = s.evt ∧
    (s.setFldI off idx hi lo v).ctl = s.ctl ∧ (s.setFldI off idx hi lo v).pmc = s.pmc ∧
    (s.setFldI off idx hi lo v).mem = s.mem ∧ (s.setFldI off idx hi lo v).pwr = s.pwr ∧
    (s.setFldI off idx hi lo v).rte = s.rte ∧ (s.setFldI off idx hi lo v).rails = s.rails ∧
    (s.setFldI off idx hi lo v).pa = s.pa ∧ (s.setFldI off idx hi lo v).pb = s.pb ∧
    (s.setFldI off idx hi lo v).cnt = s.cnt ∧ (s.setFldI off idx hi lo v).tables = s.tables ∧
    (s.setFldI off idx hi lo v).tblShadow = s.tblShadow ∧ (s.setFldI off idx hi lo v).hbDrop = s.hbDrop ∧
    (s.setFldI off idx hi lo v).tru = s.tru ∧ (s.setFldI off idx hi lo v).sch = s.sch ∧
    (s.setFldI off idx hi lo v).pkt = s.pkt ∧ (s.setFldI off idx hi lo v).hsf = s.hsf ∧
    (s.setFldI off idx hi lo v).hsl = s.hsl ∧ (s.setFldI off idx hi lo v).mon = s.mon := by
  and_intros <;> rfl

@[simp] theorem State.setFld_frame (s : State) (off hi lo v : Nat) :
    (s.setFld off hi lo v).pending = s.pending ∧ (s.setFld off hi lo v).out = s.out ∧
    (s.setFld off hi lo v).batch = s.batch ∧ (s.setFld off hi lo v).freeCtr = s.freeCtr ∧
    (s.setFld off hi lo v).upNs = s.upNs ∧ (s.setFld off hi lo v).phase = s.phase ∧
    (s.setFld off hi lo v).txFc = s.txFc ∧ (s.setFld off hi lo v).fcLoaded = s.fcLoaded ∧
    (s.setFld off hi lo v).shadow = s.shadow ∧ (s.setFld off hi lo v).custom = s.custom ∧
    (s.setFld off hi lo v).mst = s.mst ∧ (s.setFld off hi lo v).evt = s.evt ∧ (s.setFld off hi lo v).ctl = s.ctl ∧
    (s.setFld off hi lo v).pmc = s.pmc ∧ (s.setFld off hi lo v).mem = s.mem ∧ (s.setFld off hi lo v).pwr = s.pwr ∧
    (s.setFld off hi lo v).rte = s.rte ∧ (s.setFld off hi lo v).rails = s.rails ∧ (s.setFld off hi lo v).pa = s.pa ∧
    (s.setFld off hi lo v).pb = s.pb ∧ (s.setFld off hi lo v).cnt = s.cnt ∧ (s.setFld off hi lo v).tables = s.tables ∧
    (s.setFld off hi lo v).tblShadow = s.tblShadow ∧ (s.setFld off hi lo v).hbDrop = s.hbDrop ∧
    (s.setFld off hi lo v).tru = s.tru ∧ (s.setFld off hi lo v).sch = s.sch ∧ (s.setFld off hi lo v).pkt = s.pkt ∧
    (s.setFld off hi lo v).hsf = s.hsf ∧ (s.setFld off hi lo v).hsl = s.hsl ∧ (s.setFld off hi lo v).mon = s.mon := by
  and_intros <;> rfl

@[simp] theorem State.emit_frame (s : State) (o : Out) :
    (s.emit o).pending = s.pending ∧ (s.emit o).batch = s.batch ∧ (s.emit o).freeCtr = s.freeCtr ∧
    (s.emit o).upNs = s.upNs ∧ (s.emit o).phase = s.phase ∧ (s.emit o).txFc = s.txFc ∧
    (s.emit o).fcLoaded = s.fcLoaded ∧ (s.emit o).cfg = s.cfg ∧ (s.emit o).shadow = s.shadow ∧
    (s.emit o).custom = s.custom ∧ (s.emit o).mst = s.mst ∧ (s.emit o).evt = s.evt ∧ (s.emit o).ctl = s.ctl ∧
    (s.emit o).pmc = s.pmc ∧ (s.emit o).mem = s.mem ∧ (s.emit o).pwr = s.pwr ∧ (s.emit o).rte = s.rte ∧
    (s.emit o).rails = s.rails ∧ (s.emit o).pa = s.pa ∧ (s.emit o).pb = s.pb ∧ (s.emit o).cnt = s.cnt ∧
    (s.emit o).tables = s.tables ∧ (s.emit o).tblShadow = s.tblShadow ∧ (s.emit o).hbDrop = s.hbDrop ∧
    (s.emit o).tru = s.tru ∧ (s.emit o).sch = s.sch ∧ (s.emit o).pkt = s.pkt ∧ (s.emit o).hsf = s.hsf ∧
    (s.emit o).hsl = s.hsl ∧ (s.emit o).mon = s.mon := by
  and_intros <;> rfl

@[simp] theorem State.begin_frame (s : State) :
    (s.begin).pending = s.pending ∧ (s.begin).upNs = s.upNs ∧ (s.begin).phase = s.phase ∧ (s.begin).txFc = s.txFc ∧
    (s.begin).fcLoaded = s.fcLoaded ∧ (s.begin).cfg = s.cfg ∧ (s.begin).shadow = s.shadow ∧
    (s.begin).custom = s.custom ∧ (s.begin).mst = s.mst ∧ (s.begin).evt = s.evt ∧ (s.begin).ctl = s.ctl ∧
    (s.begin).pmc = s.pmc ∧ (s.begin).mem = s.mem ∧ (s.begin).pwr = s.pwr ∧ (s.begin).rte = s.rte ∧
    (s.begin).rails = s.rails ∧ (s.begin).pa = s.pa ∧ (s.begin).pb = s.pb ∧ (s.begin).cnt = s.cnt ∧
    (s.begin).tables = s.tables ∧ (s.begin).tblShadow = s.tblShadow ∧ (s.begin).hbDrop = s.hbDrop ∧
    (s.begin).tru = s.tru ∧ (s.begin).sch = s.sch ∧ (s.begin).pkt = s.pkt ∧ (s.begin).hsf = s.hsf ∧
    (s.begin).hsl = s.hsl ∧ (s.begin).mon = s.mon := by
  and_intros <;> rfl

@[simp] theorem State.updQueue_frame (s : State) (f : QEntry → QEntry) :
    (s.updQueue f).pending = s.pending ∧ (s.updQueue f).out = s.out ∧ (s.updQueue f).batch = s.batch ∧
    (s.updQueue f).freeCtr = s.freeCtr ∧ (s.updQueue f).upNs = s.upNs ∧ (s.updQueue f).phase = s.phase ∧
    (s.updQueue f).txFc = s.txFc ∧ (s.updQueue f).fcLoaded = s.fcLoaded ∧ (s.updQueue f).cfg = s.cfg ∧
    (s.updQueue f).shadow = s.shadow ∧ (s.updQueue f).custom = s.custom ∧ (s.updQueue f).evt = s.evt ∧
    (s.updQueue f).ctl = s.ctl ∧ (s.updQueue f).pmc = s.pmc ∧ (s.updQueue f).mem = s.mem ∧ (s.updQueue f).pwr = s.pwr ∧
    (s.updQueue f).rte = s.rte ∧ (s.updQueue f).rails = s.rails ∧ (s.updQueue f).pa = s.pa ∧ (s.updQueue f).pb = s.pb ∧
    (s.updQueue f).cnt = s.cnt ∧ (s.updQueue f).tables = s.tables ∧ (s.updQueue f).tblShadow = s.tblShadow ∧
    (s.updQueue f).hbDrop = s.hbDrop ∧ (s.updQueue f).tru = s.tru ∧ (s.updQueue f).sch = s.sch ∧
    (s.updQueue f).pkt = s.pkt ∧ (s.updQueue f).hsf = s.hsf ∧ (s.updQueue f).hsl = s.hsl ∧ (s.updQueue f).mon = s.mon := by
  and_intros <;> rfl

@[simp] theorem State.updSecond_frame (s : State) (f : PktSecond → PktSecond) :
    (s.updSecond f).pending = s.pending ∧ (s.updSecond f).out = s.out ∧ (s.updSecond f).batch = s.batch ∧
    (s.updSecond f).freeCtr = s.freeCtr ∧ (s.updSecond f).upNs = s.upNs ∧ (s.updSecond f).phase = s.phase ∧
    (s.updSecond f).txFc = s.txFc ∧ (s.updSecond f).fcLoaded = s.fcLoaded ∧ (s.updSecond f).cfg = s.cfg ∧
    (s.updSecond f).shadow = s.shadow ∧ (s.updSecond f).custom = s.custom ∧ (s.updSecond f).mst = s.mst ∧
    (s.updSecond f).evt = s.evt ∧ (s.updSecond f).ctl = s.ctl ∧ (s.updSecond f).pmc = s.pmc ∧
    (s.updSecond f).mem = s.mem ∧ (s.updSecond f).pwr = s.pwr ∧ (s.updSecond f).rte = s.rte ∧
    (s.updSecond f).rails = s.rails ∧ (s.updSecond f).pa = s.pa ∧ (s.updSecond f).pb = s.pb ∧
    (s.updSecond f).cnt = s.cnt ∧ (s.updSecond f).tables = s.tables ∧ (s.updSecond f).tblShadow = s.tblShadow ∧
    (s.updSecond f).hbDrop = s.hbDrop ∧ (s.updSecond f).tru = s.tru ∧ (s.updSecond f).sch = s.sch ∧
    (s.updSecond f).hsf = s.hsf ∧ (s.updSecond f).hsl = s.hsl ∧ (s.updSecond f).mon = s.mon := by
  and_intros <;> rfl

@[simp] theorem State.setScrub_frame (s : State) (f : ScrubState → ScrubState) :
    (s.setScrub f).pending = s.pending ∧ (s.setScrub f).out = s.out ∧ (s.setScrub f).batch = s.batch ∧
    (s.setScrub f).freeCtr = s.freeCtr ∧ (s.setScrub f).upNs = s.upNs ∧ (s.setScrub f).phase = s.phase ∧
    (s.setScrub f).txFc = s.txFc ∧ (s.setScrub f).fcLoaded = s.fcLoaded ∧ (s.setScrub f).cfg = s.cfg ∧
    (s.setScrub f).shadow = s.shadow ∧ (s.setScrub f).custom = s.custom ∧ (s.setScrub f).mst = s.mst ∧
    (s.setScrub f).evt = s.evt ∧ (s.setScrub f).ctl = s.ctl ∧ (s.setScrub f).pmc = s.pmc ∧ (s.setScrub f).pwr = s.pwr ∧
    (s.setScrub f).rte = s.rte ∧ (s.setScrub f).rails = s.rails ∧ (s.setScrub f).pa = s.pa ∧ (s.setScrub f).pb = s.pb ∧
    (s.setScrub f).cnt = s.cnt ∧ (s.setScrub f).tables = s.tables ∧ (s.setScrub f).tblShadow = s.tblShadow ∧
    (s.setScrub f).hbDrop = s.hbDrop ∧ (s.setScrub f).tru = s.tru ∧ (s.setScrub f).sch = s.sch ∧
    (s.setScrub f).pkt = s.pkt ∧ (s.setScrub f).hsf = s.hsf ∧ (s.setScrub f).hsl = s.hsl ∧ (s.setScrub f).mon = s.mon := by
  and_intros <;> rfl

@[simp] theorem State.setSramErr_frame (s : State) (k a n : Nat) :
    (s.setSramErr k a n).pending = s.pending ∧ (s.setSramErr k a n).out = s.out ∧ (s.setSramErr k a n).batch = s.batch ∧
    (s.setSramErr k a n).freeCtr = s.freeCtr ∧ (s.setSramErr k a n).upNs = s.upNs ∧
    (s.setSramErr k a n).phase = s.phase ∧ (s.setSramErr k a n).txFc = s.txFc ∧
    (s.setSramErr k a n).fcLoaded = s.fcLoaded ∧ (s.setSramErr k a n).cfg = s.cfg ∧
    (s.setSramErr k a n).shadow = s.shadow ∧ (s.setSramErr k a n).custom = s.custom ∧ (s.setSramErr k a n).mst = s.mst ∧
    (s.setSramErr k a n).evt = s.evt ∧ (s.setSramErr k a n).ctl = s.ctl ∧ (s.setSramErr k a n).pmc = s.pmc ∧
    (s.setSramErr k a n).pwr = s.pwr ∧ (s.setSramErr k a n).rte = s.rte ∧ (s.setSramErr k a n).rails = s.rails ∧
    (s.setSramErr k a n).pa = s.pa ∧ (s.setSramErr k a n).pb = s.pb ∧ (s.setSramErr k a n).cnt = s.cnt ∧
    (s.setSramErr k a n).tables = s.tables ∧ (s.setSramErr k a n).tblShadow = s.tblShadow ∧
    (s.setSramErr k a n).hbDrop = s.hbDrop ∧ (s.setSramErr k a n).tru = s.tru ∧ (s.setSramErr k a n).sch = s.sch ∧
    (s.setSramErr k a n).pkt = s.pkt ∧ (s.setSramErr k a n).hsf = s.hsf ∧ (s.setSramErr k a n).hsl = s.hsl ∧
    (s.setSramErr k a n).mon = s.mon := by
  and_intros <;> rfl

@[simp] theorem State.suffer_frame (s : State) (u : Upsets) :
    (s.suffer u).pending = s.pending ∧ (s.suffer u).out = s.out ∧ (s.suffer u).batch = s.batch ∧
    (s.suffer u).freeCtr = s.freeCtr ∧ (s.suffer u).upNs = s.upNs ∧ (s.suffer u).phase = s.phase ∧
    (s.suffer u).txFc = s.txFc ∧ (s.suffer u).fcLoaded = s.fcLoaded ∧ (s.suffer u).cfg = s.cfg ∧
    (s.suffer u).shadow = s.shadow ∧ (s.suffer u).custom = s.custom ∧ (s.suffer u).mst = s.mst ∧
    (s.suffer u).evt = s.evt ∧ (s.suffer u).ctl = s.ctl ∧ (s.suffer u).pmc = s.pmc ∧ (s.suffer u).pwr = s.pwr ∧
    (s.suffer u).rte = s.rte ∧ (s.suffer u).rails = s.rails ∧ (s.suffer u).pa = s.pa ∧ (s.suffer u).pb = s.pb ∧
    (s.suffer u).cnt = s.cnt ∧ (s.suffer u).tables = s.tables ∧ (s.suffer u).tblShadow = s.tblShadow ∧
    (s.suffer u).hbDrop = s.hbDrop ∧ (s.suffer u).tru = s.tru ∧ (s.suffer u).sch = s.sch ∧ (s.suffer u).pkt = s.pkt ∧
    (s.suffer u).hsf = s.hsf ∧ (s.suffer u).hsl = s.hsl ∧ (s.suffer u).mon = s.mon := by
  and_intros <;> rfl

@[simp] theorem State.count_frame (s : State) (c i n : Nat) :
    (s.count c i n).pending = s.pending ∧ (s.count c i n).out = s.out ∧ (s.count c i n).batch = s.batch ∧
    (s.count c i n).freeCtr = s.freeCtr ∧ (s.count c i n).upNs = s.upNs ∧ (s.count c i n).phase = s.phase ∧
    (s.count c i n).txFc = s.txFc ∧ (s.count c i n).fcLoaded = s.fcLoaded ∧ (s.count c i n).cfg = s.cfg ∧
    (s.count c i n).shadow = s.shadow ∧ (s.count c i n).custom = s.custom ∧ (s.count c i n).mst = s.mst ∧
    (s.count c i n).evt = s.evt ∧ (s.count c i n).ctl = s.ctl ∧ (s.count c i n).mem = s.mem ∧
    (s.count c i n).pwr = s.pwr ∧ (s.count c i n).rte = s.rte ∧ (s.count c i n).rails = s.rails ∧
    (s.count c i n).pa = s.pa ∧ (s.count c i n).pb = s.pb ∧ (s.count c i n).cnt = s.cnt ∧
    (s.count c i n).tables = s.tables ∧ (s.count c i n).tblShadow = s.tblShadow ∧ (s.count c i n).hbDrop = s.hbDrop ∧
    (s.count c i n).tru = s.tru ∧ (s.count c i n).sch = s.sch ∧ (s.count c i n).pkt = s.pkt ∧
    (s.count c i n).hsf = s.hsf ∧ (s.count c i n).hsl = s.hsl ∧ (s.count c i n).mon = s.mon := by
  and_intros <;> rfl

@[simp] theorem State.enqueue_frame (s : State) (i c : Nat) :
    (s.enqueue i c).pending = s.pending ∧ (s.enqueue i c).out = s.out ∧ (s.enqueue i c).batch = s.batch ∧
    (s.enqueue i c).freeCtr = s.freeCtr ∧ (s.enqueue i c).upNs = s.upNs ∧ (s.enqueue i c).phase = s.phase ∧
    (s.enqueue i c).txFc = s.txFc ∧ (s.enqueue i c).fcLoaded = s.fcLoaded ∧ (s.enqueue i c).cfg = s.cfg ∧
    (s.enqueue i c).shadow = s.shadow ∧ (s.enqueue i c).custom = s.custom ∧ (s.enqueue i c).mst = s.mst ∧
    (s.enqueue i c).evt = s.evt ∧ (s.enqueue i c).ctl = s.ctl ∧ (s.enqueue i c).pmc = s.pmc ∧
    (s.enqueue i c).mem = s.mem ∧ (s.enqueue i c).rte = s.rte ∧ (s.enqueue i c).rails = s.rails ∧
    (s.enqueue i c).pa = s.pa ∧ (s.enqueue i c).pb = s.pb ∧ (s.enqueue i c).cnt = s.cnt ∧
    (s.enqueue i c).tables = s.tables ∧ (s.enqueue i c).tblShadow = s.tblShadow ∧ (s.enqueue i c).hbDrop = s.hbDrop ∧
    (s.enqueue i c).tru = s.tru ∧ (s.enqueue i c).sch = s.sch ∧ (s.enqueue i c).pkt = s.pkt ∧
    (s.enqueue i c).hsf = s.hsf ∧ (s.enqueue i c).hsl = s.hsl ∧ (s.enqueue i c).mon = s.mon := by
  and_intros <;> rfl

@[simp] theorem State.rowWithdraw_frame (s : State) (i : Nat) :
    (s.rowWithdraw i).pending = s.pending ∧ (s.rowWithdraw i).out = s.out ∧ (s.rowWithdraw i).batch = s.batch ∧
    (s.rowWithdraw i).freeCtr = s.freeCtr ∧ (s.rowWithdraw i).upNs = s.upNs ∧ (s.rowWithdraw i).phase = s.phase ∧
    (s.rowWithdraw i).txFc = s.txFc ∧ (s.rowWithdraw i).fcLoaded = s.fcLoaded ∧ (s.rowWithdraw i).cfg = s.cfg ∧
    (s.rowWithdraw i).shadow = s.shadow ∧ (s.rowWithdraw i).custom = s.custom ∧ (s.rowWithdraw i).mst = s.mst ∧
    (s.rowWithdraw i).evt = s.evt ∧ (s.rowWithdraw i).ctl = s.ctl ∧ (s.rowWithdraw i).pmc = s.pmc ∧
    (s.rowWithdraw i).mem = s.mem ∧ (s.rowWithdraw i).rte = s.rte ∧ (s.rowWithdraw i).rails = s.rails ∧
    (s.rowWithdraw i).pa = s.pa ∧ (s.rowWithdraw i).pb = s.pb ∧ (s.rowWithdraw i).cnt = s.cnt ∧
    (s.rowWithdraw i).tables = s.tables ∧ (s.rowWithdraw i).tblShadow = s.tblShadow ∧
    (s.rowWithdraw i).hbDrop = s.hbDrop ∧ (s.rowWithdraw i).tru = s.tru ∧ (s.rowWithdraw i).sch = s.sch ∧
    (s.rowWithdraw i).pkt = s.pkt ∧ (s.rowWithdraw i).hsf = s.hsf ∧ (s.rowWithdraw i).hsl = s.hsl ∧
    (s.rowWithdraw i).mon = s.mon := by
  and_intros <;> rfl

@[simp] theorem State.setRte_frame (s : State) (f : RteState → RteState) :
    (s.setRte f).pending = s.pending ∧ (s.setRte f).out = s.out ∧ (s.setRte f).batch = s.batch ∧
    (s.setRte f).freeCtr = s.freeCtr ∧ (s.setRte f).upNs = s.upNs ∧ (s.setRte f).phase = s.phase ∧
    (s.setRte f).txFc = s.txFc ∧ (s.setRte f).fcLoaded = s.fcLoaded ∧ (s.setRte f).cfg = s.cfg ∧
    (s.setRte f).shadow = s.shadow ∧ (s.setRte f).custom = s.custom ∧ (s.setRte f).mst = s.mst ∧
    (s.setRte f).evt = s.evt ∧ (s.setRte f).ctl = s.ctl ∧ (s.setRte f).pmc = s.pmc ∧ (s.setRte f).mem = s.mem ∧
    (s.setRte f).pwr = s.pwr ∧ (s.setRte f).rails = s.rails ∧ (s.setRte f).pa = s.pa ∧ (s.setRte f).pb = s.pb ∧
    (s.setRte f).cnt = s.cnt ∧ (s.setRte f).tables = s.tables ∧ (s.setRte f).tblShadow = s.tblShadow ∧
    (s.setRte f).hbDrop = s.hbDrop ∧ (s.setRte f).tru = s.tru ∧ (s.setRte f).sch = s.sch ∧ (s.setRte f).pkt = s.pkt ∧
    (s.setRte f).hsf = s.hsf ∧ (s.setRte f).hsl = s.hsl ∧ (s.setRte f).mon = s.mon := by
  and_intros <;> rfl

@[simp] theorem State.updPwr_frame (s : State) (f : PwrState → PwrState) :
    (s.updPwr f).pending = s.pending ∧ (s.updPwr f).out = s.out ∧ (s.updPwr f).batch = s.batch ∧
    (s.updPwr f).freeCtr = s.freeCtr ∧ (s.updPwr f).upNs = s.upNs ∧ (s.updPwr f).phase = s.phase ∧
    (s.updPwr f).txFc = s.txFc ∧ (s.updPwr f).fcLoaded = s.fcLoaded ∧ (s.updPwr f).cfg = s.cfg ∧
    (s.updPwr f).shadow = s.shadow ∧ (s.updPwr f).custom = s.custom ∧ (s.updPwr f).mst = s.mst ∧
    (s.updPwr f).evt = s.evt ∧ (s.updPwr f).ctl = s.ctl ∧ (s.updPwr f).pmc = s.pmc ∧ (s.updPwr f).mem = s.mem ∧
    (s.updPwr f).rte = s.rte ∧ (s.updPwr f).rails = s.rails ∧ (s.updPwr f).pa = s.pa ∧ (s.updPwr f).pb = s.pb ∧
    (s.updPwr f).cnt = s.cnt ∧ (s.updPwr f).tables = s.tables ∧ (s.updPwr f).tblShadow = s.tblShadow ∧
    (s.updPwr f).hbDrop = s.hbDrop ∧ (s.updPwr f).tru = s.tru ∧ (s.updPwr f).sch = s.sch ∧ (s.updPwr f).pkt = s.pkt ∧
    (s.updPwr f).hsf = s.hsf ∧ (s.updPwr f).hsl = s.hsl ∧ (s.updPwr f).mon = s.mon := by
  and_intros <;> rfl

@[simp] theorem State.setTru_frame (s : State) (f : TruState → TruState) :
    (s.setTru f).pending = s.pending ∧ (s.setTru f).out = s.out ∧ (s.setTru f).batch = s.batch ∧
    (s.setTru f).freeCtr = s.freeCtr ∧ (s.setTru f).upNs = s.upNs ∧ (s.setTru f).phase = s.phase ∧
    (s.setTru f).txFc = s.txFc ∧ (s.setTru f).fcLoaded = s.fcLoaded ∧ (s.setTru f).cfg = s.cfg ∧
    (s.setTru f).shadow = s.shadow ∧ (s.setTru f).custom = s.custom ∧ (s.setTru f).mst = s.mst ∧
    (s.setTru f).evt = s.evt ∧ (s.setTru f).ctl = s.ctl ∧ (s.setTru f).pmc = s.pmc ∧ (s.setTru f).mem = s.mem ∧
    (s.setTru f).pwr = s.pwr ∧ (s.setTru f).rte = s.rte ∧ (s.setTru f).rails = s.rails ∧ (s.setTru f).pa = s.pa ∧
    (s.setTru f).pb = s.pb ∧ (s.setTru f).cnt = s.cnt ∧ (s.setTru f).tables = s.tables ∧
    (s.setTru f).tblShadow = s.tblShadow ∧ (s.setTru f).hbDrop = s.hbDrop ∧ (s.setTru f).sch = s.sch ∧
    (s.setTru f).pkt = s.pkt ∧ (s.setTru f).hsf = s.hsf ∧ (s.setTru f).hsl = s.hsl ∧ (s.setTru f).mon = s.mon := by
  and_intros <;> rfl

@[simp] theorem State.setPkt_frame (s : State) (f : PktState → PktState) :
    (s.setPkt f).pending = s.pending ∧ (s.setPkt f).out = s.out ∧ (s.setPkt f).batch = s.batch ∧
    (s.setPkt f).freeCtr = s.freeCtr ∧ (s.setPkt f).upNs = s.upNs ∧ (s.setPkt f).phase = s.phase ∧
    (s.setPkt f).txFc = s.txFc ∧ (s.setPkt f).fcLoaded = s.fcLoaded ∧ (s.setPkt f).cfg = s.cfg ∧
    (s.setPkt f).shadow = s.shadow ∧ (s.setPkt f).custom = s.custom ∧ (s.setPkt f).mst = s.mst ∧
    (s.setPkt f).evt = s.evt ∧ (s.setPkt f).ctl = s.ctl ∧ (s.setPkt f).pmc = s.pmc ∧ (s.setPkt f).mem = s.mem ∧
    (s.setPkt f).pwr = s.pwr ∧ (s.setPkt f).rte = s.rte ∧ (s.setPkt f).rails = s.rails ∧ (s.setPkt f).pa = s.pa ∧
    (s.setPkt f).pb = s.pb ∧ (s.setPkt f).cnt = s.cnt ∧ (s.setPkt f).tables = s.tables ∧
    (s.setPkt f).tblShadow = s.tblShadow ∧ (s.setPkt f).hbDrop = s.hbDrop ∧ (s.setPkt f).tru = s.tru ∧
    (s.setPkt f).sch = s.sch ∧ (s.setPkt f).hsf = s.hsf ∧ (s.setPkt f).hsl = s.hsl ∧ (s.setPkt f).mon = s.mon := by
  and_intros <;> rfl

@[simp] theorem State.setSch_frame (s : State) (f : SchState → SchState) :
    (s.setSch f).pending = s.pending ∧ (s.setSch f).out = s.out ∧ (s.setSch f).batch = s.batch ∧
    (s.setSch f).freeCtr = s.freeCtr ∧ (s.setSch f).upNs = s.upNs ∧ (s.setSch f).phase = s.phase ∧
    (s.setSch f).txFc = s.txFc ∧ (s.setSch f).fcLoaded = s.fcLoaded ∧ (s.setSch f).cfg = s.cfg ∧
    (s.setSch f).shadow = s.shadow ∧ (s.setSch f).custom = s.custom ∧ (s.setSch f).mst = s.mst ∧
    (s.setSch f).evt = s.evt ∧ (s.setSch f).ctl = s.ctl ∧ (s.setSch f).pmc = s.pmc ∧ (s.setSch f).mem = s.mem ∧
    (s.setSch f).pwr = s.pwr ∧ (s.setSch f).rte = s.rte ∧ (s.setSch f).rails = s.rails ∧ (s.setSch f).pa = s.pa ∧
    (s.setSch f).pb = s.pb ∧ (s.setSch f).cnt = s.cnt ∧ (s.setSch f).tables = s.tables ∧
    (s.setSch f).tblShadow = s.tblShadow ∧ (s.setSch f).hbDrop = s.hbDrop ∧ (s.setSch f).tru = s.tru ∧
    (s.setSch f).pkt = s.pkt ∧ (s.setSch f).hsf = s.hsf ∧ (s.setSch f).hsl = s.hsl ∧ (s.setSch f).mon = s.mon := by
  and_intros <;> rfl

@[simp] theorem State.setMon_frame (s : State) (f : MonState → MonState) :
    (s.setMon f).pending = s.pending ∧ (s.setMon f).out = s.out ∧ (s.setMon f).batch = s.batch ∧
    (s.setMon f).freeCtr = s.freeCtr ∧ (s.setMon f).upNs = s.upNs ∧ (s.setMon f).phase = s.phase ∧
    (s.setMon f).txFc = s.txFc ∧ (s.setMon f).fcLoaded = s.fcLoaded ∧ (s.setMon f).cfg = s.cfg ∧
    (s.setMon f).shadow = s.shadow ∧ (s.setMon f).custom = s.custom ∧ (s.setMon f).mst = s.mst ∧
    (s.setMon f).evt = s.evt ∧ (s.setMon f).ctl = s.ctl ∧ (s.setMon f).pmc = s.pmc ∧ (s.setMon f).mem = s.mem ∧
    (s.setMon f).pwr = s.pwr ∧ (s.setMon f).rte = s.rte ∧ (s.setMon f).rails = s.rails ∧ (s.setMon f).pa = s.pa ∧
    (s.setMon f).pb = s.pb ∧ (s.setMon f).cnt = s.cnt ∧ (s.setMon f).tables = s.tables ∧
    (s.setMon f).tblShadow = s.tblShadow ∧ (s.setMon f).hbDrop = s.hbDrop ∧ (s.setMon f).tru = s.tru ∧
    (s.setMon f).sch = s.sch ∧ (s.setMon f).pkt = s.pkt ∧ (s.setMon f).hsf = s.hsf ∧ (s.setMon f).hsl = s.hsl := by
  and_intros <;> rfl

@[simp] theorem State.updDither_frame (s : State) (p : Path) (f : DitherState → DitherState) :
    (s.updDither p f).pending = s.pending ∧ (s.updDither p f).out = s.out ∧ (s.updDither p f).batch = s.batch ∧
    (s.updDither p f).freeCtr = s.freeCtr ∧ (s.updDither p f).upNs = s.upNs ∧ (s.updDither p f).phase = s.phase ∧
    (s.updDither p f).txFc = s.txFc ∧ (s.updDither p f).fcLoaded = s.fcLoaded ∧ (s.updDither p f).cfg = s.cfg ∧
    (s.updDither p f).shadow = s.shadow ∧ (s.updDither p f).custom = s.custom ∧ (s.updDither p f).mst = s.mst ∧
    (s.updDither p f).evt = s.evt ∧ (s.updDither p f).ctl = s.ctl ∧ (s.updDither p f).pmc = s.pmc ∧
    (s.updDither p f).mem = s.mem ∧ (s.updDither p f).pwr = s.pwr ∧ (s.updDither p f).rte = s.rte ∧
    (s.updDither p f).rails = s.rails ∧ (s.updDither p f).pa = s.pa ∧ (s.updDither p f).pb = s.pb ∧
    (s.updDither p f).cnt = s.cnt ∧ (s.updDither p f).tables = s.tables ∧ (s.updDither p f).tblShadow = s.tblShadow ∧
    (s.updDither p f).hbDrop = s.hbDrop ∧ (s.updDither p f).tru = s.tru ∧ (s.updDither p f).sch = s.sch ∧
    (s.updDither p f).pkt = s.pkt ∧ (s.updDither p f).hsf = s.hsf ∧ (s.updDither p f).hsl = s.hsl := by
  cases p <;> and_intros <;> rfl

@[simp] theorem State.occ_frame (s : State) (o : Occ) :
    (s.occ o).pending = s.pending ∧ (s.occ o).out = s.out ∧ (s.occ o).freeCtr = s.freeCtr ∧ (s.occ o).upNs = s.upNs ∧
    (s.occ o).phase = s.phase ∧ (s.occ o).txFc = s.txFc ∧ (s.occ o).fcLoaded = s.fcLoaded ∧ (s.occ o).cfg = s.cfg ∧
    (s.occ o).shadow = s.shadow ∧ (s.occ o).custom = s.custom ∧ (s.occ o).mst = s.mst ∧ (s.occ o).evt = s.evt ∧
    (s.occ o).ctl = s.ctl ∧ (s.occ o).pmc = s.pmc ∧ (s.occ o).mem = s.mem ∧ (s.occ o).pwr = s.pwr ∧
    (s.occ o).rte = s.rte ∧ (s.occ o).rails = s.rails ∧ (s.occ o).pa = s.pa ∧ (s.occ o).pb = s.pb ∧
    (s.occ o).cnt = s.cnt ∧ (s.occ o).tables = s.tables ∧ (s.occ o).tblShadow = s.tblShadow ∧
    (s.occ o).hbDrop = s.hbDrop ∧ (s.occ o).tru = s.tru ∧ (s.occ o).sch = s.sch ∧ (s.occ o).pkt = s.pkt ∧
    (s.occ o).hsf = s.hsf ∧ (s.occ o).hsl = s.hsl ∧ (s.occ o).mon = s.mon := by
  unfold State.occ; split <;> and_intros <;> rfl

@[simp] theorem State.raise_frame (s : State) (src sub inst a b : Nat) :
    (s.raise src sub inst a b).pending = s.pending ∧ (s.raise src sub inst a b).out = s.out ∧
    (s.raise src sub inst a b).freeCtr = s.freeCtr ∧ (s.raise src sub inst a b).upNs = s.upNs ∧
    (s.raise src sub inst a b).phase = s.phase ∧ (s.raise src sub inst a b).txFc = s.txFc ∧
    (s.raise src sub inst a b).fcLoaded = s.fcLoaded ∧ (s.raise src sub inst a b).cfg = s.cfg ∧
    (s.raise src sub inst a b).shadow = s.shadow ∧ (s.raise src sub inst a b).custom = s.custom ∧
    (s.raise src sub inst a b).mst = s.mst ∧ (s.raise src sub inst a b).evt = s.evt ∧
    (s.raise src sub inst a b).ctl = s.ctl ∧ (s.raise src sub inst a b).pmc = s.pmc ∧
    (s.raise src sub inst a b).mem = s.mem ∧ (s.raise src sub inst a b).pwr = s.pwr ∧
    (s.raise src sub inst a b).rte = s.rte ∧ (s.raise src sub inst a b).rails = s.rails ∧
    (s.raise src sub inst a b).pa = s.pa ∧ (s.raise src sub inst a b).pb = s.pb ∧
    (s.raise src sub inst a b).cnt = s.cnt ∧ (s.raise src sub inst a b).tables = s.tables ∧
    (s.raise src sub inst a b).tblShadow = s.tblShadow ∧ (s.raise src sub inst a b).hbDrop = s.hbDrop ∧
    (s.raise src sub inst a b).tru = s.tru ∧ (s.raise src sub inst a b).sch = s.sch ∧
    (s.raise src sub inst a b).pkt = s.pkt ∧ (s.raise src sub inst a b).hsf = s.hsf ∧
    (s.raise src sub inst a b).hsl = s.hsl ∧ (s.raise src sub inst a b).mon = s.mon := by
  exact State.occ_frame s _

@[simp] theorem State.raiseOnce_frame (s : State) (src sub inst a b : Nat) :
    (s.raiseOnce src sub inst a b).pending = s.pending ∧ (s.raiseOnce src sub inst a b).out = s.out ∧
    (s.raiseOnce src sub inst a b).freeCtr = s.freeCtr ∧ (s.raiseOnce src sub inst a b).upNs = s.upNs ∧
    (s.raiseOnce src sub inst a b).phase = s.phase ∧ (s.raiseOnce src sub inst a b).txFc = s.txFc ∧
    (s.raiseOnce src sub inst a b).fcLoaded = s.fcLoaded ∧ (s.raiseOnce src sub inst a b).cfg = s.cfg ∧
    (s.raiseOnce src sub inst a b).shadow = s.shadow ∧ (s.raiseOnce src sub inst a b).custom = s.custom ∧
    (s.raiseOnce src sub inst a b).mst = s.mst ∧ (s.raiseOnce src sub inst a b).evt = s.evt ∧
    (s.raiseOnce src sub inst a b).ctl = s.ctl ∧ (s.raiseOnce src sub inst a b).pmc = s.pmc ∧
    (s.raiseOnce src sub inst a b).mem = s.mem ∧ (s.raiseOnce src sub inst a b).pwr = s.pwr ∧
    (s.raiseOnce src sub inst a b).rte = s.rte ∧ (s.raiseOnce src sub inst a b).rails = s.rails ∧
    (s.raiseOnce src sub inst a b).pa = s.pa ∧ (s.raiseOnce src sub inst a b).pb = s.pb ∧
    (s.raiseOnce src sub inst a b).cnt = s.cnt ∧ (s.raiseOnce src sub inst a b).tables = s.tables ∧
    (s.raiseOnce src sub inst a b).tblShadow = s.tblShadow ∧ (s.raiseOnce src sub inst a b).hbDrop = s.hbDrop ∧
    (s.raiseOnce src sub inst a b).tru = s.tru ∧ (s.raiseOnce src sub inst a b).sch = s.sch ∧
    (s.raiseOnce src sub inst a b).pkt = s.pkt ∧ (s.raiseOnce src sub inst a b).hsf = s.hsf ∧
    (s.raiseOnce src sub inst a b).hsl = s.hsl ∧ (s.raiseOnce src sub inst a b).mon = s.mon := by
  exact State.occ_frame s _

@[simp] theorem State.raiseItem_frame (s : State) (src sub inst a b : Nat) :
    (s.raiseItem src sub inst a b).pending = s.pending ∧ (s.raiseItem src sub inst a b).out = s.out ∧
    (s.raiseItem src sub inst a b).freeCtr = s.freeCtr ∧ (s.raiseItem src sub inst a b).upNs = s.upNs ∧
    (s.raiseItem src sub inst a b).phase = s.phase ∧ (s.raiseItem src sub inst a b).txFc = s.txFc ∧
    (s.raiseItem src sub inst a b).fcLoaded = s.fcLoaded ∧ (s.raiseItem src sub inst a b).cfg = s.cfg ∧
    (s.raiseItem src sub inst a b).shadow = s.shadow ∧ (s.raiseItem src sub inst a b).custom = s.custom ∧
    (s.raiseItem src sub inst a b).mst = s.mst ∧ (s.raiseItem src sub inst a b).evt = s.evt ∧
    (s.raiseItem src sub inst a b).ctl = s.ctl ∧ (s.raiseItem src sub inst a b).pmc = s.pmc ∧
    (s.raiseItem src sub inst a b).mem = s.mem ∧ (s.raiseItem src sub inst a b).pwr = s.pwr ∧
    (s.raiseItem src sub inst a b).rte = s.rte ∧ (s.raiseItem src sub inst a b).rails = s.rails ∧
    (s.raiseItem src sub inst a b).pa = s.pa ∧ (s.raiseItem src sub inst a b).pb = s.pb ∧
    (s.raiseItem src sub inst a b).cnt = s.cnt ∧ (s.raiseItem src sub inst a b).tables = s.tables ∧
    (s.raiseItem src sub inst a b).tblShadow = s.tblShadow ∧ (s.raiseItem src sub inst a b).hbDrop = s.hbDrop ∧
    (s.raiseItem src sub inst a b).tru = s.tru ∧ (s.raiseItem src sub inst a b).sch = s.sch ∧
    (s.raiseItem src sub inst a b).pkt = s.pkt ∧ (s.raiseItem src sub inst a b).hsf = s.hsf ∧
    (s.raiseItem src sub inst a b).hsl = s.hsl ∧ (s.raiseItem src sub inst a b).mon = s.mon := by
  exact State.occ_frame s _

@[simp] theorem State.detail_frame (s : State) (src sub inst a b : Nat) :
    (s.detail src sub inst a b).pending = s.pending ∧ (s.detail src sub inst a b).out = s.out ∧
    (s.detail src sub inst a b).freeCtr = s.freeCtr ∧ (s.detail src sub inst a b).upNs = s.upNs ∧
    (s.detail src sub inst a b).phase = s.phase ∧ (s.detail src sub inst a b).txFc = s.txFc ∧
    (s.detail src sub inst a b).fcLoaded = s.fcLoaded ∧ (s.detail src sub inst a b).cfg = s.cfg ∧
    (s.detail src sub inst a b).shadow = s.shadow ∧ (s.detail src sub inst a b).custom = s.custom ∧
    (s.detail src sub inst a b).mst = s.mst ∧ (s.detail src sub inst a b).evt = s.evt ∧
    (s.detail src sub inst a b).ctl = s.ctl ∧ (s.detail src sub inst a b).pmc = s.pmc ∧
    (s.detail src sub inst a b).mem = s.mem ∧ (s.detail src sub inst a b).pwr = s.pwr ∧
    (s.detail src sub inst a b).rte = s.rte ∧ (s.detail src sub inst a b).rails = s.rails ∧
    (s.detail src sub inst a b).pa = s.pa ∧ (s.detail src sub inst a b).pb = s.pb ∧
    (s.detail src sub inst a b).cnt = s.cnt ∧ (s.detail src sub inst a b).tables = s.tables ∧
    (s.detail src sub inst a b).tblShadow = s.tblShadow ∧ (s.detail src sub inst a b).hbDrop = s.hbDrop ∧
    (s.detail src sub inst a b).tru = s.tru ∧ (s.detail src sub inst a b).sch = s.sch ∧
    (s.detail src sub inst a b).pkt = s.pkt ∧ (s.detail src sub inst a b).hsf = s.hsf ∧
    (s.detail src sub inst a b).hsl = s.hsl ∧ (s.detail src sub inst a b).mon = s.mon := by
  exact State.occ_frame s _

@[simp] theorem State.genRec_frame (s : State) (src : Nat) (p : Path) (k : Nat) (late : Bool) (old new : BitVec 16) :
    (s.genRec src p k late old new).pending = s.pending ∧ (s.genRec src p k late old new).out = s.out ∧
    (s.genRec src p k late old new).freeCtr = s.freeCtr ∧ (s.genRec src p k late old new).upNs = s.upNs ∧
    (s.genRec src p k late old new).phase = s.phase ∧ (s.genRec src p k late old new).txFc = s.txFc ∧
    (s.genRec src p k late old new).fcLoaded = s.fcLoaded ∧ (s.genRec src p k late old new).cfg = s.cfg ∧
    (s.genRec src p k late old new).shadow = s.shadow ∧ (s.genRec src p k late old new).custom = s.custom ∧
    (s.genRec src p k late old new).mst = s.mst ∧ (s.genRec src p k late old new).evt = s.evt ∧
    (s.genRec src p k late old new).ctl = s.ctl ∧ (s.genRec src p k late old new).pmc = s.pmc ∧
    (s.genRec src p k late old new).mem = s.mem ∧ (s.genRec src p k late old new).pwr = s.pwr ∧
    (s.genRec src p k late old new).rte = s.rte ∧ (s.genRec src p k late old new).rails = s.rails ∧
    (s.genRec src p k late old new).pa = s.pa ∧ (s.genRec src p k late old new).pb = s.pb ∧
    (s.genRec src p k late old new).cnt = s.cnt ∧ (s.genRec src p k late old new).tables = s.tables ∧
    (s.genRec src p k late old new).tblShadow = s.tblShadow ∧ (s.genRec src p k late old new).hbDrop = s.hbDrop ∧
    (s.genRec src p k late old new).tru = s.tru ∧ (s.genRec src p k late old new).sch = s.sch ∧
    (s.genRec src p k late old new).pkt = s.pkt ∧ (s.genRec src p k late old new).hsf = s.hsf ∧
    (s.genRec src p k late old new).hsl = s.hsl ∧ (s.genRec src p k late old new).mon = s.mon := by
  exact State.occ_frame s _

@[simp] theorem State.noteDenied_frame (s : State) (i : Nat) :
    (s.noteDenied i).pending = s.pending ∧ (s.noteDenied i).out = s.out ∧ (s.noteDenied i).freeCtr = s.freeCtr ∧
    (s.noteDenied i).upNs = s.upNs ∧ (s.noteDenied i).phase = s.phase ∧ (s.noteDenied i).txFc = s.txFc ∧
    (s.noteDenied i).fcLoaded = s.fcLoaded ∧ (s.noteDenied i).cfg = s.cfg ∧ (s.noteDenied i).shadow = s.shadow ∧
    (s.noteDenied i).custom = s.custom ∧ (s.noteDenied i).mst = s.mst ∧ (s.noteDenied i).evt = s.evt ∧
    (s.noteDenied i).ctl = s.ctl ∧ (s.noteDenied i).pmc = s.pmc ∧ (s.noteDenied i).mem = s.mem ∧
    (s.noteDenied i).rte = s.rte ∧ (s.noteDenied i).rails = s.rails ∧ (s.noteDenied i).pa = s.pa ∧
    (s.noteDenied i).pb = s.pb ∧ (s.noteDenied i).cnt = s.cnt ∧ (s.noteDenied i).tables = s.tables ∧
    (s.noteDenied i).tblShadow = s.tblShadow ∧ (s.noteDenied i).hbDrop = s.hbDrop ∧ (s.noteDenied i).tru = s.tru ∧
    (s.noteDenied i).sch = s.sch ∧ (s.noteDenied i).pkt = s.pkt ∧ (s.noteDenied i).hsf = s.hsf ∧
    (s.noteDenied i).hsl = s.hsl ∧ (s.noteDenied i).mon = s.mon := by
  simp [State.noteDenied]

@[simp] theorem State.noteTimeout_frame (s : State) (i : Nat) :
    (s.noteTimeout i).pending = s.pending ∧ (s.noteTimeout i).out = s.out ∧ (s.noteTimeout i).freeCtr = s.freeCtr ∧
    (s.noteTimeout i).upNs = s.upNs ∧ (s.noteTimeout i).phase = s.phase ∧ (s.noteTimeout i).txFc = s.txFc ∧
    (s.noteTimeout i).fcLoaded = s.fcLoaded ∧ (s.noteTimeout i).cfg = s.cfg ∧ (s.noteTimeout i).shadow = s.shadow ∧
    (s.noteTimeout i).custom = s.custom ∧ (s.noteTimeout i).mst = s.mst ∧ (s.noteTimeout i).evt = s.evt ∧
    (s.noteTimeout i).ctl = s.ctl ∧ (s.noteTimeout i).pmc = s.pmc ∧ (s.noteTimeout i).mem = s.mem ∧
    (s.noteTimeout i).rte = s.rte ∧ (s.noteTimeout i).rails = s.rails ∧ (s.noteTimeout i).pa = s.pa ∧
    (s.noteTimeout i).pb = s.pb ∧ (s.noteTimeout i).cnt = s.cnt ∧ (s.noteTimeout i).tables = s.tables ∧
    (s.noteTimeout i).tblShadow = s.tblShadow ∧ (s.noteTimeout i).hbDrop = s.hbDrop ∧ (s.noteTimeout i).tru = s.tru ∧
    (s.noteTimeout i).sch = s.sch ∧ (s.noteTimeout i).pkt = s.pkt ∧ (s.noteTimeout i).hsf = s.hsf ∧
    (s.noteTimeout i).hsl = s.hsl ∧ (s.noteTimeout i).mon = s.mon := by
  simp [State.noteTimeout]

@[simp] theorem State.overCheck_frame (s : State) :
    (s.overCheck).pending = s.pending ∧ (s.overCheck).out = s.out ∧ (s.overCheck).freeCtr = s.freeCtr ∧
    (s.overCheck).upNs = s.upNs ∧ (s.overCheck).phase = s.phase ∧ (s.overCheck).txFc = s.txFc ∧
    (s.overCheck).fcLoaded = s.fcLoaded ∧ (s.overCheck).cfg = s.cfg ∧ (s.overCheck).shadow = s.shadow ∧
    (s.overCheck).custom = s.custom ∧ (s.overCheck).mst = s.mst ∧ (s.overCheck).evt = s.evt ∧
    (s.overCheck).ctl = s.ctl ∧ (s.overCheck).pmc = s.pmc ∧ (s.overCheck).mem = s.mem ∧ (s.overCheck).rte = s.rte ∧
    (s.overCheck).rails = s.rails ∧ (s.overCheck).pa = s.pa ∧ (s.overCheck).pb = s.pb ∧ (s.overCheck).cnt = s.cnt ∧
    (s.overCheck).tables = s.tables ∧ (s.overCheck).tblShadow = s.tblShadow ∧ (s.overCheck).hbDrop = s.hbDrop ∧
    (s.overCheck).tru = s.tru ∧ (s.overCheck).sch = s.sch ∧ (s.overCheck).pkt = s.pkt ∧ (s.overCheck).hsf = s.hsf ∧
    (s.overCheck).hsl = s.hsl ∧ (s.overCheck).mon = s.mon := by
  unfold State.overCheck; dsimp only; split <;> simp

@[simp] theorem State.setGrant_frame (s : State) (i c : Nat) :
    (s.setGrant i c).pending = s.pending ∧ (s.setGrant i c).out = s.out ∧ (s.setGrant i c).freeCtr = s.freeCtr ∧
    (s.setGrant i c).upNs = s.upNs ∧ (s.setGrant i c).phase = s.phase ∧ (s.setGrant i c).txFc = s.txFc ∧
    (s.setGrant i c).fcLoaded = s.fcLoaded ∧ (s.setGrant i c).cfg = s.cfg ∧ (s.setGrant i c).shadow = s.shadow ∧
    (s.setGrant i c).custom = s.custom ∧ (s.setGrant i c).mst = s.mst ∧ (s.setGrant i c).evt = s.evt ∧
    (s.setGrant i c).ctl = s.ctl ∧ (s.setGrant i c).pmc = s.pmc ∧ (s.setGrant i c).mem = s.mem ∧
    (s.setGrant i c).rte = s.rte ∧ (s.setGrant i c).rails = s.rails ∧ (s.setGrant i c).pa = s.pa ∧
    (s.setGrant i c).pb = s.pb ∧ (s.setGrant i c).cnt = s.cnt ∧ (s.setGrant i c).tables = s.tables ∧
    (s.setGrant i c).tblShadow = s.tblShadow ∧ (s.setGrant i c).hbDrop = s.hbDrop ∧ (s.setGrant i c).tru = s.tru ∧
    (s.setGrant i c).sch = s.sch ∧ (s.setGrant i c).pkt = s.pkt ∧ (s.setGrant i c).hsf = s.hsf ∧
    (s.setGrant i c).hsl = s.hsl ∧ (s.setGrant i c).mon = s.mon := by
  simp [State.setGrant]

@[simp] theorem State.addGrant_frame (s : State) (i c : Nat) :
    (s.addGrant i c).pending = s.pending ∧ (s.addGrant i c).out = s.out ∧ (s.addGrant i c).freeCtr = s.freeCtr ∧
    (s.addGrant i c).upNs = s.upNs ∧ (s.addGrant i c).phase = s.phase ∧ (s.addGrant i c).txFc = s.txFc ∧
    (s.addGrant i c).fcLoaded = s.fcLoaded ∧ (s.addGrant i c).cfg = s.cfg ∧ (s.addGrant i c).shadow = s.shadow ∧
    (s.addGrant i c).custom = s.custom ∧ (s.addGrant i c).mst = s.mst ∧ (s.addGrant i c).evt = s.evt ∧
    (s.addGrant i c).ctl = s.ctl ∧ (s.addGrant i c).pmc = s.pmc ∧ (s.addGrant i c).mem = s.mem ∧
    (s.addGrant i c).rte = s.rte ∧ (s.addGrant i c).rails = s.rails ∧ (s.addGrant i c).pa = s.pa ∧
    (s.addGrant i c).pb = s.pb ∧ (s.addGrant i c).cnt = s.cnt ∧ (s.addGrant i c).tables = s.tables ∧
    (s.addGrant i c).tblShadow = s.tblShadow ∧ (s.addGrant i c).hbDrop = s.hbDrop ∧ (s.addGrant i c).tru = s.tru ∧
    (s.addGrant i c).sch = s.sch ∧ (s.addGrant i c).pkt = s.pkt ∧ (s.addGrant i c).hsf = s.hsf ∧
    (s.addGrant i c).hsl = s.hsl ∧ (s.addGrant i c).mon = s.mon := by
  simp [State.addGrant]

@[simp] theorem State.breakLock_frame (s : State) (d : Nat) :
    (s.breakLock d).pending = s.pending ∧ (s.breakLock d).out = s.out ∧ (s.breakLock d).freeCtr = s.freeCtr ∧
    (s.breakLock d).upNs = s.upNs ∧ (s.breakLock d).phase = s.phase ∧ (s.breakLock d).txFc = s.txFc ∧
    (s.breakLock d).fcLoaded = s.fcLoaded ∧ (s.breakLock d).cfg = s.cfg ∧ (s.breakLock d).shadow = s.shadow ∧
    (s.breakLock d).custom = s.custom ∧ (s.breakLock d).mst = s.mst ∧ (s.breakLock d).evt = s.evt ∧
    (s.breakLock d).pmc = s.pmc ∧ (s.breakLock d).mem = s.mem ∧ (s.breakLock d).pwr = s.pwr ∧
    (s.breakLock d).rte = s.rte ∧ (s.breakLock d).rails = s.rails ∧ (s.breakLock d).pa = s.pa ∧
    (s.breakLock d).pb = s.pb ∧ (s.breakLock d).cnt = s.cnt ∧ (s.breakLock d).tables = s.tables ∧
    (s.breakLock d).tblShadow = s.tblShadow ∧ (s.breakLock d).hbDrop = s.hbDrop ∧ (s.breakLock d).tru = s.tru ∧
    (s.breakLock d).sch = s.sch ∧ (s.breakLock d).pkt = s.pkt ∧ (s.breakLock d).hsf = s.hsf ∧
    (s.breakLock d).hsl = s.hsl ∧ (s.breakLock d).mon = s.mon := by
  unfold State.breakLock; split <;> simp

/-! ### Paths -/

@[simp] theorem State.updPath_path (s : State) (p : Path) (f : PathState → PathState) :
    (s.updPath p f).path p = f (s.path p) := by cases p <;> rfl

@[simp] theorem State.updPath_other (s : State) (p : Path) (f : PathState → PathState) :
    (s.updPath p f).path (otherPath p) = s.path (otherPath p) := by cases p <;> rfl

@[simp] theorem State.updMstPath_path (s : State) (p : Path) (f : PathMst → PathMst) :
    (s.updMstPath p f).mst.path p = f (s.mst.path p) := by cases p <;> rfl

@[simp] theorem State.updMstPath_other (s : State) (p : Path) (f : PathMst → PathMst) :
    (s.updMstPath p f).mst.path (otherPath p) = s.mst.path (otherPath p) := by cases p <;> rfl

/-! ### Registers -/

/-- A register item reads as what was stored in it. -/
@[simp] theorem State.setRegI_same (s : State) (off idx : Nat) (w : Word) :
    (s.setRegI off idx w).regI off idx = w := sparseGet_set_same

/-- A store in one register item leaves the others alone. -/
theorem State.setRegI_other (s : State) {off idx off' idx' : Nat} (w : Word) (h : regKey off' idx' ≠ regKey off idx) :
    (s.setRegI off idx w).regI off' idx' = s.regI off' idx' := sparseGet_set_other h

end Sys2Proof.Machine
end

