-- ==== Sys2Proof/Laws/Memory.lean ====
section
/-!
SUPPORT. The memory die: every operation on it keeps the canonical form, and what a store of bytes changes.
-/
namespace Sys2Proof.Machine

/-- What every step of a fold keeps, the fold keeps. -/
theorem foldl_keeps {α β : Type} (P : β → Prop) (f : β → α → β) (h : ∀ b a, P b → P (f b a)) (l : List α) (b : β)
    (hb : P b) : P (l.foldl f b) := by
  induction l generalizing b with
  | nil => exact hb
  | cons a l ih => exact ih _ (h b a hb)

theorem foldr_keeps {α β : Type} (P : β → Prop) (f : α → β → β) (h : ∀ b a, P b → P (f a b)) (l : List α) (b : β)
    (hb : P b) : P (l.foldr f b) := by
  induction l with
  | nil => exact hb
  | cons a l ih => exact h _ _ ih

theorem reset_memory_wf : Memory.wf State.reset.mem = true := rfl

/-! ### One store -/

theorem MemState.store_wf {m : MemState} {a : Nat} {b : Bytes} (h : Memory.wf m = true) :
    Memory.wf (m.store a b) = true := sparseSetList_wf b h

/-- A store leaves the bytes outside its range alone. -/
theorem MemState.store_other {m : MemState} {a x : Nat} {b : Bytes} (h : x < a ∨ a + b.length ≤ x) :
    (m.store a b).byte x = m.byte x := sparseGet_setList_other b h

/-- A byte that a store covers reads as the byte stored there. -/
theorem MemState.store_byte {m : MemState} {a i : Nat} {b : Bytes} (h : i < b.length) :
    (m.store a b).byte (a + i) = b[i] := sparseGet_setList b h

@[simp] theorem MemState.markWritten_bytes (m : MemState) (w n : Nat) : (m.markWritten w n).bytes = m.bytes := by
  unfold MemState.markWritten; split <;> rfl

@[simp] theorem MemState.mergeInto_bytes (m : MemState) (w : Nat) (p : List (Nat × Byte)) :
    (m.mergeInto w p).bytes = m.bytes := rfl

@[simp] theorem MemState.mergePut_bytes (m : MemState) (w : Nat) (p : List (Nat × Byte)) :
    (m.mergePut w p).bytes = m.bytes := by
  unfold MemState.mergePut; split <;> rfl

@[simp] theorem MemState.writeWord_bytes (m : MemState) (w : Nat) (b : Bytes) :
    (m.writeWord w b).bytes = (m.store (32 * w) (padTo 32 b)).bytes := by simp [MemState.writeWord]

theorem padTo_length (n : Nat) (b : Bytes) : (padTo n b).length = n := by
  simp [padTo, bytesAt]

/-- A write of a code word leaves the bytes of the other words alone. -/
theorem MemState.writeWord_other {m : MemState} {w x : Nat} {b : Bytes} (h : x < 32 * w ∨ 32 * w + 32 ≤ x) :
    (m.writeWord w b).byte x = m.byte x := by
  have := MemState.store_other (m := m) (a := 32 * w) (x := x) (b := padTo 32 b) (by rw [padTo_length]; exact h)
  simpa [MemState.byte] using this

/-! ### The canonical form -/

theorem MemState.writeWord_wf {m : MemState} {w : Nat} {b : Bytes} (h : Memory.wf m = true) :
    Memory.wf (m.writeWord w b) = true := by
  have := MemState.store_wf (a := 32 * w) (b := padTo 32 b) h
  simpa [Memory.wf] using this

theorem MemState.writeWords_wf {m : MemState} {w : Nat} (l : List Bytes) (h : Memory.wf m = true) :
    Memory.wf (m.writeWords w l) = true := by
  induction l generalizing m w with
  | nil => exact h
  | cons b l ih => exact ih (MemState.writeWord_wf h)

theorem MemState.hostPiece_wf {m : MemState} {a : Nat} {b : Bytes} (h : Memory.wf m = true) :
    Memory.wf (m.hostPiece a b) = true := by
  simp only [MemState.hostPiece]
  split
  · exact h
  · split
    · exact MemState.writeWord_wf h
    · split
      · simpa [Memory.wf] using h
      · exact h

theorem MemState.drain_wf (fuel : Nat) {m : MemState} (h : Memory.wf m = true) : Memory.wf (m.drain fuel) = true := by
  induction fuel generalizing m with
  | zero => exact h
  | succ n ih =>
    unfold MemState.drain
    split
    · exact h
    · split
      · exact ih (MemState.hostPiece_wf (m := { m with stalled := [] }) h)
      · exact h

/-! ### The state's operations -/


theorem State.noteRead_wf {s : State} (r a n : Nat) (h : Memory.wf s.mem = true) :
    Memory.wf (s.noteRead r a n).mem = true := by
  unfold State.noteRead
  refine foldl_keeps (fun s : State => Memory.wf s.mem = true) _ (fun s i hs => ?_) _ _ h
  dsimp only
  split
  · exact hs
  · exact hs
  · simpa [State.raiseOnce, Memory.wf] using hs

theorem State.mergeWord_wf {s : State} (w : Nat) (p : List (Nat × Byte)) (h : Memory.wf s.mem = true) :
    Memory.wf (s.mergeWord w p).mem = true := by
  unfold State.mergeWord
  have h1 := State.noteRead_wf 9 (32 * w) 1 h
  generalize s.noteRead 9 (32 * w) 1 = t at h1
  dsimp only
  have h2 : Memory.wf (if t.mem.upsets w < 3 then t.mem
      else t.mem.store (32 * w) ((List.range 32).map fun i => t.mem.cell t.freeCtr (32 * w + i))) = true := by
    split
    · exact h1
    · exact MemState.store_wf h1
  have h3 := foldr_keeps (fun m : MemState => Memory.wf m = true)
    (fun (x : Nat × Byte) m => { m with bytes := sparseSet emptyByte (32 * w + x.1 % 32) x.2 m.bytes })
    (fun m x hm => sparseSet_wf (d := emptyByte) hm) p _ h2
  split
  · simpa [Memory.wf] using h3
  · simpa [Memory.wf] using h3
  · simpa [Memory.wf, State.raiseOnce] using h3

theorem State.suffer_wf {s : State} (u : Upsets) (h : Memory.wf s.mem = true) : Memory.wf (s.suffer u).mem = true := h

theorem State.putRecord_wf {s : State} (b : Bytes) (sev : Nat) (h : Memory.wf s.mem = true) :
    Memory.wf (s.putRecord b sev).mem = true := by
  unfold State.putRecord
  dsimp only
  split <;> exact MemState.writeWord_wf h

theorem State.windowWrite_wf {s : State} (a : Nat) (b : Bytes) (h : Memory.wf s.mem = true) :
    Memory.wf (s.windowWrite a b).mem = true := by
  unfold State.windowWrite
  refine foldl_keeps (fun s : State => Memory.wf s.mem = true) _ (fun s i hs => ?_) _ _ h
  dsimp only
  split
  · exact hs
  · exact MemState.hostPiece_wf hs

@[simp] theorem State.requestRemap_bytes (s : State) (w : Nat) : (s.requestRemap w).mem.bytes = s.mem.bytes := by
  simp only [State.requestRemap, State.raiseOnce, State.ledgerState]
  split
  · rfl
  · split <;> rfl

@[simp] theorem State.ledgerEnter_bytes (s : State) (w : Nat) (b : Bool) :
    (s.ledgerEnter w b).mem.bytes = s.mem.bytes := by
  simp only [State.ledgerEnter]
  split
  · rfl
  · split
    · rfl
    · split <;> simp [State.raise]

/-- The watch list and the ledger stand beside the memory die: an entry changes no byte. -/
@[simp] theorem State.watch_bytes (s : State) (p w : Nat) : (s.watch p w).mem.bytes = s.mem.bytes := by
  simp only [State.watch]
  split
  · split <;> rfl
  · split <;> split <;> simp

theorem State.mergeEnd_wf {s : State} (e : MergeEntry) (h : Memory.wf s.mem = true) :
    Memory.wf (s.mergeEnd e).mem = true := by
  have hm := State.mergeWord_wf e.word e.patch h
  unfold State.mergeEnd
  split
  · exact hm
  · split
    · split
      · exact h
      · exact hm
    · simpa [Memory.wf] using hm
    · exact hm

theorem State.mergeStep_wf {s : State} (h : Memory.wf s.mem = true) : Memory.wf s.mergeStep.mem = true := by
  unfold State.mergeStep
  split
  · exact h
  · rename_i e rest _
    exact MemState.drain_wf _ (State.mergeEnd_wf (s := { s with mem := { s.mem with merge := rest } }) e h)

theorem State.mergeRoom_wf (w fuel : Nat) {s : State} (h : Memory.wf s.mem = true) :
    Memory.wf (s.mergeRoom w fuel).mem = true := by
  induction fuel generalizing s with
  | zero => exact h
  | succ n ih =>
    unfold State.mergeRoom
    split
    · exact h
    · exact ih (State.mergeStep_wf h)

theorem State.mergeAdd_wf {s : State} (w : Nat) (p : List (Nat × Byte)) (h : Memory.wf s.mem = true) :
    Memory.wf (s.mergeAdd w p).mem = true := by
  simpa [State.mergeAdd, Memory.wf] using State.mergeRoom_wf w _ h

theorem State.scrubBack_wf {s : State} (w : Nat) (h : Memory.wf s.mem = true) :
    Memory.wf (s.scrubBack w).mem = true := State.mergeAdd_wf w [] h

theorem State.deviceWrite_wf {s : State} (a : Nat) (b : Bytes) (h : Memory.wf s.mem = true) :
    Memory.wf (s.deviceWrite a b).mem = true := by
  unfold State.deviceWrite
  refine foldl_keeps (fun s : State => Memory.wf s.mem = true) _ (fun s i hs => ?_) _ _ h
  dsimp only
  split
  · exact MemState.writeWord_wf hs
  · exact State.mergeAdd_wf _ _ hs

theorem State.mergeSettle_wf (fuel : Nat) {s : State} (h : Memory.wf s.mem = true) :
    Memory.wf (s.mergeSettle fuel).mem = true := by
  induction fuel generalizing s with
  | zero => exact h
  | succ n ih =>
    unfold State.mergeSettle
    split
    · exact h
    · exact ih (State.mergeStep_wf h)

theorem State.windowRead_wf {s : State} (a n : Nat) (h : Memory.wf s.mem = true) :
    Memory.wf (s.windowRead a n).1.mem = true := by
  unfold State.windowRead
  exact foldl_keeps (fun s : State => Memory.wf s.mem = true) _ (fun s w hs => State.noteRead_wf 5 (32 * w) 1 hs) _ _
    (State.mergeSettle_wf _ h)

end Sys2Proof.Machine
end

