-- ==== Sys2Proof/Laws/Finish.lean ====
section
/-!
SUPPORT. What the reports that close a command do: `Reported u u.finish` for every effect `u`, from one lemma per
operation of the journal.
-/
namespace Sys2Proof.Machine

/-! ### Equal plain parts -/

theorem State.plain_of {u t : State} (h : t.plain = u.plain) :
    t.pending = u.pending ∧ t.freeCtr = u.freeCtr ∧ t.cfg = u.cfg ∧ t.ctl = u.ctl ∧ t.mst = u.mst ∧ t.pwr = u.pwr ∧
    t.rte = u.rte ∧ t.pa = u.pa ∧ t.pb = u.pb ∧ t.cnt = u.cnt ∧ t.mon = u.mon ∧ t.tru = u.tru ∧ t.hsf = u.hsf ∧
    t.hsl = u.hsl ∧ t.sch = u.sch ∧ t.pkt = u.pkt ∧ t.rails = u.rails ∧ t.tables = u.tables ∧ t.upNs = u.upNs ∧
    t.phase = u.phase ∧ t.txFc = u.txFc ∧ t.fcLoaded = u.fcLoaded ∧ t.shadow = u.shadow ∧ t.custom = u.custom ∧
    t.tblShadow = u.tblShadow ∧ t.hbDrop = u.hbDrop := by
  cases u; cases t
  simp only [State.plain, State.mk.injEq] at h
  tauto

theorem sameWord.refl (m : MemState) (w : Nat) : sameWord m m w := ⟨fun _ _ => rfl, rfl, rfl, rfl, rfl⟩

theorem sameWord.trans {m n k : MemState} {w : Nat} (h : sameWord m n w) (h' : sameWord n k w) : sameWord m k w :=
  ⟨fun i hi => (h'.1 i hi).trans (h.1 i hi), h'.2.1.trans h.2.1, h'.2.2.1.trans h.2.2.1,
    h'.2.2.2.1.trans h.2.2.2.1, h'.2.2.2.2.trans h.2.2.2.2⟩

/-! ### `Journals` is a preorder -/

theorem Journals.refl (u : State) : Journals u u :=
  ⟨rfl, rfl, ⟨[], by simp⟩, rfl, ⟨rfl, rfl, rfl, rfl, rfl⟩, fun _ h => h, rfl, fun w _ => sameWord.refl _ w, fun h => h⟩

theorem Journals.trans {u v t : State} (h : Journals u v) (h' : Journals v t) : Journals u t where
  plain := h'.plain.trans h.plain
  waits := h'.waits.trans h.waits
  sent := by
    obtain ⟨l, hl⟩ := h.sent
    obtain ⟨l', hl'⟩ := h'.sent
    exact ⟨l ++ l', by simp [hl', hl]⟩
  counts := by rw [h'.counts, h.counts]
  spilled := ⟨h'.spilled.1.trans h.spilled.1, h'.spilled.2.1.trans h.spilled.2.1,
    h'.spilled.2.2.1.trans h.spilled.2.2.1, h'.spilled.2.2.2.1.trans h.spilled.2.2.2.1,
    h'.spilled.2.2.2.2.trans h.spilled.2.2.2.2⟩
  pends n hn := h'.pends n (h.pends n hn)
  die := by rw [h'.die, h.die]
  words w hw := (h.words w hw).trans (h'.words w hw)
  form hm := h'.form (h.form hm)

/-- A change of the event registers that keeps what pends. -/
theorem Journals.ofEvt (u : State) (e : EvtState)
    (h : e.spillNext = u.evt.spillNext ∧ e.spillFlush = u.evt.spillFlush ∧ e.sectors = u.evt.sectors ∧
      e.spillRead = u.evt.spillRead ∧ e.spillDone = u.evt.spillDone)
    (hp : ∀ n, u.evt.pend.testBit n = true → e.pend.testBit n = true) : Journals u { u with evt := e } :=
  ⟨rfl, rfl, ⟨[], by simp⟩, rfl, h, hp, rfl, fun w _ => sameWord.refl _ w, fun h => h⟩

theorem pmcAdd_keeps (cfg : Nat → Word) (fuel n a : Nat) (m : PmcState) :
    pmcAdd cfg fuel n a m = { m with cnt := (pmcAdd cfg fuel n a m).cnt, ovf := (pmcAdd cfg fuel n a m).ovf } := by
  induction fuel generalizing n a m with
  | zero => rfl
  | succ k ih =>
    unfold pmcAdd
    dsimp only
    split
    · rfl
    · split
      · rw [ih]
      · rfl

theorem State.count_journals (u : State) (c i n : Nat) : Journals u (u.count c i n) where
  plain := rfl
  waits := rfl
  sent := ⟨[], by simp [State.count]⟩
  counts := by
    simp only [State.count]
    refine foldl_keeps (fun m : PmcState => m = { u.pmc with cnt := m.cnt, ovf := m.ovf }) _ (fun m e hm => ?_) _ _ rfl
    rw [pmcAdd_keeps, hm]
  spilled := ⟨rfl, rfl, rfl, rfl, rfl⟩
  pends _ h := h
  die := rfl
  words w _ := sameWord.refl _ w
  form h := h

theorem find_map_other {l : List MergeEntry} {f : MergeEntry → MergeEntry} {w : Nat}
    (hw : ∀ e, (f e).word = e.word) (hf : ∀ e ∈ l, e.word = w → f e = e) :
    (l.map f).find? (fun e => e.word == w) = l.find? (fun e => e.word == w) := by
  induction l with
  | nil => rfl
  | cons e l ih =>
    have ih := ih (fun e he => hf e (List.mem_cons_of_mem _ he))
    by_cases h : e.word = w
    · have := hf e (List.mem_cons_self ..) h
      simp [this, h]
    · simp only [List.map_cons, List.find?_cons, hw]
      simp only [show (e.word == w) = false by simpa using h]
      exact ih

theorem MemState.writeWord_die (m : MemState) (k : Nat) (b : Bytes) :
    m.writeWord k b = { m with
      bytes := (m.writeWord k b).bytes, written := (m.writeWord k b).written, poison := (m.writeWord k b).poison
      upset := (m.writeWord k b).upset, merge := (m.writeWord k b).merge } := by
  have h : ∀ n : MemState, n.markWritten k 1 = { n with written := (n.markWritten k 1).written } := fun n => by
    unfold MemState.markWritten; split <;> rfl
  simp only [MemState.writeWord]
  rw [h]
  rfl

theorem MemState.markWritten_other {m : MemState} {w k : Nat} (h : w ≠ k) :
    (m.markWritten k 1).isWritten w = m.isWritten w := by
  unfold MemState.markWritten
  split
  · rfl
  · have : ¬ (k ≤ w ∧ w < k + 1) := by omega
    simp only [MemState.isWritten, List.any_cons, decide_eq_false this, Bool.false_or]

/-- A write of one word leaves every other word as it is. -/
theorem MemState.writeWord_sameWord {m : MemState} {w k : Nat} (b : Bytes) (h : w ≠ k) :
    sameWord m (m.writeWord k b) w := by
  refine ⟨fun i hi => MemState.writeWord_other (by omega), ?_, ?_, ?_, ?_⟩
  · exact MemState.markWritten_other h
  · simp only [MemState.poisoned, MemState.writeWord]
    rw [sparseGet_set_other h]
    unfold MemState.markWritten
    split <;> rfl
  · simp only [MemState.upsets, MemState.writeWord]
    rw [sparseGet_set_other h]
    unfold MemState.markWritten
    split <;> rfl
  · have hm : ((m.store (32 * k) (padTo 32 b)).markWritten k 1).merge = m.merge := by
      unfold MemState.markWritten; split <;> rfl
    simp only [MemState.mergeOf, MemState.writeWord, hm]
    refine find_map_other (fun e => by split <;> rfl) (fun e _ he => ?_)
    rw [if_neg (by omega)]

theorem State.putRecord_journals (u : State) (b : Bytes) (sev : Nat) : Journals u (u.putRecord b sev) := by
  have h1 : Journals u { u with
      mem := u.mem.writeWord (journalBase / 32 + u.evt.wr % 32768) b
      evt := { u.evt with wr := (u.evt.wr + 1) % 32768 } } :=
    { plain := rfl
      waits := rfl
      sent := ⟨[], by simp⟩
      counts := rfl
      spilled := ⟨rfl, rfl, rfl, rfl, rfl⟩
      pends := fun _ h => h
      die := MemState.writeWord_die _ _ _
      words := fun w hw => MemState.writeWord_sameWord b (by
        rintro rfl
        exact hw ⟨Nat.le_add_right _ _, Nat.add_lt_add_left (Nat.mod_lt _ (by decide)) _⟩)
      form := fun h => MemState.writeWord_wf h }
  unfold State.putRecord
  dsimp only
  split
  · exact h1.trans (Journals.ofEvt _ _ ⟨rfl, rfl, rfl, rfl, rfl⟩ (fun _ h => h))
  · exact h1

theorem State.record_journals (u : State) (o : Occ) (n : Nat) : Journals u (u.record o n) := by
  unfold State.record
  dsimp only
  split
  · exact (Journals.ofEvt u { u.evt with seq := u.evt.seq + 1 } ⟨rfl, rfl, rfl, rfl, rfl⟩ (fun _ h => h)).trans
      (State.putRecord_journals _ _ _)
  · exact Journals.ofEvt u _ ⟨rfl, rfl, rfl, rfl, rfl⟩ (fun _ h => h)

theorem State.sendVector_journals (u : State) (v : Nat) : Journals u (u.sendVector v) := by
  have emits : ∀ u : State, Journals u (u.emit (.msix v)) := fun u =>
    ⟨rfl, rfl, ⟨[v], rfl⟩, rfl, ⟨rfl, rfl, rfl, rfl, rfl⟩, fun _ h => h, rfl, fun w _ => sameWord.refl _ w, fun h => h⟩
  unfold State.sendVector
  split
  · exact Journals.ofEvt u _ ⟨rfl, rfl, rfl, rfl, rfl⟩ (fun _ h => h)
  · split
    · exact Journals.refl u
    · dsimp only
      split
      · exact emits u
      · exact (Journals.ofEvt u { u.evt with holdoff := u.evt.holdoff ++ [v] } ⟨rfl, rfl, rfl, rfl, rfl⟩
          (fun _ h => h)).trans (emits _)

theorem State.signal_journals (u : State) (v : Nat) : Journals u (u.signal v) := by
  unfold State.signal
  split
  · split
    · exact Journals.refl u
    · exact Journals.ofEvt u _ ⟨rfl, rfl, rfl, rfl, rfl⟩ (fun _ h => h)
  · exact State.sendVector_journals u v

/-- The record of an event, and its signal. -/
theorem State.recordSignal_journals (u : State) (o : Occ) (n : Nat) :
    Journals u (if flagOf ((u.record o n).srcCfg o.src) 31
      then (u.record o n).signal (fieldOf ((u.record o n).srcCfg o.src) 5 0) else u.record o n) := by
  split
  · exact (State.record_journals u o n).trans (State.signal_journals _ _)
  · exact State.record_journals u o n

theorem State.raiseOcc_journals (u : State) (o : Occ) : Journals u (u.raiseOcc o) := by
  unfold State.raiseOcc
  dsimp only
  refine (State.count_journals u 0x0D o.src 1).trans ?_
  generalize u.count 0x0D o.src 1 = v
  split
  · exact Journals.ofEvt v _ ⟨rfl, rfl, rfl, rfl, rfl⟩ (fun _ h => h)
  · refine Journals.trans ?_ (State.recordSignal_journals _ o _)
    exact Journals.ofEvt v _ ⟨rfl, rfl, rfl, rfl, rfl⟩ (fun n hn => by simp [hn])

theorem State.dispose_journals (u : State) (o : Occ) : Journals u (u.dispose o) := by
  unfold State.dispose
  split
  · exact State.raiseOcc_journals u o
  · exact State.record_journals u o 0

theorem State.lossMarker_journals (u : State) : Journals u u.lossMarker := by
  unfold State.lossMarker
  split
  · exact Journals.refl u
  · split
    · exact ((Journals.ofEvt u { u.evt with lost := none } ⟨rfl, rfl, rfl, rfl, rfl⟩ (fun _ h => h)).trans
        (State.record_journals _ _ 0)).trans (State.raiseOcc_journals _ _)
    · exact Journals.refl u

/-- An event raised without a limit pends. -/
theorem State.raiseOcc_pend (u : State) {o : Occ} (h : o.limit = 0) : (u.raiseOcc o).evt.pend.testBit o.src = true := by
  unfold State.raiseOcc
  simp only [h, ne_eq, not_true_eq_false, false_and, if_false]
  generalize u.count 0x0D o.src 1 = v
  exact (State.recordSignal_journals _ o _).pends _ (by simp)

/-! ### `flush` -/

theorem State.disposes_journals (l : List Occ) (u : State) : Journals u (l.foldl (fun s o => s.dispose o) u) := by
  induction l generalizing u with
  | nil => exact Journals.refl u
  | cons o l ih => exact (State.dispose_journals u o).trans (ih _)

theorem insertOcc_mem {o x : Occ} {l : List Occ} : x ∈ insertOcc o l ↔ x = o ∨ x ∈ l := by
  induction l with
  | nil => simp [insertOcc]
  | cons y l ih =>
    unfold insertOcc
    split
    · simp [ih]; tauto
    · simp

theorem sortOccs_mem {x : Occ} {l : List Occ} : x ∈ sortOccs l ↔ x ∈ l := by
  have : ∀ acc : List Occ, x ∈ l.foldl (fun acc o => insertOcc o acc) acc ↔ x ∈ acc ∨ x ∈ l := by
    induction l with
    | nil => simp
    | cons y l ih => intro acc; simp [ih, insertOcc_mem]; tauto
  simpa [sortOccs] using this []

theorem State.disposes_pend {l : List Occ} {o : Occ} (u : State) (h : o ∈ l) (hk : o.kind = 0) (hl : o.limit = 0) :
    (l.foldl (fun s o => s.dispose o) u).evt.pend.testBit o.src = true := by
  induction l generalizing u with
  | nil => simp at h
  | cons x l ih =>
    rcases List.mem_cons.mp h with rfl | h
    · refine (State.disposes_journals l _).pends _ ?_
      simp only [State.dispose, hk, if_true]
      exact State.raiseOcc_pend u hl
    · exact ih _ h

/-- A command without occurrences leaves the journal alone; otherwise `flush` takes them all. -/
theorem State.flush_eq (u : State) :
    (u.batch = [] ∧ u.flush = u) ∨
    u.flush = (sortOccs u.batch).foldl (fun s o => s.dispose o) ({ u with batch := [] }).lossMarker := by
  unfold State.flush
  split
  · exact .inl ⟨‹_›, rfl⟩
  · exact .inr rfl

theorem State.flush_batch (u : State) : u.flush.batch = [] := by
  rcases State.flush_eq u with ⟨h, h'⟩ | h
  · rw [h']; exact h
  · rw [h]
    exact ((State.lossMarker_journals { u with batch := [] }).trans (State.disposes_journals _ _)).waits

theorem State.flush_journals (u : State) : Journals u { u.flush with batch := u.batch } := by
  rcases State.flush_eq u with ⟨_, h'⟩ | h
  · rw [h']; exact Journals.refl u
  · rw [h]
    have j := (State.lossMarker_journals { u with batch := [] }).trans (State.disposes_journals (sortOccs u.batch) _)
    exact ⟨j.plain, rfl, j.sent, j.counts, j.spilled, j.pends, j.die, j.words, j.form⟩

theorem State.flush_pend {u : State} {o : Occ} (h : o ∈ u.batch) (hk : o.kind = 0) (hl : o.limit = 0) :
    u.flush.evt.pend.testBit o.src = true := by
  rcases State.flush_eq u with ⟨hb, _⟩ | hf
  · simp [hb] at h
  · rw [hf]
    exact State.disposes_pend _ (sortOccs_mem.mpr h) hk hl

/-! ### The sweeps -/

/-- What ending a dither turn changes: outputs, occurrences, and the monitor. -/
theorem State.turnSweep_keeps (u : State) (p : Path) :
    u.turnSweep p = { u with out := (u.turnSweep p).out, batch := (u.turnSweep p).batch, mon := (u.turnSweep p).mon } ∧
    ∃ l, (u.turnSweep p).batch = u.batch ++ l := by
  unfold State.turnSweep
  split
  · exact ⟨rfl, [], by simp⟩
  · split
    · unfold State.abandonTurn State.occ
      cases p <;> exact ⟨rfl, _, rfl⟩
    · exact ⟨rfl, [], by simp⟩

/-- A mismatch depends on the image, the registers and the units. -/
theorem State.mismatched_congr {s t : State} (h : s.rte = t.rte ∧ s.cfg = t.cfg ∧ s.pa = t.pa ∧ s.pb = t.pb ∧
    s.hsf = t.hsf ∧ s.hsl = t.hsl) (i : Nat) : s.mismatched i = t.mismatched i := by
  obtain ⟨h1, h2, h3, h4, h5, h6⟩ := h
  have e : s.mismatched i = ({ t with rte := s.rte, cfg := s.cfg, pa := s.pa, pb := s.pb, hsf := s.hsf, hsl := s.hsl }
    : State).mismatched i := rfl
  rw [e, h1, h2, h3, h4, h5, h6]

/-- One step of `mismatchSweep`. -/
def State.endMismatch (s : State) (i : Nat) : State :=
  if s.mismatched i then s
  else ({ s with ctl := { s.ctl with mismatch := s.ctl.mismatch.filter (fun j => j != i) } }).raise 302 2 i
    (cleared (s.ordered i)) (s.actual i)

theorem State.endMismatches_keeps (l : List Nat) (u : State) :
    l.foldl State.endMismatch u = { u with
      batch := (l.foldl State.endMismatch u).batch
      ctl := { u.ctl with mismatch := u.ctl.mismatch.filter fun j => !l.contains j || u.mismatched j } } ∧
    ∃ b, (l.foldl State.endMismatch u).batch = u.batch ++ b := by
  induction l generalizing u with
  | nil =>
    refine ⟨?_, [], by simp⟩
    simp
  | cons i l ih =>
    rw [List.foldl_cons]
    have step : ∃ b, u.endMismatch i = { u with
        batch := u.batch ++ b
        ctl := { u.ctl with mismatch := u.ctl.mismatch.filter fun j => !(j == i) || u.mismatched j } } := by
      unfold State.endMismatch
      split
      · rename_i h
        refine ⟨[], ?_⟩
        have : (u.ctl.mismatch.filter fun j => !(j == i) || u.mismatched j) = u.ctl.mismatch := by
          refine List.filter_eq_self.mpr fun j _ => ?_
          by_cases hj : j = i <;> simp [hj, h]
        rw [this]
        simp
      · rename_i h
        refine ⟨[⟨0, 302, 2, i, cleared (u.ordered i), u.actual i, false, 0⟩], ?_⟩
        have : (u.ctl.mismatch.filter fun j => !(j == i) || u.mismatched j)
            = u.ctl.mismatch.filter fun j => j != i := by
          refine List.filter_congr fun j _ => ?_
          by_cases hj : j = i
          · subst hj; simp [h]
          · have : (j == i) = false := beq_eq_false_iff_ne.mpr hj
            rw [this, bne, this]
            rfl
        rw [this]
        rfl
    obtain ⟨b, hb⟩ := step
    have hm : ∀ j, (u.endMismatch i).mismatched j = u.mismatched j :=
      State.mismatched_congr (by rw [hb]; exact ⟨rfl, rfl, rfl, rfl, rfl, rfl⟩)
    obtain ⟨e, b', hb'⟩ := ih (u.endMismatch i)
    refine ⟨?_, b ++ b', by rw [hb', hb]; simp⟩
    rw [e]
    have hm : (u.endMismatch i).mismatched = u.mismatched := funext hm
    rw [hm]
    generalize (l.foldl State.endMismatch (u.endMismatch i)).batch = bb
    rw [hb]
    dsimp only
    rw [List.filter_filter]
    congr 2
    refine List.filter_congr fun j _ => ?_
    by_cases hj : j = i <;> simp [hj]
    by_cases u.mismatched i <;> simp [*]

theorem State.mismatchSweep_keeps (u : State) :
    u.mismatchSweep = { u with
      batch := u.mismatchSweep.batch
      ctl := { u.ctl with mismatch := u.ctl.mismatch.filter u.mismatched } } ∧
    ∃ b, u.mismatchSweep.batch = u.batch ++ b := by
  obtain ⟨e, h⟩ := State.endMismatches_keeps u.ctl.mismatch u
  have : (u.ctl.mismatch.filter fun j => !u.ctl.mismatch.contains j || u.mismatched j)
      = u.ctl.mismatch.filter u.mismatched := List.filter_congr fun j hj => by simp [hj]
  rw [this] at e
  exact ⟨e, h⟩

/-- What the sweeps change: outputs, occurrences, the mismatches held and the dither turns. -/
theorem State.swept_keeps (u : State) :
    u.swept = { u with
      out := u.swept.out, batch := u.swept.batch
      ctl := { u.ctl with mismatch := u.ctl.mismatch.filter u.mismatched }
      mon := ((u.turnSweep .a).turnSweep .b).mon } ∧
    ∃ b, u.swept.batch = u.batch ++ b := by
  obtain ⟨ea, la, ha⟩ := State.turnSweep_keeps u .a
  obtain ⟨eb, lb, hb⟩ := State.turnSweep_keeps (u.turnSweep .a) .b
  have e : (u.turnSweep .a).turnSweep .b = { u with
      out := ((u.turnSweep .a).turnSweep .b).out, batch := ((u.turnSweep .a).turnSweep .b).batch
      mon := ((u.turnSweep .a).turnSweep .b).mon } := by
    generalize (u.turnSweep .a).turnSweep .b = x at eb ⊢
    generalize u.turnSweep .a = w at ea eb
    exact eb.trans (by rw [ea])
  obtain ⟨em, lm, hm⟩ := State.mismatchSweep_keeps ((u.turnSweep .a).turnSweep .b)
  refine ⟨?_, la ++ (lb ++ lm), ?_⟩
  · have hc : ∀ i, ((u.turnSweep .a).turnSweep .b).mismatched i = u.mismatched i :=
      State.mismatched_congr (by rw [e]; exact ⟨rfl, rfl, rfl, rfl, rfl, rfl⟩)
    have hc : ((u.turnSweep .a).turnSweep .b).mismatched = u.mismatched := funext hc
    have hctl : ((u.turnSweep .a).turnSweep .b).ctl = u.ctl := by rw [e]
    rw [hc, hctl] at em
    unfold State.swept
    generalize (u.turnSweep .a).turnSweep .b = v at e em
    rw [em]
    generalize v.mismatchSweep.batch = b
    rw [e]
  · unfold State.swept
    rw [hm, hb, ha]
    simp

/-- Every effect is closed by its reports. -/
theorem State.reported_finish (u : State) : Reported u u.finish := by
  obtain ⟨e, b, hb⟩ := State.swept_keeps u
  have j := State.flush_journals u.swept
  have hf : u.finish = u.swept.flush := rfl
  rw [hf]
  refine ⟨?_, j, fun hq => ?_, State.flush_batch _, fun hq => ?_, fun o ho hk hl => ?_⟩
  · have := j.plain
    have h2 : u.swept.plain = ({ u with
      ctl := { u.ctl with mismatch := u.ctl.mismatch.filter u.mismatched }
      mon := ((u.turnSweep .a).turnSweep .b).mon } : State).plain := by rw [e]; rfl
    rw [← h2, ← this]
    rfl
  · exact (State.flush_eq u.swept).resolve_left fun h => hq h.1
  · rcases State.flush_eq u.swept with ⟨_, h'⟩ | h'
    · rw [h', e]; exact ⟨rfl, rfl, rfl⟩
    · rw [show u.swept.flush = u.swept by unfold State.flush; rw [if_pos hq], e]
      exact ⟨rfl, rfl, rfl⟩
  · exact State.flush_pend (by rw [hb]; exact List.mem_append_left _ ho) hk hl

/-! ### Completion -/

/-- A command that runs in or out of reset. -/
theorem answers_always {c : Instr} {s : State} {f : State → State} (h : exec c s = completeAlways f s) {u : State}
    (hu : f s.begin = u) : Answers c s u := ⟨u.finish, by rw [h, ← hu]; rfl, State.reported_finish u⟩

/-- A command of a device that is out of reset. -/
theorem answers_of {c : Instr} {s : State} {f : State → State} (h : exec c s = complete f s) (hr : s.pwr.inReset = false)
    {u : State} (hu : f s.begin = u) : Answers c s u :=
  ⟨u.finish, by rw [h, ← hu]; simp [complete, completeAlways, hr], State.reported_finish u⟩

end Sys2Proof.Machine
end

