-- ==== Sys2Proof/Laws/HostWrites.lean ====
section
/-!
SUPPORT. Accepted host writes: every command that is a session's write runs as one application of the word.
-/
namespace Sys2Proof.Machine

/-- An accepted write of a register applies its word, and the session hears `OK`. -/
theorem State.rowWrite_accepted {s : State} {ses : Session} {off : Nat} {w : Word} (h : Accepted s ses off w)
    (hl : off ≠ Reg.CTL_LOCK_CMD ∨ flagOf w 31 = false) :
    s.begin.rowWrite ses off w =
      ((s.access ses off).applyWrite (sessionNum ses) off w).portAnswer ses (some acOk) := by
  obtain ⟨_, hr, hw, hlock, hj⟩ := h
  have hr' : s.begin.reaches ses = true := by cases ses <;> exact hr
  have hh : s.begin.hostWrite (sessionNum ses) off w =
      ((s.access ses off).applyWrite (sessionNum ses) off w, acOk) := by
    unfold State.hostWrite State.access
    simp only [hlock, hj]
    simp [acOk, acSeqLock, acStaged, refusedCode, acState]
  have hs : s.begin.sessionWrite (sessionNum ses) off w 0xF#4 =
      ((s.access ses off).applyWrite (sessionNum ses) off w, acOk) := by
    unfold State.sessionWrite State.busWrite
    simp only [hh, if_true]
    rcases hl with hl | hl
    · simp [hl]
    · simp [hl]
  unfold State.rowWrite State.portWrite
  cases ses with
  | pcie => simp [hr', hs]
  | maint => simp [hr', hs]
  | ring st => simp [hr', hs, show s.begin.ringWrites = true from hw st rfl]

/-- A register beside the basic mode words. -/
theorem State.applyWrite_stores {s : State} {ses : Session} {off : Nat} {w : Word} {d : RegDesc}
    (hd : regDesc off = some d) (hb : d.basic = false) :
    (s.access ses off).applyWrite (sessionNum ses) off w =
      let b := baseOff off
      let old := (s.access ses off).storedWord off d
      if 0x00400000 ≤ b ∧ b < 0x00800000 then
        (s.stores ses off w).wrotePath (if off = b then .a else .b) b old w
      else if 0x00C00000 ≤ b ∧ b < 0x02000000 then (s.stores ses off w).wroteMiddle b old w
      else (s.stores ses off w).wroteUnit (sessionNum ses) b old w := by
  unfold State.applyWrite State.stores
  simp [hd, hb]

theorem State.storeReg_keeps (s : State) (off : Nat) (d : RegDesc) (w : Word) :
    s.storeReg off d w = { s with
      cfg := (s.storeReg off d w).cfg, shadow := (s.storeReg off d w).shadow
      tblShadow := (s.storeReg off d w).tblShadow } := by
  unfold State.storeReg State.storeTable State.storeItem
  dsimp only
  split
  · rfl
  · split
    · rfl
    · split <;> rfl

theorem State.markProfile_keeps (s : State) (off : Nat) (d : RegDesc) :
    s.markProfile off d = { s with custom := (s.markProfile off d).custom } := by
  unfold State.markProfile
  split
  · rfl
  · split
    · rfl
    · split <;> rfl

theorem State.stores_keeps (s : State) (ses : Session) (off : Nat) (w : Word) :
    s.stores ses off w = { s.access ses off with
      cfg := (s.stores ses off w).cfg, shadow := (s.stores ses off w).shadow
      tblShadow := (s.stores ses off w).tblShadow, custom := (s.stores ses off w).custom } := by
  unfold State.stores
  split
  · rfl
  · rename_i d _
    have h := State.storeReg_keeps (s.access ses off) off d w
    generalize (s.access ses off).storeReg off d w = v at h ⊢
    have h' := State.markProfile_keeps v off d
    generalize v.markProfile off d = x at h' ⊢
    rw [h', h]

/-- What storing a word changes: register words and tables, their shadows, and the session's result. -/
theorem State.stores_frame (s : State) (ses : Session) (off : Nat) (w : Word) :
    (s.stores ses off w).pending = s.pending ∧ (s.stores ses off w).out = [] ∧ (s.stores ses off w).batch = [] ∧
    (s.stores ses off w).freeCtr = s.freeCtr + 1 ∧ (s.stores ses off w).part = s.part ∧
    (s.stores ses off w).dieRev = s.dieRev ∧ (s.stores ses off w).upNs = s.upNs ∧
    (s.stores ses off w).phase = s.phase ∧ (s.stores ses off w).txFc = s.txFc ∧
    (s.stores ses off w).fcLoaded = s.fcLoaded ∧ (s.stores ses off w).mst = s.mst ∧
    (s.stores ses off w).evt = s.evt ∧ (s.stores ses off w).pmc = s.pmc ∧ (s.stores ses off w).mem = s.mem ∧
    (s.stores ses off w).pwr = s.pwr ∧ (s.stores ses off w).rte = s.rte ∧ (s.stores ses off w).rails = s.rails ∧
    (s.stores ses off w).pa = s.pa ∧ (s.stores ses off w).pb = s.pb ∧ (s.stores ses off w).cnt = s.cnt ∧
    (s.stores ses off w).tables = s.tables ∧ (s.stores ses off w).hbDrop = s.hbDrop ∧
    (s.stores ses off w).tru = s.tru ∧ (s.stores ses off w).sch = s.sch ∧ (s.stores ses off w).pkt = s.pkt ∧
    (s.stores ses off w).hsf = s.hsf ∧ (s.stores ses off w).hsl = s.hsl ∧ (s.stores ses off w).mon = s.mon ∧
    (s.stores ses off w).ctl = { s.ctl with sessions := (s.access ses off).ctl.sessions } := by
  rw [State.stores_keeps]
  exact ⟨rfl, rfl, rfl, rfl, rfl, rfl, rfl, rfl, rfl, rfl, rfl, rfl, rfl, rfl, rfl, rfl, rfl, rfl, rfl, rfl, rfl, rfl, rfl,
    rfl, rfl, rfl, rfl, rfl, rfl⟩

/-- A command that is one accepted write completes with the write's effect. -/
theorem writes_of {c : Instr} {s : State} {ses : Session} {off : Nat} {w : Word} {f : State → State}
    (hc : exec c s = complete f s) (hf : f s.begin = s.begin.rowWrite ses off w) (h : Accepted s ses off w) (hl : off ≠ Reg.CTL_LOCK_CMD ∨ flagOf w 31 = false) {u : State}
    (hu : (s.access ses off).applyWrite (sessionNum ses) off w = u) : Writes c s ses u :=
  answers_of hc h.1 (by rw [hf, State.rowWrite_accepted h hl, hu])

/-- Storing a field leaves every other register item as it is. -/
theorem State.storeField_regI (s : State) (off idx hi lo v o i : Nat) (h : regKey off idx ≠ regKey o i) :
    (s.storeField off idx hi lo v).regI o i = s.regI o i := by
  unfold State.storeField
  split
  · rfl
  · simp only
    split
    · exact sparseGet_set_other (Ne.symm h)
    · rfl

/-- Fields of other register items leave an item as it is. -/
theorem State.storeFields_regI (l : List ProfField) (s : State) (o i : Nat)
    (h : ∀ f ∈ l, regKey f.off f.idx ≠ regKey o i) :
    (l.foldl (fun t f => t.storeField f.off f.idx f.hi f.lo f.val) s).regI o i = s.regI o i := by
  induction l generalizing s with
  | nil => rfl
  | cons f l ih =>
    rw [List.foldl_cons, ih _ fun g hg => h g (List.mem_cons_of_mem _ hg),
      State.storeField_regI _ _ _ _ _ _ _ _ (h f List.mem_cons_self)]

end Sys2Proof.Machine
end

