-- ==== Sys2Proof/Tests/States.lean ====
section
/-!
SUPPORT. The small states that the tests run their steps on, and that meet the hypotheses of the statements.
-/
namespace Sys2Proof.Tests
open Sys2Proof.Machine

/-- Out of reset, with both management ports acting, OTP released and no image. -/
def up : State :=
  { State.reset with
    pwr := { State.reset.pwr with inReset := false, pinHold := false }
    ctl := { State.reset.ctl with pcieUp := true }
    tru := { State.reset.tru with ready := true } }

def mode : PathMode := ⟨5, 100, 1, 1⟩

/-- An image with both paths, packet layer, scheduler, encryption and the ring. -/
def image : ImageCfg :=
  { noImage with
    inst := 0xBF, modeA := some mode, modeB := some mode
    ports := [⟨0, 0, 1, 0, 0, 0⟩, ⟨1, 1, 2, 2, 1, 0⟩]
    lanes := [(0, 1), (1, 2)]
    conts := [⟨.a, 0, 4, 0⟩, ⟨.a, 1, 4, 0⟩, ⟨.b, 0, 4, 0⟩]
    conns := [⟨0, [⟨2, 0, 0⟩, ⟨3, 0, 0⟩]⟩, ⟨0, [⟨1, 0, 0⟩, ⟨3, 0, 1⟩]⟩] }

/-- The slot tables of the paths: containers 0 and 1 of Path A, container 0 of Path B, four slots each. -/
def slotsA : List Nat := List.replicate 4 0x8000 ++ List.replicate 4 0x8001 ++ List.replicate 92 0
def slotsB : List Nat := List.replicate 4 0x8100 ++ List.replicate 96 0

def livePath (slots : List Nat) : PathState :=
  { State.reset.pa with rxMode := some mode, cnt := ⟨slots, slots, slots, []⟩ }

/-- The same image running. -/
def live : State :=
  { up with
    rte := { up.rte with active := true, cfg := image, src := 3, version := 5 }
    pa := livePath slotsA, pb := livePath slotsB }


/-! ### Power -/

def tripping : State := { up with pwr := { up.pwr with tripRun := 2 } }

def readings (top : Int) : List Int := top :: List.replicate 11 0

def held (a b c : Bool) : State := { State.reset with pwr := { State.reset.pwr with pinHold := a, tripHold := b, swHold := c } }

def noLineRef : State := { live with pwr := { live.pwr with lineRef := false } }

def withQueue (q : List RowReq) (s : State) : State := { s with pwr := { s.pwr with queue := q } }

def request (cost : Nat) : RowReq := ⟨0, cost, 0⟩

/-- A request waits that was made 3 ms ago. -/
def waitedLong : State := { withQueue [request 500] live with upNs := 3000000 }

/-! ### Time and milestones -/

/-- Time source 1, with a state and a marker seen. -/
def timed (t : TimeState) : State :=
  { up.setReg Reg.MST_TIME_CTRL 1 with mst := { up.mst with time := t, markerSeen := true } }

/-- The counter is 5 us before second 1; the message names a time for the marker, the third qualified one. -/
def acquiring (t : TimeState) (sec ns : Nat) : State :=
  { timed t with
    mst := { (timed t).mst with msgTime := some (sec, ns), msgGood := true, qualified := 2, sec := 0, ns := 999995000 } }

def silent : State := { timed .locked with mst := { (timed .locked).mst with badSecs := 1 } }

def holding : State := (timed .holdover).setReg Reg.MST_HOLDOVER 60

/-- A time message for second 1,000, with UTC traceable (R62). -/
def timeMessage : Bytes :=
  let b : Bytes := [0x4D, 0x54, 1, 1] ++ beBytes 6 1000 ++ beBytes 4 0
  b ++ beBytes 2 (crc16 b)

def hostTime : State :=
  { (up.setReg Reg.MST_TIME_CTRL 3).setReg Reg.MST_SET_NS 999999999 with mst := { up.mst with time := .acquiring } }

/-- A host entry of device scope for a time. -/
def part : PathPart := ⟨false, 0, none, resetGens, true⟩

def queued (h sec ns : Nat) (k : BitVec 7) : QEntry :=
  { handle := h, sec := sec, ns := ns, device := true, deviceDone := false, devShadow := k.getLsbD 6, kinds := k, owner := .host, amdNum := 0
    partA := part, partB := part, withdrawn := false }

def withEntry (s : State) (e : QEntry) : State := { s with mst := { s.mst with queue := [e] } }

/-- The registers of an entry for second 1, kind 6, device scope. -/
def entryRegs : State := (up.setReg Reg.MST_Q_ENTRY 0x440).setReg Reg.MST_Q_TIME_SEC_LO 1

/-- An entry on Path A for its coefficient set, not fixed yet. -/
def coefEntry (target : Option Nat) : QEntry :=
  { queued 3 1 0 0x10 with
    device := false, deviceDone := true, partA := ⟨true, 0x10, target, { resetGens with coef := 7 }, false⟩ }

def coefStaged : State :=
  { live with mst := { live.mst with ns := 998000000, pathA := { live.mst.pathA with staged := [(4, 7)] } } }

def deviceDue : State :=
  { live with
    shadow := [(Reg.CNT_C_TRACE_TX, 0x41424344)]
    mst := { live.mst with sec := 1, queue := [{ queued 4 1 0 0x40 with partA := part }] } }

def noObs : FrameObs := ⟨[], [], 0, 0, [], 0, 0, 0, 0, [], [], []⟩

def noSecond : SecondObs := ⟨0, 0, 0, 0⟩

def counting : State := { up with mst := { up.mst with perSum := 1024 * 4294967296 * 976562, perCnt := 976562, sec := 41 } }

/-- The counter is disciplined: it runs fast by a rate, and slews. -/
def disciplined : State := { timed .locked with mst := { (timed .locked).mst with rate := 4294967, slew := 900000000 } }

/-- The description of a register that is there. -/
def described (off : Nat) : RegDesc := (regDesc off).getD ⟨0, 0, false, []⟩

/-! A path that sends alone: container 0 of Path A holds four slots and carries the client of Ethernet port 0. -/

def aloneImage (enc : Bool) : ImageCfg :=
  { noImage with
    inst := if enc then 0x11 else 0x01, modeA := some mode
    ports := [⟨0, 0, 1, 0, 0, 0⟩], conts := [⟨.a, 0, 4, 0⟩], conns := [⟨1, [⟨0, 0, 0⟩, ⟨3, 0, 0⟩]⟩] }

def alone (enc : Bool) : State :=
  let s := { live with rte := { live.rte with cfg := aloneImage enc }, fcLoaded := true, txFc := 6 }
  let s := ((s.setReg Reg.PA_CNV_CTRL 3).setReg Reg.PA_TXD_CTRL 1).setReg Reg.PA_RXD_CTRL 5
  s.updPath .a fun x => { x with
    cnv := { x.cnv with tx := .running, rx := .running }
    txd := { x.txd with running := true, prof := [100, 100] } }

/-- The client's port is up, with `n` bytes in the mapper's buffer. -/
def mapping (n : Nat) : State :=
  let s := (alone false).updPort 0 fun x => { x with state := 5, aligned := true }
  s.updCont .a 0 fun x => { x with qual := true, buf := List.replicate n 7 }

/-- Container 0 has a transmit key, used for `age` frames. -/
def agedKey (age : Nat) : State :=
  (alone true).updCry .a fun c => { c with
    s0 := { c.s0 with txEpoch := 1, tx := some (List.replicate 36 1) :: List.replicate 255 none }, txAge := age }

/-- The receive side is frame locked, with seven frames below the threshold behind it. -/
def lockedRx : State := (alone false).updRxd .a fun r => { r with acq := 6, lowRun := 7, gain := 64 }

def obsOf (corr rms : Nat) : FrameObs := { noObs with corr := corr, adcRms := [rms, rms, rms, rms] }

def aloneWith (target : Option Nat) : State := withEntry { alone false with mst := { (alone false).mst with ns := 998000000 } } (coefEntry target)

def restartingTx : State := { alone false with ctl := { (alone false).ctl with restarts := [3] } }

/-- An entry of kind 6 whose target frame for Path A is the next, and a path shadow that waits. -/
def shadowEntry : QEntry :=
  { queued 4 1 0 0x40 with device := false, deviceDone := true, devShadow := false, partA := ⟨true, 0x40, some 1, resetGens, false⟩ }

def pathDue : State := withEntry { live with shadow := [(Reg.PA_LFR_TRACE_TX, 0x41424344)] } shadowEntry

/-- A word of the queue table waits for an entry of device scope. -/
def tableDue : State := { deviceDue with shadow := [], tblShadow := [(tblKey queueTable 8, 0x80010400)] }

def coefDue : QEntry := { coefEntry (some 1) with kinds := 0 }
def lostDue : State := withEntry { coefStaged with mst := { coefStaged.mst with time := .lost } } coefDue

def heldShadow : State := { pathDue with mst := { pathDue.mst with time := .holdover } }
def lostDevice : State := { deviceDue with mst := { deviceDue.mst with time := .lost } }

/-! ### Line converters -/

/-- A converter side that starts, under its enable. -/
def sideStarting (tx : Bool) : State :=
  (live.setReg (pathReg .a Reg.PA_CNV_CTRL) 3).updCnv .a fun c =>
    if tx then { c with tx := .starting } else { c with rx := .starting }

/-- What the foreground calibration needs: every slice the correction (-128, 5, 127). -/
def needs : List (List (Int × Int × Int)) := List.replicate 4 (List.replicate 65 (-128, 5, 127))

def calibrated : AdcState :=
  { resetAdc with slices := (List.range 64).map (fun i => ⟨0, i, zeroCorr, zeroCorr⟩) ++ [⟨1, 0, ⟨3, 3, 3⟩, zeroCorr⟩], target := 63 }

/-- Path A receives, with calibrated ADCs; with `due` the swap of ADC 1 is awaited. -/
def rotating (due : Bool) : State :=
  (live.setReg (pathReg .a Reg.PA_CNV_CTRL) 2).updCnv .a fun c =>
    { c with rx := .running, adc := [calibrated, { calibrated with due := due }, calibrated, calibrated] }

/-- The correction that a slice comes to need, and a faulty one. -/
def need : Int × Int × Int := (-128, 127, 9)
def faultyNeed : Int × Int × Int := (-129, 0, 0)

/-- The laser port of Path A enabled, with a transaction in progress. -/
def laserOn (t : Option LaserTxn) : State :=
  (live.setReg (pathReg .a Reg.PA_CNV_LASER_CFG) 0x00640003).updLaser .a fun l => { l with enabled := true, txn := t }

/-- A reply to a read of register 0x30 with a right checksum: 3 ^ 0 ^ 1 ^ 2 ^ 3 ^ 4 (R104). -/
def reply : LaserReply := ⟨0x70301234⟩

/-- The same with a wrong checksum, and a status with the fatal bit. -/
def badReply : LaserReply := ⟨0x60301234⟩
def fatalReply : LaserReply := ⟨0x00202000⟩

/-- A slice under calibration, at a rail that it would pass. -/
def railed : Slice := ⟨1, 0, ⟨10, -10, 0⟩, ⟨3, 0, 0⟩⟩
def narrow : RailState := { State.reset.rail 0x1300 with min := -10, max := 10 }

/-! ### The DSP of a path -/

/-- Path A in an acquisition state whose frames have passed. -/
def acquire (st : Nat) : State :=
  live.updRxd .a fun r => { r with acq := st, frames := 32, length := 32, cands := [0, -100], confirms := 2 }

/-- S3 has found a best candidate, of C 25 dB, at sample 7. -/
def acquired : State := (acquire 3).updRxd .a fun r => { r with best := some (-100, 200, 7) }

def dead : State := live.updRxd .a fun r => { r with acq := 6, deadRun := 64 }

def searching : State := live.updRxd .a fun r => { r with acq := 6, searchAt := some 1, searchFrames := 16 }

def tracking : State :=
  ((live.setReg (pathReg .a Reg.PA_RXD_CTRL) 3).setReg (pathReg .a Reg.PA_CNV_LASER_CFG) 0x00640001).updRxd .a
    fun r => { r with acq := 6, fmCount := 1024, fmSum := 1024000000 }

/-- Levelling enabled towards the far end, a cycle's frames passed, with the SNR of its one superframe; `asked` while a
request is unanswered. -/
def levelling (asked : Bool) (snr : List Nat) : State :=
  ((live.setReg (pathReg .a Reg.PA_TRK_LEV_CTRL) 0x00404063).updRxd .a fun r =>
    { r with acq := 6, snr := { r.snr with cycle := snr, cycleN := 1 } }).updTrk .a fun t =>
    { t with
      cycle := 1024, farProf := mode.uniform, farFlags := some 8, reqNum := if asked then 9 else 0, reqAge := 4096 }

def flatSnr : List Nat := List.replicate 32 640
def steepSnr : List Nat := [2000, 2000] ++ List.replicate 30 640

/-- A far request can be answered. -/
def answering : State :=
  (live.setReg (pathReg .a Reg.PA_TRK_LEV_CTRL) 0x00404063).updTxd .a fun t => { t with prof := mode.uniform }

/-- A set that carries too few bits. -/
def poorRequest : List Nat := [mode.uniformJ - 8, mode.uniformJ - 8] ++ List.replicate 14 0

def farRequest : List Nat := [mode.uniformJ + 8, mode.uniformJ - 8] ++ List.replicate 14 0

/-- Pending rails of the carrier loop of Path A, which the lane rails' window may not touch. -/
def railPending (off sel id : Nat) (lo hi : Int) : State :=
  (live.setReg off (BitVec.ofNat 32 sel)).updRail id fun r => { r with pMin := lo, pMax := hi, pStep := 1 }

/-- The decoder of Path A has run an interval of 1,024 frames without a hit, under a grant for 12 iterations. -/
def decoding (iters : Nat) : State :=
  live.updFec .a fun f => { f with
    llr := true, ivFrames := 1024, ivHits := if iters = 12 then 0 else 512, ivWords := 1024 * 9, ivIter := 1024 * 9 * 3
    gd := iters * mode.iterCost }

def excess : State := { live with pwr := { live.pwr with excess := 1 } }

/-- The same, asked to run more iterations under a ceiling that leaves nothing. -/
def decodingUnder (watts : Nat) : State :=
  let s := (decoding 6).setReg Reg.PWR_CEILING (BitVec.ofNat 32 watts)
  { s with pwr := { s.pwr with grants := [(1, 1000)] } }

/-! ### Route images -/

/-- The owner's public key with what stands for its hash, and an owned part: its generation 0 is that key. -/
def ownerHash0 : Bytes := List.replicate 48 5

def ownerKey : Bytes := [4] ++ List.replicate 96 1

def owned : State :=
  { up with tru := { up.tru with
      otp := [(2, 0x1000), (15, 0x23B13012)] ++ ownerWords 0 ownerHash0 false ++
        [(346, 3), (347, 3), (348, 3), (349, 3)] } }

/-- A signature block for generation 0. -/
def signature : Bytes :=
  ascii "ASIG" ++ beBytes 4 256 ++ List.replicate 8 0 ++ ownerKey ++ List.replicate 15 0 ++ List.replicate 96 1 ++
    List.replicate 32 0

/-- A file of one section (R35 to R38). -/
def imageFile (kind num : Nat) (digest : Bytes) (typ : Nat) (sec : Bytes) : Bytes :=
  ascii "AURI" ++ beBytes 2 1 ++ beBytes 1 kind ++ [0, 3, 0, 5, 0] ++ beBytes 4 77 ++ beBytes 4 (400 + sec.length) ++
    beBytes 2 1 ++ [0, 0] ++ beBytes 4 (if kind = 2 then 77 else 0) ++ beBytes 2 num ++ [0, 0] ++ digest ++
    List.replicate 48 0 ++
  beBytes 2 typ ++ [0, 0] ++ beBytes 4 144 ++ beBytes 4 sec.length ++ beBytes 4 (crc32 sec) ++ sec ++ signature

/-- Path A alone, with `mode`. -/
def structureSection : Bytes :=
  [1, 1, 0, 0, 0, 0, 0, 4, 0, 0, 0, 1, 0, 0, 0, 0] ++ [1, 2, 0, 0, 0, 0, 0, 8, 0, 5, 0, 100, 1, 1, 0, 0]

def lockSection : Bytes := [6, 1, 0, 0, 0, 0, 0, 4, 0, 0, 0, 8, 0, 0, 0, 0]

def fullImage : Bytes := imageFile 1 0 (List.replicate 48 0) 1 structureSection

/-- The loader runs an operation on a file in staging. -/
def staged (s : State) (o : LoaderOp) (img : Bytes) : State :=
  { s.setReg Reg.RTE_LEN (BitVec.ofNat 32 img.length) with
    mem := { s.mem with
      bytes := (img.zipIdx.filter fun x => x.1 != 0).map fun x => (stagingBase + x.2, x.1)
      written := [(stagingBase / 32, 524288)] }
    rte := { s.rte with op := some o } }

/-- `fullImage` is active, and an amendment to it that locks an expert unit waits in staging for second 1. -/
def amended : State :=
  let s := { owned with
    rte := { owned.rte with
      active := true, cfg := imageCfg (imageRecs fullImage), gen := 77
      digest := List.replicate 48 3 }
    pa := livePath [] }
  (staged s .amend (imageFile 2 1 s.rte.digest 6 lockSection)).setReg Reg.RTE_AMD_TIME_SEC_LO 1

/-- Staging that nothing has written. -/
def unwritten : State := { up.setReg Reg.RTE_LEN 432 with rte := { up.rte with op := some (.load 3) } }

def withOp (s : State) (o : LoaderOp) : State := { s with rte := { s.rte with op := some o } }

def inSlot (o : LoaderOp) : State := { up with rte := { up.rte with op := some o, slotB := .image [] [0] } }

def floorImage : State := { owned with rte := { owned.rte with active := true, advance := true, version := 66 } }

def amendment : Amendment := ⟨1, noImage, [], [], [], 5, false, 0, 0⟩

/-- The loader's queue entry of an amendment. -/
def loaderEntry : QEntry := { queued 5 9 0 0x40 with owner := .loader, amdNum := 1 }

def amdWaits : State :=
  { withEntry live loaderEntry with
    rte := { live.rte with amd := some amendment } }

/-- What judging the amendment in staging gives. -/
def amendJudged : State :=
  match ((amended.begin).noteRead 2 stagingBase amended.rteLen).amdJudge
      (amended.mem.readBytes (amended.freeCtr + 1) stagingBase amended.rteLen) with
  | .inl c => c
  | .inr _ => up

def reloading : State := { owned with rte := amended.rte }

/-- A load from a slot while the sector key is not there yet; a flash too small for slot B. -/
def noKey (o : LoaderOp) : State := { withOp up o with tru := { up.tru with ready := false } }

def smallFlash : State :=
  let s := staged owned (.store true) fullImage
  { s with rte := { s.rte with flashSize := 0x01000000 } }

/-! ### Register access -/

/-- `ring` holds: a ring station with management over the ring, in state 4. -/
def onRing : State :=
  let s := (live.setReg Reg.CTL_RING_MGMT 3).updLane 14 fun x => { x with state := 4 }
  { s.setReg Reg.HSL_RING_CTRL 0x0501 with hsl := { s.hsl with bypassOpen := true } }

/-- A session holds the lock of domain 6, which covers the milestone unit, with one write staged. -/
def locked (owner : Nat) : State :=
  up.updLock 6 fun _ => ⟨some owner, false, [(Reg.MST_SET_NS, 5)]⟩

def mntReading (d : Option (Word × Nat)) : State := { up with ctl := { up.ctl with mntRead := some (64, d) } }

def mismatched : State := live.setReg (pathReg .a Reg.PA_TXD_CTRL) 1

/-- The lock of domain 6 with a staged write that its register refuses. -/
def lockedBad : State := up.updLock 6 fun _ => ⟨some 0, false, [(Reg.MST_SET_NS, 0xFFFFFFFF)]⟩

def brokenLock : State := up.updLock 6 fun _ => ⟨none, true, []⟩

/-- What the staged write of `locked 0` gives when it is committed. -/
def committed : State :=
  match ((locked 0).stores .pcie Reg.CTL_LOCK_CMD 0x83000006).commitRun 0 0 ((locked 0).lock 6).staged with
  | .inl t => t
  | .inr _ => up

/-- Every domain is held: three by the PCIe session, one by the maintenance session, two by ring stations. -/
def lockedAll : State :=
  [(0, 0), (1, 0), (2, 1), (3, 256 + 9), (5, 256 + 30), (6, 0)].foldl
    (fun s x => s.updLock x.1 fun _ => ⟨some x.2, false, [(Reg.MST_SET_NS, 5)]⟩) onRing

/-- The image locks expert access to the power unit, and the milestone unit. -/
def expertLocked : State :=
  { live with rte := { live.rte with cfg := { live.rte.cfg with expert := BitVec.ofNat _ (2 ^ 21 + 2 ^ 20) } } }

/-- Milestone time is lost while an entry waits. -/
def timeLost (s : State) : State := { s with mst := { s.mst with time := .lost } }
def coefLost : State := withEntry (timeLost coefStaged) (coefEntry (some 1))

/-- An entry of every kind on Path A, with a shadow of Path A, while milestone time is lost. -/
def allKinds : QEntry :=
  { coefEntry (some 1) with partA := ⟨true, 0x7F, some 1, ⟨3, 4, 5, 6, 7, 8⟩, false⟩ }
def allLost : State := withEntry { timeLost coefStaged with shadow := [(Reg.PA_LFR_TRACE_TX, 0x41424344)] } allKinds

/-- The lock of domain 6 with all 256 entries in use, and one held by a ring session's rival. -/
def stageFull : State := up.updLock 6 fun _ => ⟨some 0, false, List.replicate 256 (Reg.MST_SET_NS, 5)⟩
def ringLock : State := onRing.updLock 6 fun _ => ⟨some 0, false, []⟩

/-! ### Host lanes and the ring -/

def port0 : HostPort := ⟨0, 0, 1, 0, 0, 0⟩
def port1 : HostPort := ⟨1, 1, 2, 2, 1, 0⟩

/-- A port in a state. -/
def portIn (r : HostPort) (st : Nat) : State := live.updPort r.num fun x => { x with state := st }

def trained (r : HostPort) (st : Nat) : State := (portIn r st).setRegI Reg.HSF_PORT_CTRL r.num 0x111

def enabled (r : HostPort) (st : Nat) : State := (portIn r st).setRegI Reg.HSF_PORT_CTRL r.num 0x011
def disabled (r : HostPort) : State := live.setRegI Reg.HSF_PORT_CTRL r.num 0x010

def sending : State := live.updPort 1 fun x => { x with state := 5, egress := List.replicate 6000 3, egressRun := true, egressAis := false }

/-- A carriage frame of zeros, and the frame of lane index `i` with frame count 5. -/
def badFrame : Bytes := List.replicate 1360 0
def goodFrame (i : Nat) (count : Nat := 5) : Bytes := carriageBits (carriageMessage i 0 false true count (List.replicate 1280 0))

/-- Both lanes of port 1 locked, their counts equal; the alignment is about to be lost on bad frames. -/
def lanesLocked : State :=
  [1, 2].foldl (fun s l => s.updFastLane l fun x => { x with locked := true, badRun := 3 }) (portIn port1 5)

def laneQuarantined : State :=
  (live.updFastLane 31 fun x => { x with quarantine := true }).updLane 15 fun x => { x with quarantine := true }

/-- A legacy lane in a state. -/
def laneIn (l st : Nat) : State := live.updLane l fun x => { x with state := st }

def laneOn (l st : Nat) : State :=
  ((laneIn l st).setReg Reg.HSL_LANE_SEL (BitVec.ofNat 32 l)).setRegI Reg.HSL_LANE_CTRL l 0x1001

def laneDisabled (l : Nat) : State :=
  (live.setReg Reg.HSL_LANE_SEL (BitVec.ofNat 32 l)).setRegI Reg.HSL_LANE_CTRL l 0x1000

def slipping (n : Nat) : State :=
  (laneIn 0 4).updFleam 0 fun x => { x with inWait := List.replicate n [1], outPrimed := true, outWait := [[2]], outLast := some [3] }

def slipRepeat : State := (slipping 1).updFleam 0 fun x => { x with outWait := [] }

/-- The ring closed with both lanes in state 4, and open. -/
def ringReady : State :=
  ((live.updLane 14 fun x => { x with state := 4 }).updLane 15 fun x => { x with state := 4 }).setReg
    Reg.HSL_RING_CTRL 0x0503

def ringOpen : State := { ringReady with hsl := { ringReady.hsl with bypassOpen := true, timeDue := true } }

def ringSlave : State := (ringOpen.setReg Reg.HSL_RING_CTRL 0x0501).setReg Reg.MST_TIME_CTRL 2

def ringTimed : State := ringReady.setReg Reg.MST_TIME_CTRL 2

/-- A message of another station, one of this station, and the latter. -/
def passing : Bytes := ringMsg 0x20 9 7 254 [1, 2]
def mine : Bytes := ringMsg 0x20 5 7 0 []

def adaptFrozen : State := (portIn port1 2).updRail 0x0701 fun r => { r with freeze := true }

def nearlyTrained : State :=
  (portIn port1 2).updFastLane 2 (fun x => { x with readyRun := 8 }) |>.updFastLane 1 fun x => { x with readyRun := 7 }

/-- The code groups of a run of data bytes, and those of a Fleam frame. -/
def dataCodes (b : Bytes) : List (BitVec 10) := (codeGroups false (b.map .d)).1.map (BitVec.ofNat 10)
def fleamCodes (b : Bytes) : List (BitVec 10) := (codeGroups false (fleamGroups b)).1.map (BitVec.ofNat 10)

/-- A lane with three frames of another length behind it. -/
def misaligned : State := (slipping 2).updLane 0 fun x => { x with badLen := 3 }

/-- A lane that has had a tap request. -/
def requested : State := (portIn port1 2).updFastLane 1 fun x => { x with lastReq := some 0x0100 }

/-- A ring lane whose loss of lock is one invalid group away. -/
def ringFragile : State := ringOpen.setRegI Reg.HSL_LANE_CTRL 14 0x0100

/-- Egress that waits for its fill, and egress of AIS. -/
def waitingFill (n : Nat) : State := live.updPort 1 fun x => { x with state := 5, egress := List.replicate n 3, egressRun := false, egressAis := false }
def aisOut : State := live.updPort 1 fun x => { x with state := 5, egressAis := true }

def typed (typ dst : Nat) (payload : Bytes) (hop : Nat) : Bytes := ringMsg typ 9 dst hop payload
def mgmtRead : Bytes := mgmtAnswer 1 0x77 0 Reg.MST_HOLDOVER 0

/-- The ring with management enabled; station 5. -/
def ringManaged : State := ringSlave.setReg Reg.CTL_RING_MGMT 3

def unpowered : State := { ringReady with hsl := { ringReady.hsl with vddRing := false } }
def noRing : State := { live with rte := { live.rte with cfg := { image with inst := 0x3F } } }

/-- Both lanes of port 1 one frame from alignment. -/
def nearlyLocked : State :=
  [1, 2].foldl (fun s l => s.updFastLane l fun x => { x with goodRun := 1 }) (portIn port1 3)

/-! ### Line framer and containers -/

/-- Path A is locked; its framer as `f` makes it. -/
def framed (f : LfrState → LfrState) : State :=
  (live.updRxd .a fun r => { r with acq := 6 }).updLfr .a f

/-- A received frame with the alignment word and a counter. -/
def frameWith (fc : Nat) (bad : List Nat) : RxFrame :=
  ⟨alignWord ++ counterField fc, [], bad, 0, 0, 0, 0⟩

def inFrame (e : Nat) : State := framed fun l => { l with inFrame := true, inSf := true, expected := e, badCtrs := 4 }

def hunting (cand : Bool) : State := framed fun l => { l with cand := cand }

def counted (c : Nat) : State := framed fun l => { l with inFrame := true, lastCtr := some c }

def losing (n : Nat) : State := framed fun l => { l with inFrame := true, badWords := n }

def defective : State := framed fun l => { l with monitored := true, runs := [64, 64, 2930, 2930], raw := 0x02 }

def quarantined : State := framed fun l => { l with quarantine := true, secViol := 255 }

def channelOn : State := live.setReg (pathReg .a Reg.PA_LFR_GCC_CTRL) 1

def gensStaged : State :=
  { live with mst := { live.mst with pathA := { live.mst.pathA with staged := [(3, 7), (0, 9)], rxStaged := [(0, 9)] } } }

/-- A frame whose alignment word has four bits in error. -/
def badAligned : RxFrame := ⟨[0xB8] ++ alignWord.drop 1 ++ counterField 9, [], [], 0, 0, 0, 0⟩

/-- An equalised frame, of no symbols, waits for the decoder. -/
def waitingFrame : State := (framed id).updRxd .a fun r => { r with chain := { r.chain with eqd := [[]] } }


/-- A frame with counter `fc` and parts of its overhead; a part closed by its CRC. -/
def frameOf (fc : Nat) (parts : List (Nat × Bytes)) : RxFrame :=
  { frameWith fc [] with
    overhead := parts.foldl (fun b x => patchBytes b x.1 x.2) (padTo 3200 (alignWord ++ counterField fc)) }

def closed (b : Bytes) : Bytes := b ++ beBytes 2 (crc16 b)

/-- A tag block: six generations, amendment 7 of image 77. -/
def tagBlock (gens : List Nat) : Nat × Bytes :=
  (40, closed (gens.flatMap (beBytes 2 ·) ++ beBytes 2 7 ++ beBytes 4 77 ++ List.replicate 4 0))

/-- An announcement record. -/
def record (off state handle target kinds : Nat) (tail : Bytes) : Nat × Bytes :=
  (off, closed ([BitVec.ofNat 8 state, BitVec.ofNat 8 handle] ++ beBytes 6 target ++ beBytes 2 kinds ++
    (List.replicate 6 (beBytes 2 9)).flatten ++ beBytes 2 3 ++ tail))

/-- In superframe, with the receive direction's tag state as `f` makes it. -/
def tagged (f : PathMst → PathMst) : State :=
  let s := inFrame 7
  { s with mst := { s.mst with pathA := f s.mst.pathA } }

def slotStaged : State := tagged fun m => { m with rxStaged := [(0, 9)], staged := [(0, 9)] }
def trackUnknown : State := tagged fun m => { m with unknownRun := [0, 0, 2, 0, 0, 0] }
def trackKnown : State := tagged fun m => { m with matchRun := [0, 0, 2, 0, 0, 0], mismatch := 4 }
def tagSeen : State := tagged fun m => { m with lastTag := some resetGens }
def announcedOne : State := tagged fun m => { m with announced := [⟨1, 5, 900, 1, resetGens, 3, 7⟩] }

/-- General channel 3 in use, as `f` makes it. -/
def channelWith (f : Chan → Chan) : State :=
  ((inFrame 7).setReg (pathReg .a Reg.PA_LFR_GCC_CTRL) 8).updLfr .a fun l => { l with gcc := modifyAt f 3 l.gcc }

def chunk (head n : Nat) : Nat × Bytes :=
  (1280 + 128 * 3, closed ([BitVec.ofNat 8 head, BitVec.ofNat 8 n] ++ List.replicate 124 6))

/-- Container 0 has had two readable words that speak for CAIS. -/
def caisNear : State := (inFrame 7).updCont .a 0 fun x => { x with aisRun := 2 }

/-- A segment of the superframe before frame 16 awaits its tag; two failed ones came before it. -/
def segment : Seg := ⟨List.replicate 36 1, 0, 0, 1, [0, 0], [1, 2, 3], true, true⟩
def awaitingTag : State := (inFrame 15).updCont .a 0 fun x => { x with rxSegs := [segment], authBad := 2 }



/-! ### Line encryption -/

/-- The Varrum channel of Path A is up, in a state; `f` makes the rest. -/
def agree (st : Nat) (f : CryState → CryState) : State :=
  let s := { live with tru := { live.tru with chain := some [] } }
  let s := (s.updLfr .a fun l => { l with inSf := true, inFrame := true }).updTxd .a fun t => { t with running := true }
  s.updCry .a fun c => f { c with state := st }

/-- A HELLO that asks for an agreement, of the identifier that ends in `n`. -/
def helloFrom (n : Nat) : Bytes :=
  vMsg 1 0 ([1, 0, 0, 0] ++ beBytes 16 n ++ List.replicate 32 3 ++ beBytes 2 40 ++ beBytes 2 0)

/-- A certificate for the identifier that ends in `n`, whose issuer is a value that can be the device root's, and its message. -/
def certificate (n : Nat) : Bytes :=
  ascii "ACRT" ++ [1, 1] ++ beBytes 2 2596 ++ List.replicate 16 0 ++ beBytes 16 n ++ List.replicate 16 5 ++
    List.replicate 2540 0

def certBody (n : Nat) : Bytes := [1, 0] ++ beBytes 4 2596 ++ certificate n

def certMsg (n : Nat) : Bytes := vMsg 2 1 (certBody n)

def kexInitMsg (e : Nat) : Bytes := vMsg 3 2 (beBytes 2 e ++ [0, 0] ++ List.replicate 1281 4)
def kexRespMsg (e : Nat) : Bytes := vMsg 4 2 (beBytes 2 e ++ [0, 0] ++ List.replicate 1185 4)
def authMsg : Bytes := vMsg 5 3 (List.replicate 3453 1)
def doneMsg (e : Nat) : Bytes := vMsg 6 4 (beBytes 2 e ++ [0, 0])
def nakMsg : Bytes := vMsg 7 4 [3, 5, 0, 0]
def quarMsg : Bytes := vMsg 8 4 [0, 60, 0, 0]

def keySet (e : BitVec 16) : KeySet :=
  ⟨e, e, List.replicate 256 (some (List.replicate 36 1)), List.replicate 256 (some (List.replicate 36 2))⟩

/-- An attempt under its grant. -/
def attempt (st rx : Nat) : State :=
  let s := agree st fun c => { c with
    rxNext := rx, peerHello := some (helloFrom 9), epoch := 41, ecdhKey := List.replicate 48 1, prk := List.replicate 48 2
    lastSent := [doneMsg 3], kexInit := kexInitMsg 41, certOwn := certMsg 0 }
  { s with pwr := { s.pwr with grants := [(7, 150)] } }

def replyWaits (next : Nat) : State := (attempt 4 3).updCry .a fun c => { c with reply := some ([doneMsg 41], next) }

def resent : State := (attempt 6 4).updCry .a fun c => { c with resends := 3 }

def keyed : State :=
  agree 7 fun c => { c with s0 := keySet 40, txAge := 2 ^ 32 - 2 ^ 22 + 1 }

/-- The agreement that a due frame asks for has not started. -/
def rekeyWanted : State := keyed.updCry .a fun c => { c with rekeyRun := true, want := true, txAge := 9 }

def policy (s : State) : State := s.setRegI Reg.CRY_POLICY 0 0x01F41020

def bothKeyed : State :=
  (live.updCry .a fun c => { c with s0 := keySet 40, s1 := keySet 41 }).setReg Reg.CRY_CMD 5
def nextSel : State := bothKeyed.setReg Reg.CRY_CMD 0x205

/-- The attempt of Path A that waits for the peer's `AUTH`. -/
def authWaits (responder : Bool) : State :=
  (attempt (if responder then 5 else 3) 3).updCry .a fun c => { c with responder := responder }

/-- A HELLO that asks for nothing, one of another version, and the state that has seen its sender. -/
def helloPlain : Bytes :=
  vMsg 1 0 ([0, 0, 0, 0] ++ beBytes 16 9 ++ List.replicate 32 3 ++ beBytes 2 40 ++ beBytes 2 0)
def helloNew : Bytes := patchBytes (helloFrom 9) 1 [2]
def seenPeer : State := { agree 1 id with pa := ((agree 1 id).updCry .a fun c => { c with peerSeen := beBytes 16 9, s0 := keySet 40 }).pa }

/-- A NAK that names the message of type 6 and number 3. -/
def nakSent : Bytes := vMsg 7 4 [1, 6, 0, 4]
def sentBefore : State := (attempt 6 4).updCry .a fun c => { c with sent := [certMsg 0, doneMsg 41] }

/-- The next slots have come into use by the other direction; an agreement that only the key's age asks for. -/
def authBusy : State := (authWaits true).updCry .a fun c => { c with txOne := true }
def agedWanted : State := rekeyWanted.updCry .a fun c => { c with byAge := true }

/-! ### Trust core, OTP and tenant pages -/

def unreleased : State := { up with tru := { up.tru with ready := false } }

def seeded (s : State) : State := { s with tru := { s.tru with br := some (List.replicate 48 0) } }

/-- A commit runs under its grant. -/
def committing (c : OtpCommit) : State :=
  { up with tru := { up.tru with busy := some c }, pwr := { up.pwr with grants := [(10, 250)] } }

/-- The registers from an offset that hold bytes, four to a word. -/
def bufferWords (off : Nat) : Bytes → List (Nat × Word)
  | a :: b :: c :: d :: l => (regKey off 0, BitVec.ofNat 32 (beNat [a, b, c, d])) :: bufferWords (off + 4) l
  | [] => []
  | l => [(regKey off 0, BitVec.ofNat 32 (beNat (padTo 4 l)))]

/-- The input buffer of the trust core holds bytes; no other register does. -/
def withInput (s : State) (b : Bytes) : State :=
  { s with cfg := (regKey Reg.TRU_IN_LEN 0, BitVec.ofNat 32 b.length) ::
      (bufferWords Reg.TRU_INBUF b).filter fun x => x.2 != 0 }

/-- An owner blob for an action, signed in form. -/
def ownerBlob (action gen : Nat) (body : Bytes) : Bytes :=
  ascii "AOWN" ++ beBytes 2 1 ++ beBytes 1 action ++ beBytes 1 gen ++ List.replicate 16 0 ++ [0, 0, 0, 0] ++
    beBytes 4 body.length ++ body ++ List.replicate (8 * ceilDiv body.length 8 - body.length) 0 ++ signature

/-- An owned part whose generation 0 is not written yet but for its lifecycle copies. -/
def halfProvisioned : State :=
  { up with tru := { up.tru with
      otp := [(2, 0x1000), (15, 0x23B13012)] ++ ownerWords 0 ownerHash0 false ++
        [(346, 1), (347, 1), (348, 1), (349, 1)] } }

/-- A certificate chain of the device alone. -/
def ownChain : Bytes :=
  [1, 0, 0, 0] ++ beBytes 2 2596 ++ (ascii "ACRT" ++ [1, 1] ++ beBytes 2 2596 ++ List.replicate 32 0 ++
    List.replicate 16 5 ++ List.replicate 136 0 ++ [4] ++ List.replicate 96 3 ++ [0, 0, 0] ++
    List.replicate 1952 3 ++ List.replicate 352 0)

/-- The words of a descriptor of an operation: slot, lengths and the 16 bytes of words 10 to 13. -/
def descWords (op slot len aad : Nat) (iv : Nat) : List (Nat × Word) :=
  (([op * 2 ^ 24 + slot * 2 ^ 16, 0x77, len, aad, 0, 0x1000, 0, 0x8000, 0, 0x4000, iv, 0, 0, 0] : List Nat).zipIdx).map
    fun x => (x.2, BitVec.ofNat 32 x.1)

/-- Page 3 of an owned part, enabled, with a key of each type in slots 0 to 4 and a descriptor at its head. -/
def tenant (op slot len aad iv : Nat) : State :=
  let s := seeded owned
  let s := (s.setRegI Reg.TRU_PAGE_CTRL 3 1).setRegI Reg.TRU_PAGE_LIMIT_LO 3 0x00100000
  s.updPage 3 fun x => { x with
    keys := [some (1, List.replicate 32 1), some (2, List.replicate 32 2), some (3, List.replicate 32 3),
      some (4, List.replicate 48 4), some (5, List.replicate 64 5), none, none, none]
    sq := (descWords op slot len aad iv).filter fun w => w.2 != 0
    sqTail := 1 }

def tenantDesc (op slot len aad iv : Nat) : Desc := ((tenant op slot len aad iv).page 3).desc 0

/-- The job of that descriptor runs. -/
def jobRuns (op slot len status : Nat) (data : Bytes) (erased : Bool) : State :=
  (tenant op slot len 0 0).updPage 3 fun x => { x with
    sqHead := 1, run := some { (x.desc 0).job 0 status (List.replicate 32 1) with data := data, erased := erased } }

def jobOf (s : State) : Job := ((s.page 3).run).getD ⟨0, 0, 0, false, 0, [], 0, 0, false, [], [], false⟩

def pageSelected (s : State) : State := s.setReg Reg.TRU_PAGE_SEL 3

def bootCommit : OtpCommit := ⟨0, 4, 314, 0, slotWords 314 8 [0xB001 * 2 ^ 48, owned.bootWord], false, false⟩

def firstOwner : OtpCommit := ownerCommit 1 0 (withInput up ownerKey).truInput true

def nextBlob : Bytes := ownerBlob 1 1 ownerKey

def nextOwner : OtpCommit := ownerCommit 2 1 ownerKey false

/-- The start-up test of the random source runs; it has failed twice within the second. -/
def starting (s : State) : State := { s with tru := { s.tru with testing := true } }
def failedTwice : State := { up with tru := { up.tru with rngFails := 2 } }
def tested : State := { up with tru := { up.tru with testing := false } }

/-! ### Packet path and scheduler -/

/-- An engine instruction: its operation, three registers and the immediate. -/
def ins (op d a b imm : Nat) : Word := BitVec.ofNat 32 (op * 2 ^ 26 + d * 2 ^ 22 + a * 2 ^ 18 + b * 2 ^ 14 + imm)

def packet : PktRef := ⟨4, 0, 0, 100, List.replicate 12 2 ++ [8, 0] ++ List.replicate 300 7⟩

def freshPass : Pass := { startPass packet 5 with regs := (List.range 16).map fun i => BitVec.ofNat 32 (0x80000001 * i) }

/-- Engine 2 stands at an instruction, with an `ADD` after it. -/
def engineAt (w : Word) (f : Pass → Pass) : State :=
  { live with rte := { live.rte with program := [(5, w), (6, ins 8 3 4 5 0)] } }.setEngine 2 (some (f freshPass))

def passOf (s : State) : Pass := (s.engine 2).getD freshPass

/-- Port 0 runs as a terminated packet connection; its program address is 5. -/
def packetOn : State :=
  let c := { image with conns := [⟨3, [⟨0, 0, 0⟩, ⟨3, 0, 0⟩]⟩] }
  let s := { live with rte := { live.rte with cfg := c } }.updPort 0 fun x => { x with state := 5, boundQ := [(0, [1, 2]), (3, [3])], boundBytes := 3 }
  { s with tables := [(tblKey portTable 0, 0x80000005)] }

def frame60 : Bytes := List.replicate 12 2 ++ [8, 0] ++ List.replicate 46 7

def passWaits : State := live.setPkt fun k => { k with waiting := [(packet, 5)] }

def flowOp (op : Nat) : State :=
  (live.setPkt fun k => { k with cmd := some op }).setReg Reg.PKT_FLOW_KEY0 0x0A000001

def badResult (op : Nat) : State := (flowOp op).setReg Reg.PKT_FLOW_RES_LO 1

/-- The flow table holds the key of `flowOp`. -/
def flowHeld (op : Nat) : State :=
  let s := ((flowOp op).insertKey (flowOp op).flowKey (storedResult (List.replicate 8 0) false)).1
  s.setPkt fun k => { k with cmd := some op }

def flowLine (s : State) : Line := (s.begin.flowLookup s.flowKey).2.line.getD ⟨0, 0, 0, [], [], 0, 0, false⟩

def learning : State := live.setPkt fun k => { k with learn := [(List.replicate 40 1, List.replicate 8 0)] }

/-- Queue 2 of container 0 of Path A holds two packets, its entry enabled. -/
def queued2 : State :=
  let c := { image with conns := [⟨3, [⟨0, 0, 0⟩, ⟨3, 0, 0⟩]⟩] }
  let s := { live with rte := { live.rte with cfg := c }, tables := [(tblKey queueTable 8, 0x80010400)] }
  s.setSch fun x => { x with
    queues := [(2, { freshQueue with pkts := [⟨frame60, 7, [0]⟩, ⟨frame60, 8, [1]⟩] })], used := 2 }

/-- The words of the cells that they stand in are written. -/
def queuedWritten : State := { queued2 with mem := { queued2.mem with sramMap := [(0, 64)] } }

def queueEmpty : State := { queued2 with sch := State.reset.sch }

def secondIns : Pass := freshPass.next 1
def branched : Pass := { freshPass with pc := 77, cycles := 2 }
def atStart (x : Pass) : Pass := { x with regs := x.regs.set 1 252 }
def deepPass (x : Pass) : Pass := { x with headers := 16 }
def spent (x : Pass) : Pass := { x with cycles := 255 }
/-- The pass of a packet shorter than the window. -/
def shortPass (x : Pass) : Pass := { x with pkt := { x.pkt with frame := frame60 } }
def conflicting (x : Pass) : Pass := { x with conflict := true }

/-- Forty queues wait for the bin that is next. -/
def calendar : State :=
  queued2.setSch fun x => { x with cal := (List.range 40).map fun i => ⟨i, 0, 0⟩ }

/-- Queue 2 is in the bin that is next, but is not yet due: it enters a later one. -/
def calendarLate : State :=
  queued2.setSch fun x => { x with
    queues := [(2, { freshQueue with pkts := [⟨frame60, 7, [0]⟩], elig := 2 ^ 60 })], cal := [⟨2, 2 ^ 60, 0⟩] }

def policerFourier : PolEntry := ⟨true, false, false, 0, 1500, 3⟩
def policerFleam : PolEntry := ⟨true, true, false, 0, 1500, 3⟩
def fullBucket : PolState := ⟨0, 96000, 0, 0, 0⟩

/-! ### Memory die -/

/-- Words 0x200000 and 0x200001 are written; the first holds `7`s. -/
def twoWords : State :=
  { up with mem := { (up.mem.store 0x04000000 (List.replicate 32 7)) with written := [(0x200000, 2)] } }

/-- A patch of the second word waits in the merge buffer. -/
def merging : State :=
  { twoWords with mem := { twoWords.mem with merge := [⟨0x200001, [(3, 9), (4, 8)], false, none⟩] } }

def withScrub (f : ScrubState → ScrubState) : State :=
  { twoWords with mem := { twoWords.mem with scrub := f twoWords.mem.scrub } }

def lateScrub (c : ScrubState) : ScrubState := { c with running := true, pass := 4, pos := 0x200008, late := true }
def scrubbing (c : ScrubState) : ScrubState := { c with running := true, pass := 4, pos := 0, quota := 5 }

def remapEntry (row : Nat) (applied : Bool) : RemapEntry := ⟨3, row, 2, false, applied, applied, applied⟩
def dueEntry : RemapEntry := ⟨3, 9, 4, false, true, true, false⟩

def remapped (l : List RemapEntry) : State := { up with mem := { up.mem with remap := l } }

def unreleasedRepair : State := { remapped [remapEntry 5 true] with tru := { up.tru with ready := false } }

def ledgered : State := { up with mem := { up.mem with ledger := [⟨7, 0⟩, ⟨8, 2⟩] } }

def sramOne (n : Nat) : State := { up with mem := { up.mem with sramUpset := [(sramKey 2 9, n)] } }

def mergeEntry : MergeEntry := ⟨0x200001, [(3, 9), (4, 8)], false, none⟩

/-- The write-back of a scrubbed word waits: of one that has become clean meanwhile, and of one that has not. -/
def writeBack (n : Nat) : State :=
  { twoWords with mem := { twoWords.mem with
    merge := [⟨0x200001, [], false, some 4⟩], upset := if n = 0 then [] else [(0x200001, n)] } }

def wroteBack : MergeEntry := ⟨0x200001, [], false, some 4⟩

/-- The eight words of a burst are written, the fourth with one bit in error. -/
def eightWords : State :=
  { twoWords with mem := { twoWords.mem with
    written := [(0x200000, 8)], upset := [(0x200003, 1)], scrub := scrubbing twoWords.mem.scrub } }

def sramWrote : State := { up with mem := { up.mem with sramMap := [(0, 64)] } }

/-! ### Monitor -/

def conv (q chan : Nat) (urgent : Bool) : Conv := ⟨false, q, chan, 0, false, urgent, true, false, 0, 0, (0, 0)⟩

/-- A conversion runs; sequence 2 converts channels 0 and 39 after 500 ns. -/
def converting : State :=
  let s := (live.setRegI Reg.MON_SEQ_MASK_LO 2 1).setRegI Reg.MON_SEQ_MASK_HI 2 0x80
  (s.setRegI Reg.MON_SEQ_CTRL 2 0x500001F4).setMon fun m => { m with running := some (conv 5 7 false) }

def queuedConv (urgent : Bool) (running : Option Conv) : State :=
  live.setMon fun m => { m with queue := [conv 2 3 urgent], running := running }

def timerOn : State := live.setRegI Reg.MON_TMR 1 0x800000FF

def calibrating : State :=
  { live.setMon fun m => { m with calRun := true } with pwr := { live.pwr with grants := [(9, 50)] } }

def seqSelected : State := (live.setReg Reg.MON_SEQ_SEL 2).setRegI Reg.MON_SEQ_CTRL 2 0x40000000

/-- A base allocation above the ceiling. -/
def noRoom : State := { up with pwr := { up.pwr with inReset := false } }.setReg Reg.PWR_CEILING 35

/-- Loops 2 and 7 of Path A run, their outputs at mid-range. -/
def biased : State :=
  let s := (live.setRegI Reg.MON_LOOP_CTRL 2 0x8000).setRegI Reg.MON_LOOP_CTRL 7 0x8000
  let s := (s.setRegI Reg.MON_DITH0 0 0x00010010).setRegI Reg.MON_DITH1 0 0x00000002
  let s := { s with pa := { s.pa with cnv := { s.pa.cnv with tx := .running, rx := .running, adc := List.replicate 4 { calibrated with rms := 9000 } } } }
  [2, 7].foldl (fun s i => s.updRail (optLoop .a i) fun r => { r with min := 0, max := 65535, step := 9, out := 32768 }) s

def turning (half taken : Nat) : State :=
  biased.updDither .a fun d => { d with turn := some ⟨2, half, 16, 2, 0, 20, 0, taken, -700⟩ }

def turnOf (s : State) : Turn := (s.dither .a).turn.getD ⟨0, 0, 0, 0, 0, 0, 0, 0, 0⟩

/-- A sample of a half-period in which the output stands above its base runs: of the turn in progress, and of another. -/
def turnConv (n : Nat) : Conv := ⟨true, 0, 3, 0, true, false, true, false, n, 3, (0, 0)⟩
def sampling (n : Nat) : State := (turning 3 2).setMon fun m => { m with running := some (turnConv n) }

def chainSelected (taps : Nat) : State :=
  ((live.setReg Reg.MON_CH_SEL 1).setRegI Reg.MON_CH_CFG 1 (BitVec.ofNat 32 (0x10000 + taps))).setRegI Reg.MON_CH_DEC 1 4096

/-- A field record that checks stands in the data registers. -/
def fieldRecord : Bytes := beBytes 3 0xFC0120 ++ List.replicate 137 0

def recorded : State :=
  let b := fieldRecord ++ beBytes 4 (crc32 fieldRecord)
  (List.range 36).foldl (fun s i => s.setRegI Reg.MON_FCAL_DATA i (BitVec.ofNat 32 (beAt b (4 * i) 4))) live

def optSelected : State := (biased.setReg Reg.MON_OPT_SEL 0).setReg Reg.MON_LOOP_SEL 3

def noLoops : State := { live with pa := biased.pa }

/-! ### Events, the journal, counters and limits -/

/-- An occurrence of event 286 limited in a way, and the state in which it has been raised in this second. -/
def occurrence (limit : Nat) : Occ := ⟨0, 286, 0, 3, 0xFFFF, 0, false, limit⟩

def withEvt (f : EvtState → EvtState) (s : State) : State := { s with evt := f s.evt }

def raisedOnce (limit : Nat) : State := withEvt (fun e => { e with raised := [evKey (occurrence limit)] }) up

/-- The write position stands at the end of the ring, the host just behind it; and the ring with one free record. -/
def ringEnd : State := (withEvt (fun e => { e with wr := 32767, seq := 0xFFFFFFFF }) up).setReg Reg.EVT_JRN_RD 32766
def ringFull : State := withEvt (fun e => { e with wr := 32766 }) up

def ringTwo : State := withEvt (fun e => { e with wr := 32765 }) up

def vectorHeld (v : Nat) : State :=
  (withEvt (fun e => { e with holdoff := [v], held := [v] }) up).setReg (Reg.MSIX_TABLE + 16 * v + 12) 0 |>.setReg
    Reg.EVT_CTRL 5

def lossPending : State := withEvt (fun e => { e with lost := some (7, 2) }) up

/-- Lost records, with one and with two records free. -/
def lossFullRing : State := withEvt (fun e => { e with wr := 32766 }) lossPending
def lossTwo : State := withEvt (fun e => { e with wr := 32765 }) lossPending

/-- A full sector of records waits, which read clean; and one whose records have never been written. -/
def spillLost : State :=
  (withEvt (fun e => { e with spill := List.range 129, spillNext := 4 }) up).setReg Reg.EVT_SPILL_CTRL 5
def spilling : State := { spillLost with mem := { spillLost.mem with written := [(journalBase / 32, 130)] } }

def spillFewer : State := withEvt (fun e => { e with spill := List.range 127 }) spilling

def spillReading : State :=
  withEvt (fun e => { e with spillRead := some 3, sectors := [(3, some (up.tru.sectorKey, List.replicate 4096 6))] }) up

def dumpJob : DumpJob := ⟨List.replicate 100 4, true⟩
def dumping : State := { up with pmc := { up.pmc with job := some dumpJob, trunc := 255 } }

def waysideRuns : State := { up with pmc := { up.pmc with wstRunning := 12 } }

/-- Entry 8191 counts event 286. -/
def countingEvents : State := up.setReg (Reg.PMC_CFG0 + 4 * 8191) (BitVec.ofNat 32 (13 * 2 ^ 24 + 286))

/-- A carrier enable of Path A waits for its grant. -/
def enableWaits (since : Nat) : State :=
  let s := live.updCnv .a fun c => { c with tx := .waiting }
  (withQueue [⟨0, 9000, since⟩] s).setReg (pathReg .a Reg.PA_CNV_CTRL) 1
def waitsAt (now since : Nat) : State := { enableWaits since with upNs := now }
def theRequest (since : Nat) : RowReq := ⟨0, 9000, since⟩

end Sys2Proof.Tests
end

