-- ==== Sys2Proof/WellFormed.lean ====
section
/-!
DEFINITION. Which commands the outside world can send: operands in the ranges that the wires, the buses and the measuring
circuits allow. The meanings of ill-formed commands say nothing about the hardware.
-/
namespace Sys2Proof

/-- A ring session is a station number (R450). -/
def Session.wf : Session → Bool
  | .pcie => true
  | .maint => true
  | .ring st => st != 0 && st != 0xFF

/-- The memory die has 2^22 code words (R398), and a code word 32 bytes with their check bits (R400). -/
def upsetsWf (u : Upsets) : Bool := u.all fun x => decide (x.1 < 4194304 ∧ x.2 ≤ 288)

/-- Four DACs and four ADCs, each with its relief slice; sums for at most 16 tracks of two polarisations (R125); sample
codes of 8 bits from all four ADCs or from none (R92). -/
def FrameObs.wf (o : FrameObs) : Bool :=
  o.adcClip.length == 4 && o.adcRms.length == 4
    && decide (o.pilots.length ≤ 32) && o.need.length == 4
    && (o.codes.isEmpty || o.codes.length == 4) && o.codes.all fun l => l.all fun c => decide (-128 ≤ c ∧ c ≤ 127)

/-- A decoded frame: 3,200 bytes of overhead, slots of 640 bytes, and at most 81 code words (R180, R195). -/
def RxFrame.wf (f : RxFrame) : Bool :=
  f.overhead.length == 3200 && (f.slots.all fun x => decide (x.1 < 400) && x.2.length == 640)
    && f.uncorr.all fun w => decide (w < 81)

/-- Well-formed commands. -/
def WellFormed : Instr → Bool
  | .basicProfileWrite ses _ _ => ses.wf
  | .registerWrite ses _ _ _ enables => ses.wf && enables != 0
  | .lineReferenceLost => true
  | .lineReferencePresent => true
  | .hostReferenceLost => true
  | .hostReferenceReturned => true
  | .systemReferenceLost => true
  | .load ses _ => ses.wf
  | .loadFinished _ ups => upsetsWf ups
  | .store ses _ => ses.wf
  | .storeFinished .. => true
  | .amend ses => ses.wf
  | .amendVerified ups => upsetsWf ups
  | .amdCancel ses => ses.wf
  | .commitFloor ses => ses.wf
  | .ppsInEdge .. => true
  | .todMessage .. => true
  | .timeMarkerMissing => true
  | .timeMessageAbsent => true
  | .holdoverLimit => true
  | .timeSourceWrite ses _ => ses.wf
  | .set ses => ses.wf
  | .add ses => ses.wf
  | .cancel ses _ => ses.wf
  | .milestoneFix .. => true
  | .milestoneApply .. => true
  | .deviceMilestoneApply => true
  | .milestoneSecond _ _ arbUse _ => arbUse.length == 8
  | .frameBoundary obsA obsB clients =>
      obsA.wf && obsB.wf && (clients.all fun x =>
        decide (x.1 < 32) && x.2.all fun w =>
          decide ((w.word.length = 544 ∨ w.word.length = 528) ∧ w.markers ≤ 20))
  | .txEnWrite ses _ _ => ses.wf
  | .rxEnWrite ses _ _ => ses.wf
  | .rowGrantFromQueue => true
  | .rowTimeout idx => decide (idx.toNat ≤ 10)
  | .dacPowerUpDone .. => true
  | .adcCalibrationDone _ need => need.length == 4 && need.all fun l => l.length == 65
  | .muteWrite ses _ _ => ses.wf
  | .reliefIntervalEnd .. => true
  | .reliefSwap .. => true
  | .go ses _ _ _ _ => ses.wf
  | .laserServiceRequest .. => true
  | .laserPoll .. => true
  | .laserReply .. => true
  | .laserReplyTimeout .. => true
  | .rst ses _ => ses.wf
  | .laserResetEnd .. => true
  | .portEnWrite ses _ _ => ses.wf
  | .laserFtCodeWrite ses _ _ => ses.wf
  | .rxdRunWrite ses _ _ => ses.wf
  | .restartAcquisition ses _ => ses.wf
  | .acquisitionStateEnd .. => true
  | .acquisitionTimeout .. => true
  | .profileSearch .. => true
  | .profileCandidateEnd .. => true
  | .loLoopUpdate .. => true
  | .txdRunWrite ses _ _ => ses.wf
  | .coefGenNextWrite ses _ _ => ses.wf
  | .levellingCycleEnd .. => true
  | .levellingRequest _ _ _ set => (set.length == 16) && (set.all fun j => decide (j < 256))
  | .levellingResponse .. => true
  | .levellingRequestTimeout .. => true
  | .apply ses window _ _ => ses.wf && decide (window.toNat < 3)
  | .jWrite ses _ _ => ses.wf
  | .iterationLoopUpdate .. => true
  | .decoderExcessReturn .. => true
  | .en ses _ => ses.wf
  | .restart ses => ses.wf
  | .terminationProbe .. => true
  | .signalDetected .. => true
  | .signalLost .. => true
  | .portStateTimeout .. => true
  | .trainingFrame .. => true
  | .carriageFrame _ frames => frames.all fun f => f.length == 1360
  | .carriageFrameSet .. => true
  | .laneEn ses _ => ses.wf
  | .laneRestart ses => ses.wf
  | .laneStateAdvance .. => true
  | .laneStateTimeout .. => true
  | .laneAdaptationUpdate lane _ => decide (lane.toNat < 48)
  | .laneQuarantineEnd lane => decide (lane.toNat < 48)
  | .ringMessage _ msg _ _ => decide (msg.length ≤ 1032)
  | .ringSecondMarker .. => true
  | .ringTimeSend => true
  | .ringMgmtRead .. => true
  | .ringMgmtWrite .. => true
  | .bypassClose cause => decide (1 ≤ cause.toNat ∧ cause.toNat ≤ 4)
  | .vddRingFall => true
  | .bypassOpen => true
  | .laneLockLost .. => true
  | .ethernetPortAligned .. => true
  | .ethernetAlignmentLost .. => true
  | .rxFrame _ f => f.wf
  | .defectTimer .. => true
  | .quarantineEnd .. => true
  | .gccTxWrWrite ses _ _ => ses.wf
  | .gccEnWrite ses _ _ => ses.wf
  | .slotEntryWrite ses _ => ses.wf
  | .slotGenNextWrite ses _ _ => ses.wf
  | .fleamFrame .. => true
  | .fleamEgressRead .. => true
  | .rekeyDue .. => true
  | .rekeyExpWrite ses _ => ses.wf
  | .rekeyNow ses => ses.wf
  | .erase ses => ses.wf
  | .eraseAll ses => ses.wf
  | .hello _ msg => decide (8 ≤ msg.length ∧ msg.length ≤ 16384)
  | .cert _ msg => decide (8 ≤ msg.length ∧ msg.length ≤ 16384)
  | .kexInit _ msg => decide (8 ≤ msg.length ∧ msg.length ≤ 16384)
  | .kexResp _ msg => decide (8 ≤ msg.length ∧ msg.length ≤ 16384)
  | .auth _ msg => decide (8 ≤ msg.length ∧ msg.length ≤ 16384)
  | .done _ msg => decide (8 ≤ msg.length ∧ msg.length ≤ 16384)
  | .nak _ msg => decide (8 ≤ msg.length ∧ msg.length ≤ 16384)
  | .quarantine _ msg => decide (8 ≤ msg.length ∧ msg.length ≤ 16384)
  | .varrumReplyReady .. => true
  | .helloTimer .. => true
  | .tRespExpiry .. => true
  | .backoffEnd .. => true
  | .otpRelease => true
  | .rngStartupPassed => true
  | .rngStartupTimeout => true
  | .rngHealthFailure => true
  | .provision ses => ses.wf
  | .transfer ses => ses.wf
  | .decommission ses => ses.wf
  | .bootProfile ses => ses.wf
  | .certLoad ses => ses.wf
  | .otpCommitDone .. => true
  | .sqTailWrite .. => true
  | .gcmSeal .. => true
  | .gcmOpen .. => true
  | .cbcEnc .. => true
  | .cbcDec .. => true
  | .cmacGen .. => true
  | .cmacVer .. => true
  | .hmacGen .. => true
  | .hmacVer .. => true
  | .xtsEnc .. => true
  | .xtsDec .. => true
  | .derive .. => true
  | .jobErase .. => true
  | .jobComplete .. => true
  | .erasedAbort .. => true
  | .pageReset ses _ => ses.wf
  | .macFrameRx .. => true
  | .macFrameTx .. => true
  | .passStart .. => true
  | .drop .. => true
  | .nop .. => true
  | .ldf .. => true
  | .ldr .. => true
  | .movi .. => true
  | .movhi .. => true
  | .sub .. => true
  | .and .. => true
  | .or .. => true
  | .xor .. => true
  | .shl .. => true
  | .shr .. => true
  | .addi .. => true
  | .andi .. => true
  | .ori .. => true
  | .shli .. => true
  | .shri .. => true
  | .cmp .. => true
  | .cmpi .. => true
  | .br .. => true
  | .adv .. => true
  | .setc .. => true
  | .key .. => true
  | .keyr .. => true
  | .chklen .. => true
  | .flag .. => true
  | .lookup _ ups => upsetsWf ups
  | .cycleLimit .. => true
  | .insert ses => ses.wf
  | .delete ses => ses.wf
  | .read ses => ses.wf
  | .update ses => ses.wf
  | .clear ses => ses.wf
  | .flowCommandComplete => true
  | .learnInsert => true
  | .calendarBin => true
  | .unitRequest .. => true
  | .queueSample .. => true
  | .gateGenNextWrite ses _ _ => ses.wf
  | .bar4Write addr data => decide (1 ≤ data.length ∧ addr.toNat + data.length ≤ 0x08000000)
  | .bar4Read addr len ups => (upsetsWf ups) && decide (1 ≤ len.toNat ∧ addr.toNat + len.toNat ≤ 0x08000000)
  | .mergeDone ups => upsetsWf ups
  | .sramWalk ups => ups.all fun u => decide (u.1 < 4)
  | .scrubPassStart => true
  | .scrubBurstDone ups => upsetsWf ups
  | .scrubPassEnd => true
  | .remapCopyDone => true
  | .remapSwitch => true
  | .commit ses => ses.wf
  | .ledgerClear ses => ses.wf
  | .monitorTimer .. => true
  | .sequenceGo ses => ses.wf
  | .urgentDue => true
  | .conversionDone .. => true
  | .resAck ses => ses.wf
  | .selfCal ses => ses.wf
  | .selfCalDone .. => true
  | .monCalWrite ses _ => ses.wf
  | .chainApply ses => ses.wf
  | .ditherHalfPeriod .. => true
  | .ditherTurnEnd .. => true
  | .rxLevelLoopUpdate .. => true
  | .fcalApply ses => ses.wf
  | .dacCodeWrite ses _ => ses.wf
  | .flr => true
  | .pcieLinkDown => true
  | .perstN => true
  | .mntRegisterWrite .. => true
  | .mntRegisterRead (.read _) => true
  | .mntRegisterRead (.unknown cmd) => cmd ∉ [0x02#8, 0x03#8, 0x12#8, 0x13#8, 0x99#8]
  | .mntMemoryWrite .. => true
  | .mntMemoryRead .. => true
  | .mntReadComplete ups => upsetsWf ups
  | .mntSessionReset => true
  | .mntCsAbort => true
  | .stateRestart ses => ses.wf
  | .mismatchTimeout .. => true
  | .acquire ses _ => ses.wf
  | .renew ses _ => ses.wf
  | .lockCommit ses _ => ses.wf
  | .abort ses _ => ses.wf
  | .leaseExpiry .. => true
  | .holdoffEnd .. => true
  | .lossMarker => true
  | .spillSectorWrite .. => true
  | .spillRead ses _ => ses.wf
  | .spillReadDone => true
  | .pmcCfgWrite ses _ _ => ses.wf
  | .dumpWritten => true
  | .waysideItemDone _ _ ups => upsetsWf ups
  | .powerOn => true
  | .resetNLow => true
  | .resetRelease => true
  | .supplyWarning rail => decide (rail.toNat < 5)
  | .supplyReset rail => decide (rail.toNat < 5)
  | .pwrSwReset ses => ses.wf
  | .swResetHoldEnd => true
  | .thermalReading raw => raw.length == 12
  | .tripHoldEnd => true
  | .ceilingWrite ses _ => ses.wf
  | .timeoutWrite ses _ => ses.wf
  | .conversionDue => true
  | .perstNRelease => true
  | .registerRead .. => true

end Sys2Proof
end

