-- ==== Sys2Proof/Tests/Slice0.lean ====
section
/-!
SUPPORT. Tests of the model: well-formedness, small single steps with results worked out from the spec, and for every
statement with hypotheses the states and operands that meet them.
-/


namespace Sys2Proof.Tests

set_option Elab.async false
open Sys2Proof.Machine

/-- Whether a write is accepted, worked out. -/
def acceptedB (s : State) (ses : Session) (off : Nat) (w : Word) : Bool :=
  s.pwr.inReset == false && s.reaches ses && (match ses with | .ring _ => s.ringWrites | _ => true) &&
  s.begin.lockCode (sessionNum ses) off == acOk && s.begin.judge .host off w == acOk

theorem accepted_of {s : State} {ses : Session} {off : Nat} {w : Word} (h : acceptedB s ses off w = true) :
    Accepted s ses off w := by
  simp only [acceptedB, Bool.and_eq_true, beq_iff_eq] at h
  refine ⟨h.1.1.1.1, h.1.1.1.2, ?_, h.1.2, h.2⟩
  rintro st rfl
  exact h.1.1.2

/-- Whether a dither turn in progress has its conditions, worked out. -/
def turnHoldsB (s : State) (p : Path) : Bool :=
  match (s.dither p).turn with
  | none => true
  | some t => !(s.rail (optLoop p t.loop)).freeze && flagOf (s.optCtrl p t.loop) 15 && (s.path p).cnv.dacReady

theorem turnHolds_of {s : State} {p : Path} (h : turnHoldsB s p = true) : s.turnHolds p := by
  intro t ht
  simpa [turnHoldsB, ht, and_assoc] using h

theorem inv_of {s : State} (h : (s.batch == [] && s.ctl.mismatch.all s.mismatched && turnHoldsB s .a
    && turnHoldsB s .b) = true) : Inv s := by
  simp only [Bool.and_eq_true, beq_iff_eq, List.all_eq_true] at h
  exact ⟨h.1.1.1, h.1.1.2, turnHolds_of h.1.2, turnHolds_of h.2⟩

theorem zeros_from {l : List Nat} {k : Nat} (h : (l.drop k).all (· == 0) = true) : ∀ t, k ≤ t → l.getD t 0 = 0 := by
  intro t ht
  by_cases hl : t < l.length
  · have hm : l[t] ∈ l.drop k := by
      rw [List.mem_iff_getElem]
      exact ⟨t - k, by simp; omega, by simp [Nat.add_sub_cancel' ht]⟩
    simpa [List.getD, hl] using List.all_eq_true.mp h _ hm
  · simp [List.getD, Nat.not_lt.mp hl]

/-- Whether a path sends alone, worked out. -/
def aloneB (s : State) (p : Path) : Bool :=
  s.pwr.inReset == false && s.rte.active && s.pathUp p
    && ((List.range 8).all fun i => !s.inst i || i == pathNum p || i == 4 + pathNum p) && s.fcLoaded
    && (s.path p).cnv.tx == .running && s.txEn p && (s.path p).txd.running && s.pflag p Reg.PA_TXD_CTRL 0
    && s.rte.amd.isNone && (s.selfSet p).isNone

theorem sendsAlone_of {s : State} {p : Path} (h : aloneB s p = true) : SendsAlone s p := by
  simp only [aloneB, Bool.and_eq_true, beq_iff_eq, List.all_eq_true, List.mem_range, Option.isNone_iff_eq_none] at h
  obtain ⟨⟨⟨⟨⟨⟨⟨⟨⟨⟨h1, h2⟩, h3⟩, h4⟩, h5⟩, h6⟩, h7⟩, h8⟩, h9⟩, h10⟩, h11⟩ := h
  refine ⟨h1, h2, h3, fun i hi => ?_, h5, ⟨h6, h7⟩, ⟨h8, h9⟩, ⟨h10, h11⟩⟩
  have hb : i < 8 := by
    simp only [State.inst, Bool.and_eq_true] at hi
    exact BitVec.lt_of_getLsbD hi.2
  simpa [hi] using h4 i hb

/-- The state that a command answers. -/
def nextOf (c : Instr) (s : State) : State :=
  match exec c s with
  | .next t => t
  | _ => s

/-! ### Well-formedness: a term that each check refuses, beside one that it takes -/

theorem test_wf_session : WellFormed (.load (.ring 0) 0) = false ∧ WellFormed (.load (.ring 0xFF) 0) = false ∧
    WellFormed (.load (.ring 0xFE) 0) = true := by decide

theorem test_wf_enables : WellFormed (.registerWrite .pcie false 4 0 0) = false ∧
    WellFormed (.registerWrite .pcie false 4 0 8) = true := by decide

theorem test_wf_upsets : WellFormed (.mergeDone [(4194304, 1)]) = false ∧ WellFormed (.mergeDone [(4194303, 289)]) = false ∧
    WellFormed (.mergeDone [(4194303, 288)]) = true := by decide

theorem test_wf_sram : WellFormed (.sramWalk [(4, 0, 1)]) = false ∧ WellFormed (.sramWalk [(3, 0, 1)]) = true := by decide

def goodObs : FrameObs := { noObs with
  adcClip := [0, 0, 0, 0], adcRms := [0, 0, 0, 0], need := List.replicate 4 (0, 0, 0) }

theorem test_wf_frame : FrameObs.wf goodObs = true ∧ FrameObs.wf { goodObs with adcRms := [0, 0, 0] } = false ∧
    FrameObs.wf { goodObs with need := [] } = false ∧ FrameObs.wf { goodObs with codes := [[1], [2], [3]] } = false ∧
    FrameObs.wf { goodObs with codes := [[1], [2], [3], [128]] } = false ∧
    FrameObs.wf { goodObs with pilots := List.replicate 33 (0, 0) } = false := by decide

theorem test_wf_decoded : RxFrame.wf ⟨List.replicate 3200 0, [(399, List.replicate 640 0)], [80], 0, 0, 0, 0⟩ = true ∧
    RxFrame.wf ⟨List.replicate 3199 0, [], [], 0, 0, 0, 0⟩ = false ∧
    RxFrame.wf ⟨List.replicate 3200 0, [(400, List.replicate 640 0)], [], 0, 0, 0, 0⟩ = false ∧
    RxFrame.wf ⟨List.replicate 3200 0, [], [81], 0, 0, 0, 0⟩ = false := by decide +kernel

theorem test_wf_carriage : WellFormed (.carriageFrame 0 [List.replicate 1359 0]) = false ∧
    WellFormed (.carriageFrame 0 [List.replicate 1360 0]) = true := by decide +kernel

theorem test_wf_lane : WellFormed (.laneQuarantineEnd 48) = false ∧ WellFormed (.laneQuarantineEnd 47) = true := by decide

theorem test_wf_rails : WellFormed (.apply .pcie 3 false 0) = false ∧ WellFormed (.apply .pcie 2 false 0) = true := by decide

theorem test_wf_message : WellFormed (.hello .a [1, 2, 3, 4, 5, 6, 7]) = false ∧
    WellFormed (.hello .a [1, 2, 3, 4, 5, 6, 7, 8]) = true := by decide

theorem test_wf_window : WellFormed (.bar4Write 0x07FFFFFF [1, 2]) = false ∧ WellFormed (.bar4Write 0x07FFFFFF []) = false ∧
    WellFormed (.bar4Write 0x07FFFFFF [1]) = true ∧ WellFormed (.bar4Read 0x07FFFFFF 2 []) = false ∧
    WellFormed (.bar4Read 0x07FFFFFF 0 []) = false := by decide

theorem test_wf_levelling : WellFormed (.levellingRequest .a 1 1 (List.replicate 15 0)) = false ∧
    WellFormed (.levellingRequest .a 1 1 (256 :: List.replicate 15 0)) = false ∧
    WellFormed (.milestoneSecond noSecond noSecond [] 0) = false := by decide

theorem test_wf_measured : WellFormed (.adcCalibrationDone .a [[], [], []]) = false ∧
    WellFormed (.ringMessage false (List.replicate 1033 0) [] 0) = false ∧ WellFormed (.thermalReading [0]) = false ∧
    WellFormed (.supplyWarning 5) = false ∧ WellFormed (.rowTimeout 11) = false ∧
    WellFormed (.bypassClose 0) = false := by decide +kernel

/-! ### Results that the spec works out -/

/-- The budget of 19_power_and_bringup.md: both paths at 1.6 Tb/s, encrypted, two 1.6TbE ports, four legacy lanes. -/
theorem test_power_budget :
    ImageCfg.base { noImage with
      inst := 0xBF, ports := [⟨0, 0, 8, 3, 0, 0⟩, ⟨1, 8, 8, 3, 0, 0⟩], lanes := [(0, 1), (1, 1)] } =
        12120 ∧
    PathMode.carrierCost ⟨16, 256, 1, 0⟩ = 2400 ∧ PathMode.receiverCost ⟨16, 256, 1, 0⟩ = 5364 ∧
    PathMode.iterCost ⟨16, 256, 1, 0⟩ = 1170 := by decide +kernel

/-- The symbol budget of 06_transmit_dsp.md at k = 256 with one track, and the lowest rate of 07_tracks_and_margin.md for
2.0 Tb/s at 15 % FEC. -/
theorem test_symbol_budget :
    PathMode.symbols ⟨16, 256, 1, 0⟩ = 255488 ∧ PathMode.dataSymbols ⟨16, 256, 1, 0⟩ = 251496 ∧
    PathMode.blocks ⟨16, 256, 1, 0⟩ = 15718 ∧ PathMode.slots ⟨16, 256, 1, 0⟩ = 320 ∧
    PathMode.words ⟨20, 256, 0, 0⟩ = 81 ∧ PathMode.valid ⟨20, 217, 0, 0⟩ = false ∧
    PathMode.valid ⟨20, 218, 0, 0⟩ = true ∧ PathMode.uniformJ ⟨20, 218, 0, 0⟩ = 179 := by decide

/-- The fine-tune code of 04_line_converters.md: -120 MHz at a gain of 8,545, and -300 MHz at the limit. -/
theorem test_fine_tune : ftCode (-120000000) 8545 false = (0x4925, false) ∧ ftCode (-300000000) 8545 false = (0, true) := by
  decide

/-- The capacity of a terminated packet container of 60 slots is 4,791 words per frame, and a frame of 1,500 bytes takes a
unit of 1,512 (14_scheduling.md). -/
theorem test_container : packetWords 60 = 4791 ∧ unitBytes 1500 = 1512 ∧ sMin 81 = 12 := by decide

/-- The canonical key of 13_packet_path.md: both directions of a conversation give one key. -/
def conversation (a b : Nat) (p q : Nat) : Pass :=
  { freshPass with keys := [keyCopy 0 (beBytes 4 a), keyCopy 1 (beBytes 4 b), beBytes 2 p, beBytes 2 q, [17], [0, 0, 0],
    [0, 0, 0, 0]] }

theorem test_canonical_key :
    (conversation 0x0A000005 0x0A000002 40000 53).canonical.2 = true ∧
    (conversation 0x0A000002 0x0A000005 53 40000).canonical = ((conversation 0x0A000005 0x0A000002 40000 53).canonical.1, false) ∧
    ((conversation 0x0A000005 0x0A000002 40000 53).canonical.1.drop 32).take 2 = [0, 53] := by decide +kernel

/-- The padding of a `CBC_ENC` of 100 and of 96 bytes (12_trust_and_otp.md). -/
theorem test_padding : (pkcsPad (List.replicate 100 1)).drop 100 = List.replicate 12 0x0C ∧
    (pkcsPad (List.replicate 96 1)).drop 96 = List.replicate 16 0x10 := by decide +kernel

/-! ### The hypotheses of the statements are met -/

theorem witness_supply :
    (4#4).toNat < 5 :=
  by decide +kernel

theorem witness_swReset :
    Accepted live Session.pcie Reg.PWR_SW_RESET 165 :=
  accepted_of (by decide +kernel)

theorem witness_swResetM :
    Accepted live Session.maint Reg.PWR_SW_RESET 165 :=
  accepted_of (by decide +kernel)

theorem witness_releasePin :
    (held true false false).pwr.inReset = true ∧
    (held true false false).pwr.tripHold = false ∧
    (held true false false).pwr.swHold = false :=
  by decide +kernel

theorem witness_releaseSw :
    (held false false true).pwr.inReset = true ∧
    (held false false true).pwr.pinHold = false ∧
    (held false false true).pwr.tripHold = false :=
  by decide +kernel

theorem witness_releaseTrip :
    (held false true false).pwr.inReset = true ∧
    (held false true false).pwr.pinHold = false ∧
    (held false true false).pwr.swHold = false :=
  by decide +kernel

theorem witness_releaseSwHeld :
    (held false true true).pwr.inReset = true ∧
    (held false true true).pwr.tripHold = true :=
  by decide +kernel

theorem witness_releaseTripHeld :
    (held true true false).pwr.inReset = true ∧
    (held true true false).pwr.pinHold = true :=
  by decide +kernel

theorem witness_trip :
    (readings 8960).length = 12 ∧
    tripping.pwr.thermOff = List.replicate 12 0 ∧
    2 ≤ tripping.pwr.tripRun ∧
    (∃ x, x ∈ readings 8960 ∧ (↑(tripping.fld Reg.PWR_THERM 31 24 * 64) : Int) ≤ x) :=
  by decide +kernel

theorem witness_warm :
    (readings 8959).length = 12 ∧
    up.pwr.thermOff = List.replicate 12 0 ∧
    up.pwr.inReset = false ∧
    8959 ∈ readings 8959 ∧
    (∀ (x : Int), x ∈ readings 8959 → x ≤ 8959) ∧
    8959 < (↑(up.fld Reg.PWR_THERM 31 24 * 64) : Int) :=
  by decide +kernel

theorem witness_warmLive :
    (readings 8959).length = 12 ∧
    live.pwr.thermOff = List.replicate 12 0 ∧
    live.pwr.inReset = false ∧
    8959 ∈ readings 8959 ∧
    (∀ (x : Int), x ∈ readings 8959 → x ≤ 8959) ∧
    8959 < (↑(live.fld Reg.PWR_THERM 31 24 * 64) : Int) :=
  by decide +kernel

theorem witness_lineLost :
    live.pwr.inReset = false ∧
    live.pwr.lineRef = true :=
  by decide +kernel

theorem witness_lineBack :
    noLineRef.pwr.inReset = false ∧
    noLineRef.pwr.lineRef = false :=
  by decide +kernel

theorem witness_hostLost :
    live.pwr.inReset = false ∧
    live.ringOn = true :=
  by decide +kernel

theorem witness_hostBack :
    up.pwr.inReset = false :=
  by decide +kernel

theorem witness_warned :
    live.pwr.inReset = false ∧
    (4#4).toNat < 5 :=
  by decide +kernel

theorem witness_fromQueue :
    (withQueue [request 500] live).pwr.inReset = false ∧
    (withQueue [request 500] live).pwr.queue = [request 500] ∧
    (request 500).idx = 0 ∧
    (withQueue [request 500] live).alloc + (request 500).cost ≤ (withQueue [request 500] live).effCeiling ∧
    (withQueue [request 500] live).pwr.lineRef = true :=
  by decide +kernel

theorem witness_noFit :
    (withQueue [request 50000] live).pwr.inReset = false ∧
    (withQueue [request 50000] live).pwr.queue = [request 50000] ∧
    (withQueue [request 50000] live).effCeiling < (withQueue [request 50000] live).alloc + (request 50000).cost :=
  by decide +kernel

theorem witness_waited :
    (withQueue [request 500] live).pwr.inReset = false ∧
    (withQueue [request 500] live).pwr.queue = [request 500] ∧
    (request 500).idx = 0 :=
  by decide +kernel

theorem witness_ceilingFree :
    Accepted live Session.pcie Reg.PWR_CEILING (live.withField Reg.PWR_CEILING 8 0 (300#9).toNat) ∧
    live.pwr.queue = [] :=
  ⟨accepted_of (by decide +kernel), by decide +kernel⟩

theorem witness_ceilingHigh :
    Accepted live Session.maint Reg.PWR_CEILING (live.withField Reg.PWR_CEILING 8 0 (100#9).toNat) ∧
    live.pwr.queue = [] :=
  ⟨accepted_of (by decide +kernel), by decide +kernel⟩

theorem witness_ceilingDenies :
    Accepted (withQueue [request 5000] live) Session.pcie Reg.PWR_CEILING
  ((withQueue [request 5000] live).withField Reg.PWR_CEILING 8 0 (60#9).toNat) ∧
    (withQueue [request 5000] live).pwr.queue = [request 5000] ∧
    (request 5000).idx = 0 ∧
    100 * (60#9).toNat < (withQueue [request 5000] live).base + (request 5000).cost :=
  ⟨accepted_of (by decide +kernel), by decide +kernel⟩

theorem witness_ceilingKeeps :
    Accepted (withQueue [request 5000] live) Session.pcie Reg.PWR_CEILING
  ((withQueue [request 5000] live).withField Reg.PWR_CEILING 8 0 (165#9).toNat) ∧
    (withQueue [request 5000] live).pwr.queue = [request 5000] ∧
    (request 5000).idx = 0 ∧
    (withQueue [request 5000] live).base + (request 5000).cost +
    100 * (withQueue [request 5000] live).fld Reg.PWR_CTRL 23 16 ≤
  100 * (165#9).toNat :=
  ⟨accepted_of (by decide +kernel), by decide +kernel⟩

theorem witness_timeoutEnds :
    Accepted waitedLong Session.pcie Reg.PWR_CTRL (waitedLong.withField Reg.PWR_CTRL 13 0 (1#14).toNat) ∧
    waitedLong.pwr.queue = [request 500] ∧
    (request 500).idx = 0 ∧
    (request 500).since + 1000000 * (1#14).toNat < waitedLong.upNs ∧
    (1#14).toNat ≠ waitedLong.fld Reg.PWR_CTRL 13 0 :=
  ⟨accepted_of (by decide +kernel), by decide +kernel⟩

theorem witness_timeoutWaits :
    Accepted waitedLong Session.maint Reg.PWR_CTRL (waitedLong.withField Reg.PWR_CTRL 13 0 (3#14).toNat) ∧
    waitedLong.pwr.queue = [request 500] ∧
    (request 500).idx = 0 ∧
    waitedLong.upNs ≤ (request 500).since + 1000000 * (3#14).toNat :=
  ⟨accepted_of (by decide +kernel), by decide +kernel⟩

theorem witness_pps :
    (acquiring TimeState.acquiring 1 0).pwr.inReset = false ∧
    ((acquiring TimeState.acquiring 1 0).timeSrc = 1 ∨ (acquiring TimeState.acquiring 1 0).timeSrc = 2) ∧
    (acquiring TimeState.acquiring 1 0).timeSrc = 1 ∧
    (acquiring TimeState.acquiring 1 0).mst.markerSeen = true ∧
    999900000 ≤ 1000000000 ∧
    1000000000 ≤ 1000100000 ∧
    (acquiring TimeState.acquiring 1 0).mst.msgTime = some (1, 0) ∧
    (acquiring TimeState.acquiring 1 0).mst.msgGood = true ∧
    (acquiring TimeState.acquiring 1 0).mst.time = TimeState.acquiring ∧
    (acquiring TimeState.acquiring 1 0).mst.qualified = 2 ∧
    ((↑((1 * 1000000000 + 0) * 4294967296) : Int) -
      (↑((acquiring TimeState.acquiring 1 0).begin.timeTo
              ((acquiring TimeState.acquiring 1 0).timeAt
                ((acquiring TimeState.acquiring 1 0).moment
                  ((acquiring TimeState.acquiring 1 0).mst.markAt + 1000000000)))).nowFine :
        Int)).natAbs ≤
  10000 * 4294967296 :=
  by decide +kernel

theorem witness_ppsStep :
    (acquiring TimeState.acquiring 0 999000000).pwr.inReset = false ∧
    ((acquiring TimeState.acquiring 0 999000000).timeSrc = 1 ∨
  (acquiring TimeState.acquiring 0 999000000).timeSrc = 2) ∧
    (acquiring TimeState.acquiring 0 999000000).timeSrc = 1 ∧
    (acquiring TimeState.acquiring 0 999000000).mst.markerSeen = true ∧
    999900000 ≤ 1000000000 ∧
    1000000000 ≤ 1000100000 ∧
    (acquiring TimeState.acquiring 0 999000000).mst.msgTime = some (0, 999000000) ∧
    (acquiring TimeState.acquiring 0 999000000).mst.msgGood = true ∧
    (acquiring TimeState.acquiring 0 999000000).mst.time = TimeState.acquiring ∧
    (acquiring TimeState.acquiring 0 999000000).mst.qualified = 2 ∧
    10000 * 4294967296 <
  ((↑((0 * 1000000000 + 999000000) * 4294967296) : Int) -
      (↑((acquiring TimeState.acquiring 0 999000000).begin.timeTo
              ((acquiring TimeState.acquiring 0 999000000).timeAt
                ((acquiring TimeState.acquiring 0 999000000).moment
                  ((acquiring TimeState.acquiring 0 999000000).mst.markAt + 1000000000)))).nowFine :
        Int)).natAbs ∧
    (acquiring TimeState.acquiring 0 999000000).mst.queue = [] ∧
    0 =
  ((acquiring TimeState.acquiring 0 999000000).begin.timeTo
        ((acquiring TimeState.acquiring 0 999000000).timeAt
          ((acquiring TimeState.acquiring 0 999000000).moment
            ((acquiring TimeState.acquiring 0 999000000).mst.markAt + 1000000000)))).mst.sec ∧
    999000000 < 1000000000 ∧
    0 < 2 ^ 48 :=
  by decide +kernel

theorem witness_ppsLocked :
    (acquiring TimeState.locked 1 0).pwr.inReset = false ∧
    ((acquiring TimeState.locked 1 0).timeSrc = 1 ∨ (acquiring TimeState.locked 1 0).timeSrc = 2) ∧
    (acquiring TimeState.locked 1 0).timeSrc = 1 ∧
    (acquiring TimeState.locked 1 0).mst.markerSeen = true ∧
    999900000 ≤ 999900000 ∧
    999900000 ≤ 1000100000 ∧
    (acquiring TimeState.locked 1 0).mst.msgTime = some (1, 0) ∧
    (acquiring TimeState.locked 1 0).mst.msgGood = true ∧
    (acquiring TimeState.locked 1 0).mst.time = TimeState.locked :=
  by decide +kernel

theorem witness_markerMissing :
    (timed TimeState.locked).pwr.inReset = false ∧
    ((timed TimeState.locked).timeSrc = 1 ∨ (timed TimeState.locked).timeSrc = 2) ∧
    (timed TimeState.locked).mst.time = TimeState.locked :=
  by decide +kernel

theorem witness_messageAbsent :
    silent.pwr.inReset = false ∧
    (silent.timeSrc = 1 ∨ silent.timeSrc = 2) ∧
    silent.mst.time = TimeState.locked ∧
    silent.mst.msgTime = none ∧
    silent.mst.badSecs = 1 :=
  by decide +kernel

theorem witness_holdoverLimit :
    holding.pwr.inReset = false ∧
    (holding.timeSrc = 1 ∨ holding.timeSrc = 2) ∧
    holding.mst.time = TimeState.holdover ∧
    holding.fld Reg.MST_HOLDOVER 15 0 ≠ 0 :=
  by decide +kernel

theorem witness_message :
    (timed TimeState.locked).pwr.inReset = false ∧
    (timed TimeState.locked).timeSrc = 1 ∧
    (timed TimeState.locked).mst.markerSeen = true ∧
    100000000 ≤ 100000000 ∧
    100000000 ≤ 900000000 ∧
    timeMessageOk timeMessage = true ∧
    (beAt timeMessage 3 1).testBit 0 = true ∧
    (beAt timeMessage 3 1).testBit 1 = false :=
  by decide +kernel

theorem witness_messageLate :
    (timed TimeState.locked).pwr.inReset = false ∧
    (timed TimeState.locked).timeSrc = 1 ∧
    (timed TimeState.locked).mst.markerSeen = true ∧
    100000000 ≤ 900000000 ∧
    900000000 ≤ 900000000 ∧
    timeMessageOk timeMessage = true ∧
    (beAt timeMessage 3 1).testBit 0 = true ∧
    (beAt timeMessage 3 1).testBit 1 = false :=
  by decide +kernel

theorem witness_messageBad :
    (timed TimeState.locked).pwr.inReset = false ∧
    (timed TimeState.locked).timeSrc = 1 ∧
    (timed TimeState.locked).mst.markerSeen = true ∧
    timeMessageOk [] = false :=
  by decide +kernel

theorem witness_source :
    Accepted (timed TimeState.locked) Session.pcie Reg.MST_TIME_CTRL
  ((timed TimeState.locked).withField Reg.MST_TIME_CTRL 1 0 (2#2).toNat) ∧
    fieldOf ((timed TimeState.locked).begin.writeBase Reg.MST_TIME_CTRL) 1 0 ≠ (2#2).toNat :=
  ⟨accepted_of (by decide +kernel), by decide +kernel⟩

theorem witness_sourceNone :
    Accepted (timed TimeState.locked) Session.pcie Reg.MST_TIME_CTRL
  ((timed TimeState.locked).withField Reg.MST_TIME_CTRL 1 0 (0#2).toNat) ∧
    fieldOf ((timed TimeState.locked).begin.writeBase Reg.MST_TIME_CTRL) 1 0 ≠ (0#2).toNat :=
  ⟨accepted_of (by decide +kernel), by decide +kernel⟩

theorem witness_setTime :
    Accepted hostTime Session.pcie Reg.MST_TIME_CTRL (hostTime.withField Reg.MST_TIME_CTRL 2 2 1) ∧
    (hostTime.stores Session.pcie Reg.MST_TIME_CTRL (hostTime.withField Reg.MST_TIME_CTRL 2 2 1)).timeSrc = 3 ∧
    hostTime.mst.queue = [] ∧
    BitVec.toNat (hostTime.reg Reg.MST_SET_NS) < 1000000000 ∧
    hostTime.mst.sec =
  hostTime.fld Reg.MST_SET_SEC_HI 15 0 * 4294967296 + BitVec.toNat (hostTime.reg Reg.MST_SET_SEC_LO) :=
  ⟨accepted_of (by decide +kernel), by decide +kernel⟩

theorem witness_frame :
    up.pwr.inReset = false ∧
    up.rte.active = false ∧
    up.mst.queue = [] ∧
    up.ctl.restarts = [] ∧
    up.phase = 0 ∧
    up.mst.slew = 0 ∧
    up.mst.rate = 0 ∧
    up.timeSrc ≠ 3 ∧
    up.mst.sec < 2 ^ 48 ∧
    up.mst.ns + 1024 < 1000000000 ∧
    up.mst.frac < 4294967296 :=
  by decide +kernel

theorem witness_frameRuns :
    disciplined.pwr.inReset = false ∧
    disciplined.rte.active = false ∧
    disciplined.mst.queue = [] ∧
    disciplined.ctl.restarts = [] ∧
    disciplined.mst.sec < 2 ^ 48 ∧
    disciplined.nowFine ≤ disciplined.boundaryTime + disciplined.frameAdvance ∧
    disciplined.boundaryTime + disciplined.frameAdvance < (disciplined.mst.sec + 1) * 1000000000 * 4294967296 :=
  by decide +kernel

theorem witness_second :
    counting.pwr.inReset = false ∧
    counting.mst.sec + 1 < 2 ^ 48 ∧
    counting.mst.perCnt ≠ 0 :=
  by decide +kernel

theorem witness_add :
    Accepted entryRegs Session.pcie Reg.MST_Q_CMD (entryRegs.withField Reg.MST_Q_CMD 0 0 1) ∧
    entryRegs.mst.queue.length < 64 ∧
    entryRegs.reg Reg.MST_Q_ENTRY = 1088 ∧
    entryRegs.now + 2097152 <
  (entryRegs.fld Reg.MST_Q_TIME_SEC_HI 15 0 * 4294967296 + BitVec.toNat (entryRegs.reg Reg.MST_Q_TIME_SEC_LO)) *
      1000000000 +
    BitVec.toNat (entryRegs.reg Reg.MST_Q_TIME_NS) :=
  ⟨accepted_of (by decide +kernel), by decide +kernel⟩

theorem witness_addTwo :
    Accepted (withEntry entryRegs (queued 5 1 0 64)) Session.pcie Reg.MST_Q_CMD
  ((withEntry entryRegs (queued 5 1 0 64)).withField Reg.MST_Q_CMD 0 0 1) ∧
    (withEntry entryRegs (queued 5 1 0 64)).mst.queue.length < 64 ∧
    (withEntry entryRegs (queued 5 1 0 64)).reg Reg.MST_Q_ENTRY = 1088 ∧
    (withEntry entryRegs (queued 5 1 0 64)).now + 2097152 <
  ((withEntry entryRegs (queued 5 1 0 64)).fld Reg.MST_Q_TIME_SEC_HI 15 0 * 4294967296 +
        BitVec.toNat ((withEntry entryRegs (queued 5 1 0 64)).reg Reg.MST_Q_TIME_SEC_LO)) *
      1000000000 +
    BitVec.toNat ((withEntry entryRegs (queued 5 1 0 64)).reg Reg.MST_Q_TIME_NS) :=
  ⟨accepted_of (by decide +kernel), by decide +kernel⟩

theorem witness_cancel :
    Accepted (withEntry up (queued 5 1 0 64)) Session.pcie Reg.MST_Q_CMD
  (setField ((withEntry up (queued 5 1 0 64)).withField Reg.MST_Q_CMD 7 2 (5#6).toNat) 1 1 1) ∧
    (withEntry up (queued 5 1 0 64)).entry (5#6).toNat = some (queued 5 1 0 64) ∧
    (queued 5 1 0 64).owner = Owner.host ∧
    (queued 5 1 0 64).withdrawn = false ∧
    (withEntry up (queued 5 1 0 64)).now + 1048576 < (queued 5 1 0 64).time ∧
    (∀ (p : Path), ((queued 5 1 0 64).part p).target = none) :=
  ⟨accepted_of (by decide +kernel), by decide +kernel, by decide +kernel, by decide +kernel, by decide +kernel, fun p => by cases p <;> decide +kernel⟩

theorem witness_fixing :
    (withEntry coefStaged (coefEntry none)).pwr.inReset = false ∧
    (withEntry coefStaged (coefEntry none)).mst.queue = [coefEntry none] ∧
    (coefEntry none).handle = (3#6).toNat ∧
    (coefEntry none).withdrawn = false ∧
    ((coefEntry none).part Path.a).inScope = true ∧
    ((coefEntry none).part Path.a).target = none ∧
    ((coefEntry none).part Path.a).kinds = 16#7 ∧
    (withEntry coefStaged (coefEntry none)).staged Path.a 4 = some 7 ∧
    (withEntry coefStaged (coefEntry none)).phase ≤ (withEntry coefStaged (coefEntry none)).frameAdvance ∧
    ((coefEntry none).time - 2097152) * 4294967296 ≤ (withEntry coefStaged (coefEntry none)).nowFine :=
  by decide +kernel

theorem witness_applying :
    (withEntry coefStaged (coefEntry (some 1))).pwr.inReset = false ∧
    (withEntry coefStaged (coefEntry (some 1))).mst.queue = [coefEntry (some 1)] ∧
    (coefEntry (some 1)).withdrawn = false ∧
    (withEntry coefStaged (coefEntry (some 1))).rte.amd = none ∧
    (withEntry coefStaged (coefEntry (some 1))).pathUp Path.a = true ∧
    ((withEntry coefStaged (coefEntry (some 1))).path Path.a).trk.change = none ∧
    (coefEntry (some 1)).deviceDone = true ∧
    ((coefEntry (some 1)).part (otherPath Path.a)).inScope = false ∧
    ((coefEntry (some 1)).part Path.a).inScope = true ∧
    ((coefEntry (some 1)).part Path.a).done = false ∧
    ((coefEntry (some 1)).part Path.a).kinds = 16#7 ∧
    ((coefEntry (some 1)).part Path.a).target =
  some (((withEntry coefStaged (coefEntry (some 1))).txFc + 1) % 2 ^ 48) ∧
    ((coefEntry (some 1)).part Path.a).frozen.coef = 7 :=
  by decide +kernel

theorem witness_applyingPathShadow :
    pathDue.pwr.inReset = false ∧
    pathDue.mst.queue = [shadowEntry] ∧
    shadowEntry.withdrawn = false ∧
    pathDue.rte.amd = none ∧
    regDesc Reg.PA_LFR_TRACE_TX = some (described Reg.PA_LFR_TRACE_TX) ∧
    Reg.PA_LFR_TRACE_TX < 67108864 ∧
    pathKey Path.a Reg.PA_LFR_TRACE_TX = true ∧
    pathDue.pathUp Path.a = true ∧
    (pathDue.path Path.a).trk.change = none ∧
    pathDue.shadow = [(Reg.PA_LFR_TRACE_TX, 1094861636)] ∧
    shadowEntry.deviceDone = true ∧
    (shadowEntry.part (otherPath Path.a)).inScope = false ∧
    (shadowEntry.part Path.a).inScope = true ∧
    (shadowEntry.part Path.a).done = false ∧
    (shadowEntry.part Path.a).kinds = 64#7 ∧
    (shadowEntry.part Path.a).target = some ((pathDue.txFc + 1) % 2 ^ 48) :=
  by decide +kernel

theorem witness_applyingDevice :
    deviceDue.pwr.inReset = false ∧
    deviceDue.mst.queue = [queued 4 1 0 64] ∧
    (queued 4 1 0 64).withdrawn = false ∧
    deviceDue.rte.amd = none ∧
    regDesc Reg.CNT_C_TRACE_TX = some (described Reg.CNT_C_TRACE_TX) ∧
    Reg.CNT_C_TRACE_TX < 67108864 ∧
    deviceKey Reg.CNT_C_TRACE_TX = true ∧
    deviceDue.shadow = [(Reg.CNT_C_TRACE_TX, 1094861636)] ∧
    deviceDue.tblShadow = [] ∧
    (queued 4 1 0 64).deviceDone = false ∧
    (queued 4 1 0 64).devShadow = true ∧
    (queued 4 1 0 64).partA.inScope = false ∧
    (queued 4 1 0 64).partB.inScope = false ∧
    (queued 4 1 0 64).time * 4294967296 ≤ deviceDue.nowFine - deviceDue.phase + deviceDue.frameAdvance :=
  by decide +kernel

theorem witness_applyingTable :
    tableDue.pwr.inReset = false ∧
    tableDue.mst.queue = [queued 4 1 0 64] ∧
    (queued 4 1 0 64).withdrawn = false ∧
    tableDue.rte.amd = none ∧
    tableDue.shadow = [] ∧
    tableDue.tblShadow = [(tblKey queueTable 8, 2147550208)] ∧
    (queued 4 1 0 64).deviceDone = false ∧
    (queued 4 1 0 64).devShadow = true ∧
    (queued 4 1 0 64).partA.inScope = false ∧
    (queued 4 1 0 64).partB.inScope = false ∧
    (queued 4 1 0 64).time * 4294967296 ≤ tableDue.nowFine - tableDue.phase + tableDue.frameAdvance :=
  by decide +kernel

theorem witness_aloneSends :
    (alone false).pwr.inReset = false ∧
    SendsAlone (alone false) Path.a ∧
    (alone false).mst.queue = [] ∧
    (alone false).ctl.restarts = [] :=
  ⟨by decide +kernel, sendsAlone_of (by decide +kernel), by decide +kernel⟩

theorem witness_aloneFrame :
    (alone false).pwr.inReset = false ∧
    SendsAlone (alone false) Path.a ∧
    (alone false).mst.queue = [] ∧
    (alone false).ctl.restarts = [] :=
  ⟨by decide +kernel, sendsAlone_of (by decide +kernel), by decide +kernel⟩

theorem witness_aloneKeyKept :
    (agedKey 5).pwr.inReset = false ∧
    SendsAlone (agedKey 5) Path.a ∧
    (agedKey 5).mst.queue = [] ∧
    (agedKey 5).ctl.restarts = [] ∧
    anyKey ((agedKey 5).cry Path.a).txKeys.tx = true ∧
    ((agedKey 5).cry Path.a).txAge < 2 ^ 38 ∧
    wrapPassed ((agedKey 5).cry Path.a).txLast (nextOf (Instr.frameBoundary noObs noObs []) (agedKey 5)).txFc =
  false :=
  ⟨by decide +kernel, sendsAlone_of (by decide +kernel), by decide +kernel⟩

theorem witness_aloneKeyGone :
    (agedKey 274877906944).pwr.inReset = false ∧
    SendsAlone (agedKey 274877906944) Path.a ∧
    (agedKey 274877906944).mst.queue = [] ∧
    (agedKey 274877906944).ctl.restarts = [] ∧
    anyKey ((agedKey 274877906944).cry Path.a).txKeys.tx = true ∧
    2 ^ 38 ≤ ((agedKey 274877906944).cry Path.a).txAge :=
  ⟨by decide +kernel, sendsAlone_of (by decide +kernel), by decide +kernel⟩

theorem witness_aloneMapsFull :
    (mapping 5120).pwr.inReset = false ∧
    SendsAlone (mapping 5120) Path.a ∧
    (mapping 5120).mst.queue = [] ∧
    (mapping 5120).ctl.restarts = [] ∧
    (mapping 5120).contsOf Path.a = [0] ∧
    (mapping 5120).contsOf (otherPath Path.a) = [] ∧
    0 < 256 ∧
    0 < ((mapping 5120).txSlots Path.a 0).length ∧
    (mapping 5120).encrypted Path.a = false ∧
    (mapping 5120).client Path.a 0 = Client.ether 0 ∧
    (mapping 5120).qualifies Path.a 0 = true ∧
    flagOf ((mapping 5120).regI Reg.CNT_C_CTRL (contKey Path.a 0)) 7 = false ∧
    ((mapping 5120).cont Path.a 0).qual = true ∧
    80 * ((mapping 5120).txSlots Path.a 0).length - sMax ((mapping 5120).txSlots Path.a 0).length ≤
  List.length ((mapping 5120).cont Path.a 0).buf / 8 ∧
    List.length ((mapping 5120).cont Path.a 0).buf ≤ 1280 * ((mapping 5120).txSlots Path.a 0).length :=
  ⟨by decide +kernel, sendsAlone_of (by decide +kernel), by decide +kernel⟩

theorem witness_aloneMapsFew :
    (mapping 2544).pwr.inReset = false ∧
    SendsAlone (mapping 2544) Path.a ∧
    (mapping 2544).mst.queue = [] ∧
    (mapping 2544).ctl.restarts = [] ∧
    (mapping 2544).contsOf Path.a = [0] ∧
    (mapping 2544).contsOf (otherPath Path.a) = [] ∧
    0 < 256 ∧
    0 < ((mapping 2544).txSlots Path.a 0).length ∧
    (mapping 2544).encrypted Path.a = false ∧
    (mapping 2544).client Path.a 0 = Client.ether 0 ∧
    (mapping 2544).qualifies Path.a 0 = true ∧
    flagOf ((mapping 2544).regI Reg.CNT_C_CTRL (contKey Path.a 0)) 7 = false ∧
    ((mapping 2544).cont Path.a 0).qual = true ∧
    80 * ((mapping 2544).txSlots Path.a 0).length - sMax ((mapping 2544).txSlots Path.a 0).length ≤
  List.length ((mapping 2544).cont Path.a 0).buf / 8 ∧
    List.length ((mapping 2544).cont Path.a 0).buf ≤ 1280 * ((mapping 2544).txSlots Path.a 0).length :=
  ⟨by decide +kernel, sendsAlone_of (by decide +kernel), by decide +kernel⟩

theorem witness_aloneCiphers :
    (agedKey 5).pwr.inReset = false ∧
    SendsAlone (agedKey 5) Path.a ∧
    (agedKey 5).mst.queue = [] ∧
    (agedKey 5).ctl.restarts = [] ∧
    (agedKey 5).contsOf Path.a = [0] ∧
    (agedKey 5).contsOf (otherPath Path.a) = [] ∧
    0 < 256 ∧
    0 < ((agedKey 5).txSlots Path.a 0).length ∧
    (agedKey 5).encrypted Path.a = true ∧
    (agedKey 5).qualifies Path.a 0 = false ∧
    (agedKey 5).txKey Path.a 0 = some (List.replicate 36 1) ∧
    ((agedKey 5).cry Path.a).txAge < 2 ^ 38 ∧
    wrapPassed ((agedKey 5).cry Path.a).txLast (nextOf (Instr.frameBoundary noObs noObs []) (agedKey 5)).txFc =
  false ∧
    (nextOf (Instr.frameBoundary noObs noObs []) (agedKey 5)).txFc % 16 ≠ 0 :=
  ⟨by decide +kernel, sendsAlone_of (by decide +kernel), by decide +kernel⟩

theorem witness_aloneReceives :
    lockedRx.pwr.inReset = false ∧
    SendsAlone lockedRx Path.a ∧
    lockedRx.mst.queue = [] ∧
    lockedRx.ctl.restarts = [] ∧
    (match Path.a with
    | Path.a => obsOf 200 100
    | Path.b => noObs).codes =
  [] ∧
    lockedRx.rxdOn Path.a = true ∧
    lockedRx.rxEn Path.a = true ∧
    (lockedRx.path Path.a).rxd.acq = 6 ∧
    (lockedRx.path Path.a).rxd.restart = false ∧
    (match Path.a with
      | Path.a => obsOf 200 100
      | Path.b => noObs).adcRms.length =
  4 ∧
    (∀ (x : Nat),
  x ∈
      (match Path.a with
        | Path.a => obsOf 200 100
        | Path.b => noObs).adcRms →
    x ≤ 65535) :=
  ⟨by decide +kernel, sendsAlone_of (by decide +kernel), by decide +kernel⟩

theorem witness_aloneMissed :
    lockedRx.pwr.inReset = false ∧
    SendsAlone lockedRx Path.a ∧
    lockedRx.mst.queue = [] ∧
    lockedRx.ctl.restarts = [] ∧
    (match Path.a with
    | Path.a => obsOf 0 0
    | Path.b => noObs).codes =
  [] ∧
    lockedRx.rxdOn Path.a = true ∧
    lockedRx.rxEn Path.a = true ∧
    (lockedRx.path Path.a).rxd.acq = 6 ∧
    (lockedRx.path Path.a).rxd.restart = false ∧
    (match Path.a with
      | Path.a => obsOf 0 0
      | Path.b => noObs).adcRms.length =
  4 ∧
    (∀ (x : Nat),
  x ∈
      (match Path.a with
        | Path.a => obsOf 0 0
        | Path.b => noObs).adcRms →
    x ≤ 65535) :=
  ⟨by decide +kernel, sendsAlone_of (by decide +kernel), by decide +kernel⟩

theorem witness_aloneAnnounces :
    (aloneWith (some 9)).pwr.inReset = false ∧
    SendsAlone (aloneWith (some 9)) Path.a ∧
    (aloneWith (some 9)).mst.queue = [coefEntry (some 9)] ∧
    (aloneWith (some 9)).ctl.restarts = [] ∧
    ((coefEntry (some 9)).part (otherPath Path.a)).inScope = false ∧
    (coefEntry (some 9)).deviceDone = true ∧
    (coefEntry (some 9)).withdrawn = false ∧
    ((coefEntry (some 9)).part Path.a).inScope = true ∧
    ((coefEntry (some 9)).part Path.a).done = false ∧
    ((coefEntry (some 9)).part Path.a).kinds = 16#7 ∧
    (coefEntry (some 9)).handle < 64 ∧
    ((coefEntry (some 9)).part Path.a).target = some 9 ∧
    frameLe 9 (((aloneWith (some 9)).txFc + 1) % 2 ^ 48) = false :=
  ⟨by decide +kernel, sendsAlone_of (by decide +kernel), by decide +kernel⟩

theorem witness_aloneFixes :
    (aloneWith none).pwr.inReset = false ∧
    SendsAlone (aloneWith none) Path.a ∧
    (aloneWith none).mst.queue = [coefEntry none] ∧
    (aloneWith none).ctl.restarts = [] ∧
    ((coefEntry none).part (otherPath Path.a)).inScope = false ∧
    (coefEntry none).deviceDone = true ∧
    (coefEntry none).withdrawn = false ∧
    ((coefEntry none).part Path.a).inScope = true ∧
    ((coefEntry none).part Path.a).done = false ∧
    ((coefEntry none).part Path.a).kinds = 16#7 ∧
    (coefEntry none).handle < 64 ∧
    ((coefEntry none).part Path.a).target = none ∧
    (coefEntry none).time ≤ (aloneWith none).now + 2097152 :=
  ⟨by decide +kernel, sendsAlone_of (by decide +kernel), by decide +kernel⟩

theorem witness_aloneRestarts :
    restartingTx.pwr.inReset = false ∧
    SendsAlone restartingTx Path.a ∧
    restartingTx.mst.queue = [] ∧
    restartingTx.ctl.restarts = [8 * pathNum Path.a + 3] :=
  ⟨by decide +kernel, sendsAlone_of (by decide +kernel), by decide +kernel⟩

theorem witness_aloneCodes :
    lockedRx.pwr.inReset = false ∧
    SendsAlone lockedRx Path.a ∧
    lockedRx.mst.queue = [] ∧
    lockedRx.ctl.restarts = [] ∧
    (match Path.a with
    | Path.a =>
      let __src := noObs;
      FrameObs.mk __src.adcClip __src.adcRms __src.corr __src.position __src.sweep __src.freqStep __src.resid
        __src.clk __src.slips __src.pilots __src.need [[1], [2], [3], [4]]
    | Path.b => noObs).codes ≠
  [] ∧
    lockedRx.rxdOn Path.a = true ∧
    lockedRx.rxEn Path.a = true ∧
    (lockedRx.path Path.a).rxd.acq = 6 ∧
    (lockedRx.path Path.a).rxd.restart = false ∧
    lockedRx.pflag Path.a Reg.PA_RXD_CTRL 2 = true ∧
    ((nextOf
            (Instr.frameBoundary
              (let __src := noObs;
              FrameObs.mk __src.adcClip __src.adcRms __src.corr __src.position __src.sweep __src.freqStep
                __src.resid __src.clk __src.slips __src.pilots __src.need [[1], [2], [3], [4]])
              noObs [])
            lockedRx).path
        Path.a).rxd.acq =
  6 :=
  ⟨by decide +kernel, sendsAlone_of (by decide +kernel), by decide +kernel⟩

theorem witness_lossMarker :
    (timed TimeState.locked).pwr.inReset = false ∧
    Instr.timeMarkerMissing ∈ [Instr.timeMarkerMissing, Instr.timeMessageAbsent, Instr.holdoverLimit] :=
  by decide +kernel

theorem witness_lossLimit :
    holding.pwr.inReset = false ∧
    Instr.holdoverLimit ∈ [Instr.timeMarkerMissing, Instr.timeMessageAbsent, Instr.holdoverLimit] :=
  by decide +kernel

theorem witness_lostApplies :
    lostDue.pwr.inReset = false ∧
    lostDue.mst.time = TimeState.lost ∧
    lostDue.mst.queue = [coefDue] ∧
    coefDue.withdrawn = false ∧
    lostDue.rte.amd = none ∧
    lostDue.pathUp Path.a = true ∧
    (coefDue.part Path.a).inScope = true ∧
    (coefDue.part Path.a).done = false ∧
    (coefDue.part Path.a).target = some ((lostDue.txFc + 1) % 2 ^ 48) :=
  by decide +kernel

theorem witness_lostShadow :
    heldShadow.pwr.inReset = false ∧
    heldShadow.mst.time = TimeState.holdover ∧
    heldShadow.mst.queue = [shadowEntry] ∧
    shadowEntry.withdrawn = false ∧
    heldShadow.rte.amd = none ∧
    heldShadow.pathUp Path.a = true ∧
    (shadowEntry.part Path.a).inScope = true ∧
    (shadowEntry.part Path.a).done = false ∧
    (shadowEntry.part Path.a).target = some ((heldShadow.txFc + 1) % 2 ^ 48) :=
  by decide +kernel

theorem witness_lostDevice :
    lostDevice.pwr.inReset = false ∧
    lostDevice.mst.time = TimeState.lost ∧
    lostDevice.mst.queue = [queued 4 1 0 64] ∧
    (queued 4 1 0 64).withdrawn = false ∧
    lostDevice.rte.amd = none ∧
    (queued 4 1 0 64).deviceDone = false ∧
    (queued 4 1 0 64).devShadow = true ∧
    (queued 4 1 0 64).partA.inScope = false ∧
    (queued 4 1 0 64).partB.inScope = false ∧
    (queued 4 1 0 64).time * 4294967296 ≤ lostDevice.nowFine - lostDevice.phase + lostDevice.frameAdvance :=
  by decide +kernel

theorem witness_txEnable :
    live.pwr.lineRef = true ∧
    live.pwr.queue = [] ∧
    Accepted live Session.pcie (pathReg Path.a Reg.PA_CNV_CTRL)
  (live.withField (pathReg Path.a Reg.PA_CNV_CTRL) 0 0 1) ∧
    live.txEn Path.a = false ∧
    (live.path Path.a).cnv.rx ≠ SideState.lineOff ∧
    live.alloc + (live.txMode Path.a).carrierCost ≤ live.effCeiling :=
  ⟨by decide +kernel, by decide +kernel, accepted_of (by decide +kernel), by decide +kernel⟩

theorem witness_rxEnable :
    live.pwr.lineRef = true ∧
    live.pwr.queue = [] ∧
    Accepted live Session.pcie (pathReg Path.b Reg.PA_CNV_CTRL)
  (live.withField (pathReg Path.b Reg.PA_CNV_CTRL) 1 1 1) ∧
    live.rxEn Path.b = false ∧
    (live.path Path.b).cnv.tx ≠ SideState.lineOff ∧
    live.alloc + (live.rxModeOf Path.b).receiverCost ≤ live.effCeiling :=
  ⟨by decide +kernel, by decide +kernel, accepted_of (by decide +kernel), by decide +kernel⟩

theorem witness_mute :
    live.pwr.lineRef = true ∧
    live.pwr.queue = [] ∧
    Accepted live Session.maint (pathReg Path.b Reg.PA_CNV_CTRL)
  (live.withField (pathReg Path.b Reg.PA_CNV_CTRL) 2 2 (b2n true)) ∧
    (live.path Path.b).cnv.rx ≠ SideState.lineOff ∧
    (live.path Path.b).cnv.tx ≠ SideState.lineOff :=
  ⟨by decide +kernel, by decide +kernel, accepted_of (by decide +kernel), by decide +kernel⟩

theorem witness_txDenied :
    Accepted (live.setReg Reg.PWR_CEILING 60) Session.pcie (pathReg Path.a Reg.PA_CNV_CTRL)
  ((live.setReg Reg.PWR_CEILING 60).withField (pathReg Path.a Reg.PA_CNV_CTRL) 0 0 1) ∧
    (live.setReg Reg.PWR_CEILING 60).pathUp Path.a = true ∧
    (live.setReg Reg.PWR_CEILING 60).txEn Path.a = false ∧
    ((live.setReg Reg.PWR_CEILING 60).path Path.a).cnv.rx ≠ SideState.lineOff ∧
    (live.setReg Reg.PWR_CEILING 60).effCeiling <
  (live.setReg Reg.PWR_CEILING 60).base + ((live.setReg Reg.PWR_CEILING 60).txMode Path.a).carrierCost :=
  ⟨accepted_of (by decide +kernel), by decide +kernel⟩

theorem witness_dacReady :
    (sideStarting true).pwr.inReset = false ∧
    ((sideStarting true).path Path.a).cnv.tx = SideState.starting ∧
    (sideStarting true).txEn Path.a = true :=
  by decide +kernel

theorem witness_adcReady :
    (sideStarting false).pwr.inReset = false ∧
    ((sideStarting false).path Path.a).cnv.rx = SideState.starting ∧
    (sideStarting false).rxEn Path.a = true ∧
    (sideStarting false).pathUp Path.a = true ∧
    (∀ (n : Nat), n < 4 → ∀ (i : Nat), i < 65 → (corrOf ((needs.getD n []).getD i (0, 0, 0))).faulty = false) :=
  by decide +kernel

theorem witness_relief :
    (rotating false).pwr.inReset = false ∧
    (1#2).toNat = 1 ∧
    (rotating false).rotating Path.a 1 = true ∧
    ((rotating false).path Path.a).cnv.adc.length = 4 ∧
    ((rotating false).adc Path.a 1).reliefIndex = some 64 ∧
    (corrOf need).faulty = false :=
  by decide +kernel

theorem witness_reliefFaulty :
    (rotating false).pwr.inReset = false ∧
    (1#2).toNat = 1 ∧
    (rotating false).rotating Path.a 1 = true ∧
    ((rotating false).path Path.a).cnv.adc.length = 4 ∧
    ((rotating false).adc Path.a 1).reliefIndex = some 64 ∧
    (corrOf faultyNeed).faulty = true ∧
    (rotating false).pathUp Path.a = true :=
  by decide +kernel

theorem witness_swap :
    (rotating true).pwr.inReset = false ∧
    (1#2).toNat = 1 ∧
    (rotating true).rotating Path.a 1 = true ∧
    ((rotating true).path Path.a).cnv.adc.length = 4 ∧
    ((rotating true).adc Path.a 1).reliefIndex = some 64 ∧
    ((rotating true).adc Path.a 1).due = true ∧
    ((rotating true).adc Path.a 1).inPosition ((rotating true).adc Path.a 1).target = some 63 :=
  by decide +kernel

theorem witness_calibrate :
    (rotating false).pwr.inReset = false ∧
    (1#2).toNat = 1 ∧
    (rotating false).rotating Path.a 1 = true ∧
    ((rotating false).path Path.a).cnv.adc.length = 4 ∧
    ((rotating false).adc Path.a 1).reliefIndex = some 64 ∧
    narrow.min ≤ narrow.max :=
  by decide +kernel

theorem witness_laserGo :
    Accepted (laserOn none) Session.pcie (pathReg Path.a Reg.PA_CNV_LASER_CMD)
  (BitVec.ofNat 32 (2 ^ 31 + b2n true * 2 ^ 24 + (98#8).toNat * 2 ^ 16 + (5#16).toNat)) ∧
    laserAddrs.contains (98#8).toNat = true ∧
    ((laserOn none).laser Path.a).enabled = true ∧
    ((laserOn none).laser Path.a).txn = none ∧
    ((laserOn none).laser Path.a).srqWait = false :=
  ⟨accepted_of (by decide +kernel), by decide +kernel⟩

theorem witness_laserBad :
    Accepted (laserOn none) Session.pcie (pathReg Path.a Reg.PA_CNV_LASER_CMD)
  (BitVec.ofNat 32 (2 ^ 31 + b2n true * 2 ^ 24 + (255#8).toNat * 2 ^ 16 + (5#16).toNat)) ∧
    laserAddrs.contains (255#8).toNat = false :=
  ⟨accepted_of (by decide +kernel), by decide +kernel⟩

theorem witness_laserRequest :
    (laserOn none).pwr.inReset = false ∧
    ((laserOn none).laser Path.a).enabled = true ∧
    ((laserOn none).laser Path.a).txn = none :=
  by decide +kernel

theorem witness_laserRequestWaits :
    (laserOn (some LaserTxn.poll)).pwr.inReset = false ∧
    ((laserOn (some LaserTxn.poll)).laser Path.a).enabled = true ∧
    ((laserOn (some LaserTxn.poll)).laser Path.a).txn = some LaserTxn.poll :=
  by decide +kernel

theorem witness_laserPoll :
    (laserOn none).pwr.inReset = false ∧
    ((laserOn none).laser Path.a).enabled = true ∧
    ((laserOn none).laser Path.a).txn = none ∧
    ((laserOn none).laser Path.a).srqWait = false ∧
    ((laserOn none).laser Path.a).hostCmd = none ∧
    (laserOn none).pflag Path.a Reg.PA_CNV_LASER_CFG 1 = true :=
  by decide +kernel

theorem witness_laserRst :
    Accepted (laserOn none) Session.pcie (pathReg Path.a Reg.PA_CNV_LASER_CFG)
  ((laserOn none).withField (pathReg Path.a Reg.PA_CNV_LASER_CFG) 3 3 1) :=
  accepted_of (by decide +kernel)

theorem witness_laserRstEnd :
    (laserOn none).pwr.inReset = false :=
  by decide +kernel

theorem witness_portOn :
    Accepted live Session.pcie (pathReg Path.a Reg.PA_CNV_LASER_CFG)
  (live.withField (pathReg Path.a Reg.PA_CNV_LASER_CFG) 0 0 (b2n true)) ∧
    (live.laser Path.a).txn = none ∧
    (live.laser Path.a).srqWait = false ∧
    (live.laser Path.a).hostCmd = none ∧
    (live.laser Path.a).pollWait = false ∧
    live.pflag Path.a Reg.PA_CNV_LASER_CFG 0 = !true :=
  ⟨accepted_of (by decide +kernel), by decide +kernel⟩

theorem witness_portOff :
    Accepted (laserOn none) Session.pcie (pathReg Path.a Reg.PA_CNV_LASER_CFG)
  ((laserOn none).withField (pathReg Path.a Reg.PA_CNV_LASER_CFG) 0 0 (b2n false)) ∧
    ((laserOn none).laser Path.a).txn = none ∧
    ((laserOn none).laser Path.a).srqWait = false ∧
    ((laserOn none).laser Path.a).hostCmd = none ∧
    ((laserOn none).laser Path.a).pollWait = false ∧
    (laserOn none).pflag Path.a Reg.PA_CNV_LASER_CFG 0 = !false :=
  ⟨accepted_of (by decide +kernel), by decide +kernel⟩

theorem witness_laserCode :
    Accepted (laserOn none) Session.pcie (pathReg Path.a Reg.PA_CNV_LASER_FT) (BitVec.ofNat 32 (32769#16).toNat) :=
  accepted_of (by decide +kernel)

theorem witness_laserReply :
    (laserOn (some (LaserTxn.host true 48 1))).pwr.inReset = false ∧
    ((laserOn (some (LaserTxn.host true 48 1))).laser Path.a).srqWait = false ∧
    ((laserOn (some (LaserTxn.host true 48 1))).laser Path.a).hostCmd = none ∧
    ((laserOn (some (LaserTxn.host true 48 1))).laser Path.a).pollWait = false ∧
    ((laserOn (some (LaserTxn.host true 48 1))).laser Path.a).txn = some (LaserTxn.host true 48 1) ∧
    (true = true ∨ 48 ≠ 32 ∨ replyOk reply = false ∨ (replyData reply).testBit 13 = false) :=
  by decide +kernel

theorem witness_laserFatal :
    (laserOn (some (LaserTxn.host false 32 0))).pwr.inReset = false ∧
    ((laserOn (some (LaserTxn.host false 32 0))).laser Path.a).srqWait = false ∧
    ((laserOn (some (LaserTxn.host false 32 0))).laser Path.a).hostCmd = none ∧
    ((laserOn (some (LaserTxn.host false 32 0))).laser Path.a).pollWait = false ∧
    ((laserOn (some (LaserTxn.host false 32 0))).laser Path.a).txn = some (LaserTxn.host false 32 0) ∧
    false = false ∧
    32 = 32 ∧
    replyOk fatalReply = true ∧
    (replyData fatalReply).testBit 13 = true :=
  by decide +kernel

theorem witness_laserNone :
    (laserOn (some (LaserTxn.host false 48 0))).pwr.inReset = false ∧
    ((laserOn (some (LaserTxn.host false 48 0))).laser Path.a).srqWait = false ∧
    ((laserOn (some (LaserTxn.host false 48 0))).laser Path.a).hostCmd = none ∧
    ((laserOn (some (LaserTxn.host false 48 0))).laser Path.a).pollWait = false ∧
    ((laserOn (some (LaserTxn.host false 48 0))).laser Path.a).txn = some (LaserTxn.host false 48 0) :=
  by decide +kernel

theorem witness_laserStatus :
    (laserOn (some LaserTxn.srq)).pwr.inReset = false ∧
    ((laserOn (some LaserTxn.srq)).laser Path.a).srqWait = false ∧
    ((laserOn (some LaserTxn.srq)).laser Path.a).hostCmd = none ∧
    ((laserOn (some LaserTxn.srq)).laser Path.a).pollWait = false ∧
    ((laserOn (some LaserTxn.srq)).laser Path.a).txn = some LaserTxn.srq ∧
    replyOk reply = true ∧
    (replyData reply).testBit 13 = false :=
  by decide +kernel

theorem witness_laserGarbled :
    (laserOn (some LaserTxn.poll)).pwr.inReset = false ∧
    ((laserOn (some LaserTxn.poll)).laser Path.a).srqWait = false ∧
    ((laserOn (some LaserTxn.poll)).laser Path.a).hostCmd = none ∧
    ((laserOn (some LaserTxn.poll)).laser Path.a).pollWait = false ∧
    ((laserOn (some LaserTxn.poll)).laser Path.a).txn = some LaserTxn.poll ∧
    replyOk badReply = false :=
  by decide +kernel

theorem witness_laserSilent :
    (laserOn (some LaserTxn.poll)).pwr.inReset = false ∧
    ((laserOn (some LaserTxn.poll)).laser Path.a).srqWait = false ∧
    ((laserOn (some LaserTxn.poll)).laser Path.a).hostCmd = none ∧
    ((laserOn (some LaserTxn.poll)).laser Path.a).pollWait = false ∧
    ((laserOn (some LaserTxn.poll)).laser Path.a).txn = some LaserTxn.poll :=
  by decide +kernel

theorem witness_muteRing :
    (live.setReg Reg.CTL_RING_MGMT 3).pwr.lineRef = true ∧
    (live.setReg Reg.CTL_RING_MGMT 3).pwr.queue = [] ∧
    Accepted (live.setReg Reg.CTL_RING_MGMT 3) (Session.ring 9) (pathReg Path.b Reg.PA_CNV_CTRL)
  ((live.setReg Reg.CTL_RING_MGMT 3).withField (pathReg Path.b Reg.PA_CNV_CTRL) 2 2 (b2n true)) ∧
    ((live.setReg Reg.CTL_RING_MGMT 3).path Path.b).cnv.rx ≠ SideState.lineOff ∧
    ((live.setReg Reg.CTL_RING_MGMT 3).path Path.b).cnv.tx ≠ SideState.lineOff :=
  ⟨by decide +kernel, by decide +kernel, accepted_of (by decide +kernel), by decide +kernel⟩

theorem witness_laserFatalWrite :
    (laserOn (some (LaserTxn.host true 32 0))).pwr.inReset = false ∧
    ((laserOn (some (LaserTxn.host true 32 0))).laser Path.a).srqWait = false ∧
    ((laserOn (some (LaserTxn.host true 32 0))).laser Path.a).hostCmd = none ∧
    ((laserOn (some (LaserTxn.host true 32 0))).laser Path.a).pollWait = false ∧
    ((laserOn (some (LaserTxn.host true 32 0))).laser Path.a).txn = some (LaserTxn.host true 32 0) ∧
    (true = true ∨ 32 ≠ 32 ∨ replyOk fatalReply = false ∨ (replyData fatalReply).testBit 13 = false) :=
  by decide +kernel

theorem witness_rxdRun :
    Accepted live Session.pcie (pathReg Path.a Reg.PA_RXD_CTRL)
  (live.withField (pathReg Path.a Reg.PA_RXD_CTRL) 0 0 (b2n true)) :=
  accepted_of (by decide +kernel)

theorem witness_rxdRestart :
    Accepted live Session.pcie (pathReg Path.b Reg.PA_RXD_CTRL)
  (live.withField (pathReg Path.b Reg.PA_RXD_CTRL) 3 3 1) :=
  accepted_of (by decide +kernel)

theorem witness_txdRun :
    Accepted live Session.pcie (pathReg Path.a Reg.PA_TXD_CTRL)
  (live.withField (pathReg Path.a Reg.PA_TXD_CTRL) 0 0 (b2n true)) :=
  accepted_of (by decide +kernel)

theorem witness_coefGen :
    Accepted live Session.pcie (pathReg Path.a Reg.PA_TXD_COEF_GEN)
  (live.withField (pathReg Path.a Reg.PA_TXD_COEF_GEN) 15 0 (7#16).toNat) ∧
    7#16 ≠ (live.mstPath Path.a).tx.coef :=
  ⟨accepted_of (by decide +kernel), by decide +kernel⟩

theorem witness_coefGenBack :
    Accepted coefStaged Session.pcie (pathReg Path.a Reg.PA_TXD_COEF_GEN)
  (coefStaged.withField (pathReg Path.a Reg.PA_TXD_COEF_GEN) 15 0 (0#16).toNat) ∧
    0#16 = (coefStaged.mstPath Path.a).tx.coef :=
  ⟨accepted_of (by decide +kernel), by decide +kernel⟩

theorem witness_acqS1 :
    (acquire 1).pwr.inReset = false ∧
    ((acquire 1).path Path.a).rxd.length ≤ ((acquire 1).path Path.a).rxd.frames ∧
    ((acquire 1).path Path.a).rxd.acq = 1 ∧
    ((acquire 1).path Path.a).rxd.sigAbsent = false :=
  by decide +kernel

theorem witness_acqS2 :
    (acquire 2).pwr.inReset = false ∧
    ((acquire 2).path Path.a).rxd.length ≤ ((acquire 2).path Path.a).rxd.frames ∧
    (((acquire 2).path Path.a).rxd.acq = 2 ∨
  ((acquire 2).path Path.a).rxd.acq = 3 ∧
    ∀ (d : Int) (c n : Nat),
      ((acquire 2).path Path.a).rxd.best = some (d, c, n) → c < (acquire 2).pfld Path.a Reg.PA_RXD_THR 31 24) :=
  ⟨by decide +kernel, by decide +kernel, .inl (by decide +kernel)⟩

theorem witness_acqS3 :
    acquired.pwr.inReset = false ∧
    (acquired.path Path.a).rxd.length ≤ (acquired.path Path.a).rxd.frames ∧
    (acquired.path Path.a).rxd.acq = 3 ∧
    (acquired.path Path.a).rxd.best = some (-100, 200, 7) ∧
    acquired.pfld Path.a Reg.PA_RXD_THR 31 24 ≤ 200 :=
  by decide +kernel

theorem witness_acqS3None :
    (acquire 3).pwr.inReset = false ∧
    ((acquire 3).path Path.a).rxd.length ≤ ((acquire 3).path Path.a).rxd.frames ∧
    (((acquire 3).path Path.a).rxd.acq = 2 ∨
  ((acquire 3).path Path.a).rxd.acq = 3 ∧
    ∀ (d : Int) (c n : Nat),
      ((acquire 3).path Path.a).rxd.best = some (d, c, n) → c < (acquire 3).pfld Path.a Reg.PA_RXD_THR 31 24) :=
  ⟨by decide +kernel, by decide +kernel, .inr ⟨by decide +kernel, fun _ _ _ h => nomatch (show (none : Option (Int × Nat × Nat)) = some _ from h)⟩⟩

theorem witness_acqS4 :
    (acquire 4).pwr.inReset = false ∧
    ((acquire 4).path Path.a).rxd.length ≤ ((acquire 4).path Path.a).rxd.frames ∧
    ((acquire 4).path Path.a).rxd.acq = 4 :=
  by decide +kernel

theorem witness_acqS5 :
    (acquire 5).pwr.inReset = false ∧
    ((acquire 5).path Path.a).rxd.length ≤ ((acquire 5).path Path.a).rxd.frames ∧
    ((acquire 5).path Path.a).rxd.acq = 5 ∧
    2 ≤ ((acquire 5).path Path.a).rxd.confirms ∧
    (acquire 5).pathUp Path.a = true :=
  by decide +kernel

theorem witness_sweep :
    (((acquire 3).path Path.a).rxd.sweep [(40, 5), (60, 6)]).best = some (-100, 60, 6) :=
  by decide +kernel

theorem witness_acqLate :
    (acquire 5).pwr.inReset = false ∧
    (acquire 5).pathUp Path.a = true ∧
    1 ≤ ((acquire 5).path Path.a).rxd.acq ∧
    ((acquire 5).path Path.a).rxd.acq ≤ 5 :=
  by decide +kernel

theorem witness_acqDead :
    dead.pwr.inReset = false ∧
    dead.pathUp Path.a = true ∧
    (dead.path Path.a).rxd.acq = 6 ∧
    (dead.path Path.a).rxd.searchAt = none ∧
    64 ≤ (dead.path Path.a).rxd.deadRun :=
  by decide +kernel

theorem witness_acqSearch :
    searching.pwr.inReset = false ∧
    searching.pathUp Path.a = true ∧
    (searching.path Path.a).rxd.acq = 6 ∧
    (searching.path Path.a).rxd.searchAt = some 1 ∧
    16 ≤ (searching.path Path.a).rxd.searchFrames ∧
    (searching.path Path.a).rxd.searchHit = false ∧
    searching.rxStagedGen Path.a 2 = none ∧
    searching.rxStagedGen Path.a 5 = none :=
  by decide +kernel

theorem witness_loKept :
    (live.updRxd Path.b fun r =>
        RxdState.mk 6 r.frames r.length r.cands r.candPos r.best r.position r.firstCand r.cd r.confirms r.cAcq
          r.cNow r.acqCount r.restarts r.sigAbsent r.searchAt r.searchFrames r.searchHit r.lowRun r.deadRun
          r.restart r.gain r.gainHist r.freq r.df r.fm 5 1024 r.clk r.chain r.snr r.lockedAll r.missed r.slips
          r.stats).pwr.inReset =
  false ∧
    ((live.updRxd Path.b fun r =>
            RxdState.mk 6 r.frames r.length r.cands r.candPos r.best r.position r.firstCand r.cd r.confirms
              r.cAcq r.cNow r.acqCount r.restarts r.sigAbsent r.searchAt r.searchFrames r.searchHit r.lowRun
              r.deadRun r.restart r.gain r.gainHist r.freq r.df r.fm 5 1024 r.clk r.chain r.snr r.lockedAll
              r.missed r.slips r.stats).path
        Path.b).rxd.acq =
  6 ∧
    1024 ≤
  ((live.updRxd Path.b fun r =>
            RxdState.mk 6 r.frames r.length r.cands r.candPos r.best r.position r.firstCand r.cd r.confirms
              r.cAcq r.cNow r.acqCount r.restarts r.sigAbsent r.searchAt r.searchFrames r.searchHit r.lowRun
              r.deadRun r.restart r.gain r.gainHist r.freq r.df r.fm 5 1024 r.clk r.chain r.snr r.lockedAll
              r.missed r.slips r.stats).path
        Path.b).rxd.fmCount ∧
    (live.updRxd Path.b fun r =>
        RxdState.mk 6 r.frames r.length r.cands r.candPos r.best r.position r.firstCand r.cd r.confirms r.cAcq
          r.cNow r.acqCount r.restarts r.sigAbsent r.searchAt r.searchFrames r.searchHit r.lowRun r.deadRun
          r.restart r.gain r.gainHist r.freq r.df r.fm 5 1024 r.clk r.chain r.snr r.lockedAll r.missed r.slips
          r.stats).pflag
    Path.b Reg.PA_RXD_CTRL 1 =
  false :=
  by decide +kernel

theorem witness_loMoves :
    tracking.pwr.inReset = false ∧
    (tracking.path Path.a).rxd.acq = 6 ∧
    1024 ≤ (tracking.path Path.a).rxd.fmCount ∧
    tracking.pflag Path.a Reg.PA_RXD_CTRL 1 = true ∧
    (tracking.rail (loopId Path.a 2 0)).freeze = false :=
  by decide +kernel

theorem witness_levKeep :
    (levelling false flatSnr).pwr.inReset = false ∧
    (levelling false flatSnr).pflag Path.a Reg.PA_TRK_LEV_CTRL 0 = true ∧
    16 * (levelling false flatSnr).pfld Path.a Reg.PA_TRK_LEV_CTRL 31 16 ≤
  ((levelling false flatSnr).trk Path.a).cycle ∧
    ((levelling false flatSnr).trk Path.a).discard = false ∧
    (levelling false flatSnr).locked Path.a = true ∧
    ((levelling false flatSnr).lfr Path.a).rep &&& 7#8 = 0 ∧
    ((levelling false flatSnr).trk Path.a).farFlags ≠ none ∧
    0 < ((levelling false flatSnr).path Path.a).rxd.snr.cycleN ∧
    (((levelling false flatSnr).trk Path.a).reqNum = 0 ∨ ((levelling false flatSnr).trk Path.a).reqDone = true) ∧
    levelRequest ((levelling false flatSnr).rxModeOf Path.a)
    ((levelling false flatSnr).pfld Path.a Reg.PA_TRK_LEV_CTRL 7 4)
    ((levelling false flatSnr).pfld Path.a Reg.PA_TRK_LEV_CTRL 15 8)
    ((levelling false flatSnr).trk Path.a).farProf ((levelling false flatSnr).path Path.a).rxd.snr.cycle
    ((levelling false flatSnr).path Path.a).rxd.snr.cycleN =
  ((levelling false flatSnr).trk Path.a).farProf :=
  by decide +kernel

theorem witness_levAsk :
    (levelling false steepSnr).pwr.inReset = false ∧
    (levelling false steepSnr).pflag Path.a Reg.PA_TRK_LEV_CTRL 0 = true ∧
    16 * (levelling false steepSnr).pfld Path.a Reg.PA_TRK_LEV_CTRL 31 16 ≤
  ((levelling false steepSnr).trk Path.a).cycle ∧
    ((levelling false steepSnr).trk Path.a).discard = false ∧
    (levelling false steepSnr).locked Path.a = true ∧
    ((levelling false steepSnr).lfr Path.a).rep &&& 7#8 = 0 ∧
    ((levelling false steepSnr).trk Path.a).farFlags ≠ none ∧
    0 < ((levelling false steepSnr).path Path.a).rxd.snr.cycleN ∧
    (((levelling false steepSnr).trk Path.a).reqNum = 0 ∨ ((levelling false steepSnr).trk Path.a).reqDone = true) ∧
    levelRequest ((levelling false steepSnr).rxModeOf Path.a)
    ((levelling false steepSnr).pfld Path.a Reg.PA_TRK_LEV_CTRL 7 4)
    ((levelling false steepSnr).pfld Path.a Reg.PA_TRK_LEV_CTRL 15 8)
    ((levelling false steepSnr).trk Path.a).farProf ((levelling false steepSnr).path Path.a).rxd.snr.cycle
    ((levelling false steepSnr).path Path.a).rxd.snr.cycleN ≠
  ((levelling false steepSnr).trk Path.a).farProf :=
  by decide +kernel

theorem witness_levWaits :
    (levelling true steepSnr).pwr.inReset = false ∧
    (levelling true steepSnr).pflag Path.a Reg.PA_TRK_LEV_CTRL 0 = true ∧
    16 * (levelling true steepSnr).pfld Path.a Reg.PA_TRK_LEV_CTRL 31 16 ≤
  ((levelling true steepSnr).trk Path.a).cycle ∧
    (((levelling true steepSnr).trk Path.a).discard = true ∨
  (levelling true steepSnr).locked Path.a = false ∨
    ((levelling true steepSnr).lfr Path.a).rep &&& 7#8 ≠ 0 ∨
      ((levelling true steepSnr).trk Path.a).farFlags = none ∨
        ((levelling true steepSnr).path Path.a).rxd.snr.cycleN = 0 ∨
          ((levelling true steepSnr).trk Path.a).reqNum ≠ 0 ∧
    ((levelling true steepSnr).trk Path.a).reqDone = false) :=
  by decide +kernel

theorem witness_levOff :
    live.pwr.inReset = false ∧
    (live.pflag Path.a Reg.PA_TRK_LEV_CTRL 0 = false ∨
  (live.trk Path.a).cycle < 16 * live.pfld Path.a Reg.PA_TRK_LEV_CTRL 31 16) :=
  by decide +kernel

theorem witness_levDone :
    (levelling true flatSnr).pwr.inReset = false ∧
    9#16 ≠ 0 ∧
    (9#16).toNat = ((levelling true flatSnr).trk Path.a).reqNum ∧
    ((levelling true flatSnr).trk Path.a).reqDone = false ∧
    (2#8 = 1 ∨ 2#8 = 2) :=
  by decide +kernel

theorem witness_levRefused :
    (levelling true flatSnr).pwr.inReset = false ∧
    9#16 ≠ 0 ∧
    (9#16).toNat = ((levelling true flatSnr).trk Path.a).reqNum ∧
    ((levelling true flatSnr).trk Path.a).reqDone = false ∧
    3 ≤ (3#8).toNat :=
  by decide +kernel

theorem witness_levStray :
    (levelling true flatSnr).pwr.inReset = false ∧
    (8#16 = 0 ∨
  (8#16).toNat ≠ ((levelling true flatSnr).trk Path.a).reqNum ∨
    ((levelling true flatSnr).trk Path.a).reqDone = true ∨ 1#8 = 0) :=
  by decide +kernel

theorem witness_levSilent :
    (levelling true flatSnr).pwr.inReset = false ∧
    ((levelling true flatSnr).trk Path.a).reqNum ≠ 0 ∧
    ((levelling true flatSnr).trk Path.a).reqDone = false ∧
    4096 ≤ ((levelling true flatSnr).trk Path.a).reqAge :=
  by decide +kernel

theorem witness_levWaiting :
    live.pwr.inReset = false ∧
    ((live.trk Path.a).reqNum = 0 ∨ (live.trk Path.a).reqDone = true ∨ (live.trk Path.a).reqAge < 4096) :=
  by decide +kernel

theorem witness_ansStale :
    answering.pwr.inReset = false ∧
    5#16 ≠ 0 ∧
    (5#16).toNat ≠ (answering.trk Path.a).answered ∧
    (answering.lfr Path.a).quarantine = false ∧
    answering.pathUp Path.a = true ∧
    farRequest.length = 16 ∧
    (∀ (t : Nat), (answering.txMode Path.a).trackCount ≤ t → farRequest.getD t 0 = 0) ∧
    (∀ (t : Nat),
  t < (answering.txMode Path.a).trackCount →
    64 ≤ farRequest.getD t 0 ∧ farRequest.getD t 0 ≤ 179 ∧ (answering.rail (loopId Path.a 1 t)).freeze = false) ∧
    (answering.txMode Path.a).trackCount ≤ 16 ∧
    answering.pflag Path.a Reg.PA_TRK_LEV_CTRL 1 = true ∧
    answering.modePending Path.a = false ∧
    (answering.trk Path.a).change = none ∧
    1#16 ≠ (answering.mstPath Path.a).tx.track :=
  ⟨by decide +kernel, by decide +kernel, by decide +kernel, by decide +kernel, by decide +kernel, by decide +kernel, zeros_from (by decide +kernel), by decide +kernel⟩

theorem witness_ansTaken :
    answering.pwr.inReset = false ∧
    5#16 ≠ 0 ∧
    (5#16).toNat ≠ (answering.trk Path.a).answered ∧
    (answering.lfr Path.a).quarantine = false ∧
    answering.pathUp Path.a = true ∧
    farRequest.length = 16 ∧
    (∀ (t : Nat), (answering.txMode Path.a).trackCount ≤ t → farRequest.getD t 0 = 0) ∧
    (∀ (t : Nat),
  t < (answering.txMode Path.a).trackCount →
    64 ≤ farRequest.getD t 0 ∧ farRequest.getD t 0 ≤ 179 ∧ (answering.rail (loopId Path.a 1 t)).freeze = false) ∧
    (answering.txMode Path.a).trackCount ≤ 16 ∧
    answering.pflag Path.a Reg.PA_TRK_LEV_CTRL 1 = true ∧
    answering.modePending Path.a = false ∧
    (answering.trk Path.a).change = none ∧
    0#16 = (answering.mstPath Path.a).tx.track ∧
    (answering.txMode Path.a).feasible farRequest = true ∧
    (∀ (t : Nat),
  t < (answering.txMode Path.a).trackCount →
    (answering.rail (loopId Path.a 1 t)).min ≤ (↑(farRequest.getD t 0) : Int) ∧
    (↑(farRequest.getD t 0) : Int) ≤ (answering.rail (loopId Path.a 1 t)).max ∧
    (↑((answering.path Path.a).txd.prof.getD t 0) : Int) -
              (↑(answering.rail (loopId Path.a 1 t)).step : Int) ≤
            (↑(farRequest.getD t 0) : Int) ∧
    (↑(farRequest.getD t 0) : Int) ≤
            (↑((answering.path Path.a).txd.prof.getD t 0) : Int) +
              (↑(answering.rail (loopId Path.a 1 t)).step : Int)) ∧
    answering.judgeEntry
    (NewEntry.mk ((answering.now + 2621440) / 1000000000) ((answering.now + 2621440) % 1000000000) false
      (decide (pathNum Path.a = 0)) (decide (pathNum Path.a = 1)) 4 Owner.tracks 0 none) =
  0 :=
  ⟨by decide +kernel, by decide +kernel, by decide +kernel, by decide +kernel, by decide +kernel, by decide +kernel, zeros_from (by decide +kernel), by decide +kernel⟩

theorem witness_ansInfeasible :
    answering.pwr.inReset = false ∧
    5#16 ≠ 0 ∧
    (5#16).toNat ≠ (answering.trk Path.a).answered ∧
    (answering.lfr Path.a).quarantine = false ∧
    answering.pathUp Path.a = true ∧
    poorRequest.length = 16 ∧
    (∀ (t : Nat), (answering.txMode Path.a).trackCount ≤ t → poorRequest.getD t 0 = 0) ∧
    (∀ (t : Nat),
  t < (answering.txMode Path.a).trackCount →
    64 ≤ poorRequest.getD t 0 ∧ poorRequest.getD t 0 ≤ 179 ∧ (answering.rail (loopId Path.a 1 t)).freeze = false) ∧
    (answering.txMode Path.a).trackCount ≤ 16 ∧
    answering.pflag Path.a Reg.PA_TRK_LEV_CTRL 1 = true ∧
    answering.modePending Path.a = false ∧
    (answering.trk Path.a).change = none ∧
    0#16 = (answering.mstPath Path.a).tx.track ∧
    (answering.txMode Path.a).feasible poorRequest = false ∧
    (∀ (t : Nat),
  t < (answering.txMode Path.a).trackCount →
    (answering.rail (loopId Path.a 1 t)).min ≤ (↑(poorRequest.getD t 0) : Int) ∧
    (↑(poorRequest.getD t 0) : Int) ≤ (answering.rail (loopId Path.a 1 t)).max ∧
    (↑((answering.path Path.a).txd.prof.getD t 0) : Int) -
              (↑(answering.rail (loopId Path.a 1 t)).step : Int) ≤
            (↑(poorRequest.getD t 0) : Int) ∧
    (↑(poorRequest.getD t 0) : Int) ≤
            (↑((answering.path Path.a).txd.prof.getD t 0) : Int) +
              (↑(answering.rail (loopId Path.a 1 t)).step : Int)) :=
  ⟨by decide +kernel, by decide +kernel, by decide +kernel, by decide +kernel, by decide +kernel, by decide +kernel, zeros_from (by decide +kernel), by decide +kernel⟩

theorem witness_railA :
    (0#2 = 0 ∧
    Reg.PA_TRK_RAIL_CTRL = pathReg Path.a Reg.PA_TRK_RAIL_CTRL ∧
    4608 =
        (railPending (pathReg Path.a Reg.PA_TRK_RAIL_SEL) 4608 4608 (-5) 5).pfld Path.a Reg.PA_TRK_RAIL_SEL 15
          0 ∨
  0#2 = 1 ∧
    Reg.PA_TRK_RAIL_CTRL = pathReg Path.b Reg.PA_TRK_RAIL_CTRL ∧
    4608 =
          (railPending (pathReg Path.a Reg.PA_TRK_RAIL_SEL) 4608 4608 (-5) 5).pfld Path.b Reg.PA_TRK_RAIL_SEL 15
            0 ∨
    0#2 = 2 ∧
    Reg.PA_TRK_RAIL_CTRL = Reg.HSF_RAIL_CTRL ∧
    4608 = (railPending (pathReg Path.a Reg.PA_TRK_RAIL_SEL) 4608 4608 (-5) 5).fld Reg.HSF_RAIL_SEL 15 0) ∧
    Accepted (railPending (pathReg Path.a Reg.PA_TRK_RAIL_SEL) 4608 4608 (-5) 5) Session.pcie Reg.PA_TRK_RAIL_CTRL
  (BitVec.ofNat 32 (2 ^ 31 + b2n true * 2 ^ 16 + (7#16).toNat)) ∧
    (railPending (pathReg Path.a Reg.PA_TRK_RAIL_SEL) 4608 4608 (-5) 5).railOk 4608
    ((railPending (pathReg Path.a Reg.PA_TRK_RAIL_SEL) 4608 4608 (-5) 5).rail 4608).pMin
    ((railPending (pathReg Path.a Reg.PA_TRK_RAIL_SEL) 4608 4608 (-5) 5).rail 4608).pMax
    ((railPending (pathReg Path.a Reg.PA_TRK_RAIL_SEL) 4608 4608 (-5) 5).rail 4608).pStep =
  true :=
  ⟨by decide +kernel, accepted_of (by decide +kernel), by decide +kernel⟩

theorem witness_railBad :
    (2#2 = 0 ∧
    Reg.HSF_RAIL_CTRL = pathReg Path.a Reg.PA_TRK_RAIL_CTRL ∧
    1792 = (railPending Reg.HSF_RAIL_SEL 1792 1792 5 (-5)).pfld Path.a Reg.PA_TRK_RAIL_SEL 15 0 ∨
  2#2 = 1 ∧
    Reg.HSF_RAIL_CTRL = pathReg Path.b Reg.PA_TRK_RAIL_CTRL ∧
    1792 = (railPending Reg.HSF_RAIL_SEL 1792 1792 5 (-5)).pfld Path.b Reg.PA_TRK_RAIL_SEL 15 0 ∨
    2#2 = 2 ∧
    Reg.HSF_RAIL_CTRL = Reg.HSF_RAIL_CTRL ∧
    1792 = (railPending Reg.HSF_RAIL_SEL 1792 1792 5 (-5)).fld Reg.HSF_RAIL_SEL 15 0) ∧
    Accepted (railPending Reg.HSF_RAIL_SEL 1792 1792 5 (-5)) Session.pcie Reg.HSF_RAIL_CTRL
  (BitVec.ofNat 32 (2 ^ 31 + b2n false * 2 ^ 16 + (7#16).toNat)) ∧
    (railPending Reg.HSF_RAIL_SEL 1792 1792 5 (-5)).railOk 1792
    ((railPending Reg.HSF_RAIL_SEL 1792 1792 5 (-5)).rail 1792).pMin
    ((railPending Reg.HSF_RAIL_SEL 1792 1792 5 (-5)).rail 1792).pMax
    ((railPending Reg.HSF_RAIL_SEL 1792 1792 5 (-5)).rail 1792).pStep =
  false :=
  ⟨by decide +kernel, accepted_of (by decide +kernel), by decide +kernel⟩

theorem witness_jWrite :
    Accepted
  (answering.updTxd Path.b fun t =>
    TxdState.mk t.running t.coefAct t.coefFrozen mode.uniform t.profNext t.profRefused t.sent)
  Session.pcie (pathReg Path.b Reg.PA_TRK_PROF) (BitVec.ofNat 32 (120#8).toNat) :=
  accepted_of (by decide +kernel)

theorem witness_iterCovered :
    (decoding 12).pwr.inReset = false ∧
    0 < ((decoding 12).rxModeOf Path.a).iterCost ∧
    (have __src := (decoding 12).fec Path.a;
    FecState.mk __src.iMax __src.gd __src.want __src.iNext
      (if ((decoding 12).fec Path.a).ivHits = 0 then ((decoding 12).fec Path.a).hitFree + 1 else 0)
      __src.preDrop __src.ivFrames __src.ivHits __src.ivIter __src.ivWords __src.llr __src.llrAll __src.cnt
      __src.stats __src.berAlarm __src.uncorrSeen __src.iOld).llr =
  true ∧
    1024 ≤
  (have __src := (decoding 12).fec Path.a;
    FecState.mk __src.iMax __src.gd __src.want __src.iNext
      (if ((decoding 12).fec Path.a).ivHits = 0 then ((decoding 12).fec Path.a).hitFree + 1 else 0)
      __src.preDrop __src.ivFrames __src.ivHits __src.ivIter __src.ivWords __src.llr __src.llrAll __src.cnt
      __src.stats __src.berAlarm __src.uncorrSeen __src.iOld).ivFrames ∧
    (have __src := (decoding 12).fec Path.a;
    FecState.mk __src.iMax __src.gd __src.want __src.iNext
      (if ((decoding 12).fec Path.a).ivHits = 0 then ((decoding 12).fec Path.a).hitFree + 1 else 0)
      __src.preDrop __src.ivFrames __src.ivHits __src.ivIter __src.ivWords __src.llr __src.llrAll __src.cnt
      __src.stats __src.berAlarm __src.uncorrSeen __src.iOld).want =
  none ∧
    ((decoding 12).rail (loopId Path.a 4 0)).freeze = false ∧
    (((decoding 12).rail (loopId Path.a 4 0)).clamps
      (↑(have __src := (decoding 12).fec Path.a;
            FecState.mk __src.iMax __src.gd __src.want __src.iNext
              (if ((decoding 12).fec Path.a).ivHits = 0 then ((decoding 12).fec Path.a).hitFree + 1 else 0)
              __src.preDrop __src.ivFrames __src.ivHits __src.ivIter __src.ivWords __src.llr __src.llrAll
              __src.cnt __src.stats __src.berAlarm __src.uncorrSeen __src.iOld).iMax :
        Int)
      (↑(iterWant
            (have __src := (decoding 12).fec Path.a;
            FecState.mk __src.iMax __src.gd __src.want __src.iNext
              (if ((decoding 12).fec Path.a).ivHits = 0 then ((decoding 12).fec Path.a).hitFree + 1 else 0)
              __src.preDrop __src.ivFrames __src.ivHits __src.ivIter __src.ivWords __src.llr __src.llrAll
              __src.cnt __src.stats __src.berAlarm __src.uncorrSeen __src.iOld)
            ((decoding 12).pflag Path.a Reg.PA_FEC_CTRL 0) ((decoding 12).pfld Path.a Reg.PA_FEC_LOOP 31 16)
            ((decoding 12).pfld Path.a Reg.PA_FEC_LOOP 7 0)) :
        Int)).toNat ≤
  (decoding 12).covered Path.a :=
  by decide +kernel

theorem witness_iterAsks :
    (decoding 6).pwr.inReset = false ∧
    0 < ((decoding 6).rxModeOf Path.a).iterCost ∧
    (have __src := (decoding 6).fec Path.a;
    FecState.mk __src.iMax __src.gd __src.want __src.iNext
      (if ((decoding 6).fec Path.a).ivHits = 0 then ((decoding 6).fec Path.a).hitFree + 1 else 0) __src.preDrop
      __src.ivFrames __src.ivHits __src.ivIter __src.ivWords __src.llr __src.llrAll __src.cnt __src.stats
      __src.berAlarm __src.uncorrSeen __src.iOld).llr =
  true ∧
    1024 ≤
  (have __src := (decoding 6).fec Path.a;
    FecState.mk __src.iMax __src.gd __src.want __src.iNext
      (if ((decoding 6).fec Path.a).ivHits = 0 then ((decoding 6).fec Path.a).hitFree + 1 else 0) __src.preDrop
      __src.ivFrames __src.ivHits __src.ivIter __src.ivWords __src.llr __src.llrAll __src.cnt __src.stats
      __src.berAlarm __src.uncorrSeen __src.iOld).ivFrames ∧
    (have __src := (decoding 6).fec Path.a;
    FecState.mk __src.iMax __src.gd __src.want __src.iNext
      (if ((decoding 6).fec Path.a).ivHits = 0 then ((decoding 6).fec Path.a).hitFree + 1 else 0) __src.preDrop
      __src.ivFrames __src.ivHits __src.ivIter __src.ivWords __src.llr __src.llrAll __src.cnt __src.stats
      __src.berAlarm __src.uncorrSeen __src.iOld).want =
  none ∧
    ((decoding 6).rail (loopId Path.a 4 0)).freeze = false ∧
    (decoding 6).covered Path.a <
  (((decoding 6).rail (loopId Path.a 4 0)).clamps
      (↑(have __src := (decoding 6).fec Path.a;
            FecState.mk __src.iMax __src.gd __src.want __src.iNext
              (if ((decoding 6).fec Path.a).ivHits = 0 then ((decoding 6).fec Path.a).hitFree + 1 else 0)
              __src.preDrop __src.ivFrames __src.ivHits __src.ivIter __src.ivWords __src.llr __src.llrAll
              __src.cnt __src.stats __src.berAlarm __src.uncorrSeen __src.iOld).iMax :
        Int)
      (↑(iterWant
            (have __src := (decoding 6).fec Path.a;
            FecState.mk __src.iMax __src.gd __src.want __src.iNext
              (if ((decoding 6).fec Path.a).ivHits = 0 then ((decoding 6).fec Path.a).hitFree + 1 else 0)
              __src.preDrop __src.ivFrames __src.ivHits __src.ivIter __src.ivWords __src.llr __src.llrAll
              __src.cnt __src.stats __src.berAlarm __src.uncorrSeen __src.iOld)
            ((decoding 6).pflag Path.a Reg.PA_FEC_CTRL 0) ((decoding 6).pfld Path.a Reg.PA_FEC_LOOP 31 16)
            ((decoding 6).pfld Path.a Reg.PA_FEC_LOOP 7 0)) :
        Int)).toNat ∧
    (decoding 6).pwr.queue = [] ∧
    (decoding 6).alloc +
    ceilDiv
      ((((decoding 6).rail (loopId Path.a 4 0)).clamps
              (↑(have __src := (decoding 6).fec Path.a;
                    FecState.mk __src.iMax __src.gd __src.want __src.iNext
                      (if ((decoding 6).fec Path.a).ivHits = 0 then ((decoding 6).fec Path.a).hitFree + 1
                      else 0)
                      __src.preDrop __src.ivFrames __src.ivHits __src.ivIter __src.ivWords __src.llr
                      __src.llrAll __src.cnt __src.stats __src.berAlarm __src.uncorrSeen __src.iOld).iMax :
                Int)
              (↑(iterWant
                    (have __src := (decoding 6).fec Path.a;
                    FecState.mk __src.iMax __src.gd __src.want __src.iNext
                      (if ((decoding 6).fec Path.a).ivHits = 0 then ((decoding 6).fec Path.a).hitFree + 1
                      else 0)
                      __src.preDrop __src.ivFrames __src.ivHits __src.ivIter __src.ivWords __src.llr
                      __src.llrAll __src.cnt __src.stats __src.berAlarm __src.uncorrSeen __src.iOld)
                    ((decoding 6).pflag Path.a Reg.PA_FEC_CTRL 0)
                    ((decoding 6).pfld Path.a Reg.PA_FEC_LOOP 31 16)
                    ((decoding 6).pfld Path.a Reg.PA_FEC_LOOP 7 0)) :
                Int)).toNat *
          ((decoding 6).rxModeOf Path.a).iterCost -
        (have __src := (decoding 6).fec Path.a;
          FecState.mk __src.iMax __src.gd __src.want __src.iNext
            (if ((decoding 6).fec Path.a).ivHits = 0 then ((decoding 6).fec Path.a).hitFree + 1 else 0)
            __src.preDrop __src.ivFrames __src.ivHits __src.ivIter __src.ivWords __src.llr __src.llrAll
            __src.cnt __src.stats __src.berAlarm __src.uncorrSeen __src.iOld).gd)
      10 ≤
  (decoding 6).effCeiling :=
  by decide +kernel

theorem witness_iterQueues :
    (decodingUnder 95).pwr.inReset = false ∧
    0 < ((decodingUnder 95).rxModeOf Path.a).iterCost ∧
    (have __src := (decodingUnder 95).fec Path.a;
    FecState.mk __src.iMax __src.gd __src.want __src.iNext
      (if ((decodingUnder 95).fec Path.a).ivHits = 0 then ((decodingUnder 95).fec Path.a).hitFree + 1 else 0)
      __src.preDrop __src.ivFrames __src.ivHits __src.ivIter __src.ivWords __src.llr __src.llrAll __src.cnt
      __src.stats __src.berAlarm __src.uncorrSeen __src.iOld).llr =
  true ∧
    1024 ≤
  (have __src := (decodingUnder 95).fec Path.a;
    FecState.mk __src.iMax __src.gd __src.want __src.iNext
      (if ((decodingUnder 95).fec Path.a).ivHits = 0 then ((decodingUnder 95).fec Path.a).hitFree + 1 else 0)
      __src.preDrop __src.ivFrames __src.ivHits __src.ivIter __src.ivWords __src.llr __src.llrAll __src.cnt
      __src.stats __src.berAlarm __src.uncorrSeen __src.iOld).ivFrames ∧
    (have __src := (decodingUnder 95).fec Path.a;
    FecState.mk __src.iMax __src.gd __src.want __src.iNext
      (if ((decodingUnder 95).fec Path.a).ivHits = 0 then ((decodingUnder 95).fec Path.a).hitFree + 1 else 0)
      __src.preDrop __src.ivFrames __src.ivHits __src.ivIter __src.ivWords __src.llr __src.llrAll __src.cnt
      __src.stats __src.berAlarm __src.uncorrSeen __src.iOld).want =
  none ∧
    ((decodingUnder 95).rail (loopId Path.a 4 0)).freeze = false ∧
    (decodingUnder 95).covered Path.a <
  (((decodingUnder 95).rail (loopId Path.a 4 0)).clamps
      (↑(have __src := (decodingUnder 95).fec Path.a;
            FecState.mk __src.iMax __src.gd __src.want __src.iNext
              (if ((decodingUnder 95).fec Path.a).ivHits = 0 then ((decodingUnder 95).fec Path.a).hitFree + 1
              else 0)
              __src.preDrop __src.ivFrames __src.ivHits __src.ivIter __src.ivWords __src.llr __src.llrAll
              __src.cnt __src.stats __src.berAlarm __src.uncorrSeen __src.iOld).iMax :
        Int)
      (↑(iterWant
            (have __src := (decodingUnder 95).fec Path.a;
            FecState.mk __src.iMax __src.gd __src.want __src.iNext
              (if ((decodingUnder 95).fec Path.a).ivHits = 0 then ((decodingUnder 95).fec Path.a).hitFree + 1
              else 0)
              __src.preDrop __src.ivFrames __src.ivHits __src.ivIter __src.ivWords __src.llr __src.llrAll
              __src.cnt __src.stats __src.berAlarm __src.uncorrSeen __src.iOld)
            ((decodingUnder 95).pflag Path.a Reg.PA_FEC_CTRL 0)
            ((decodingUnder 95).pfld Path.a Reg.PA_FEC_LOOP 31 16)
            ((decodingUnder 95).pfld Path.a Reg.PA_FEC_LOOP 7 0)) :
        Int)).toNat ∧
    (decodingUnder 95).pwr.queue = [] ∧
    (decodingUnder 95).effCeiling <
  (decodingUnder 95).alloc +
    ceilDiv
      ((((decodingUnder 95).rail (loopId Path.a 4 0)).clamps
              (↑(have __src := (decodingUnder 95).fec Path.a;
                    FecState.mk __src.iMax __src.gd __src.want __src.iNext
                      (if ((decodingUnder 95).fec Path.a).ivHits = 0 then
                        ((decodingUnder 95).fec Path.a).hitFree + 1
                      else 0)
                      __src.preDrop __src.ivFrames __src.ivHits __src.ivIter __src.ivWords __src.llr
                      __src.llrAll __src.cnt __src.stats __src.berAlarm __src.uncorrSeen __src.iOld).iMax :
                Int)
              (↑(iterWant
                    (have __src := (decodingUnder 95).fec Path.a;
                    FecState.mk __src.iMax __src.gd __src.want __src.iNext
                      (if ((decodingUnder 95).fec Path.a).ivHits = 0 then
                        ((decodingUnder 95).fec Path.a).hitFree + 1
                      else 0)
                      __src.preDrop __src.ivFrames __src.ivHits __src.ivIter __src.ivWords __src.llr
                      __src.llrAll __src.cnt __src.stats __src.berAlarm __src.uncorrSeen __src.iOld)
                    ((decodingUnder 95).pflag Path.a Reg.PA_FEC_CTRL 0)
                    ((decodingUnder 95).pfld Path.a Reg.PA_FEC_LOOP 31 16)
                    ((decodingUnder 95).pfld Path.a Reg.PA_FEC_LOOP 7 0)) :
                Int)).toNat *
          ((decodingUnder 95).rxModeOf Path.a).iterCost -
        (have __src := (decodingUnder 95).fec Path.a;
          FecState.mk __src.iMax __src.gd __src.want __src.iNext
            (if ((decodingUnder 95).fec Path.a).ivHits = 0 then ((decodingUnder 95).fec Path.a).hitFree + 1
            else 0)
            __src.preDrop __src.ivFrames __src.ivHits __src.ivIter __src.ivWords __src.llr __src.llrAll
            __src.cnt __src.stats __src.berAlarm __src.uncorrSeen __src.iOld).gd)
      10 ∧
    (decodingUnder 95).base +
    ceilDiv
      ((((decodingUnder 95).rail (loopId Path.a 4 0)).clamps
              (↑(have __src := (decodingUnder 95).fec Path.a;
                    FecState.mk __src.iMax __src.gd __src.want __src.iNext
                      (if ((decodingUnder 95).fec Path.a).ivHits = 0 then
                        ((decodingUnder 95).fec Path.a).hitFree + 1
                      else 0)
                      __src.preDrop __src.ivFrames __src.ivHits __src.ivIter __src.ivWords __src.llr
                      __src.llrAll __src.cnt __src.stats __src.berAlarm __src.uncorrSeen __src.iOld).iMax :
                Int)
              (↑(iterWant
                    (have __src := (decodingUnder 95).fec Path.a;
                    FecState.mk __src.iMax __src.gd __src.want __src.iNext
                      (if ((decodingUnder 95).fec Path.a).ivHits = 0 then
                        ((decodingUnder 95).fec Path.a).hitFree + 1
                      else 0)
                      __src.preDrop __src.ivFrames __src.ivHits __src.ivIter __src.ivWords __src.llr
                      __src.llrAll __src.cnt __src.stats __src.berAlarm __src.uncorrSeen __src.iOld)
                    ((decodingUnder 95).pflag Path.a Reg.PA_FEC_CTRL 0)
                    ((decodingUnder 95).pfld Path.a Reg.PA_FEC_LOOP 31 16)
                    ((decodingUnder 95).pfld Path.a Reg.PA_FEC_LOOP 7 0)) :
                Int)).toNat *
          ((decodingUnder 95).rxModeOf Path.a).iterCost -
        (have __src := (decodingUnder 95).fec Path.a;
          FecState.mk __src.iMax __src.gd __src.want __src.iNext
            (if ((decodingUnder 95).fec Path.a).ivHits = 0 then ((decodingUnder 95).fec Path.a).hitFree + 1
            else 0)
            __src.preDrop __src.ivFrames __src.ivHits __src.ivIter __src.ivWords __src.llr __src.llrAll
            __src.cnt __src.stats __src.berAlarm __src.uncorrSeen __src.iOld).gd)
      10 ≤
  (decodingUnder 95).effCeiling :=
  by decide +kernel

theorem witness_iterDenied :
    (decodingUnder 85).pwr.inReset = false ∧
    0 < ((decodingUnder 85).rxModeOf Path.a).iterCost ∧
    (have __src := (decodingUnder 85).fec Path.a;
    FecState.mk __src.iMax __src.gd __src.want __src.iNext
      (if ((decodingUnder 85).fec Path.a).ivHits = 0 then ((decodingUnder 85).fec Path.a).hitFree + 1 else 0)
      __src.preDrop __src.ivFrames __src.ivHits __src.ivIter __src.ivWords __src.llr __src.llrAll __src.cnt
      __src.stats __src.berAlarm __src.uncorrSeen __src.iOld).llr =
  true ∧
    1024 ≤
  (have __src := (decodingUnder 85).fec Path.a;
    FecState.mk __src.iMax __src.gd __src.want __src.iNext
      (if ((decodingUnder 85).fec Path.a).ivHits = 0 then ((decodingUnder 85).fec Path.a).hitFree + 1 else 0)
      __src.preDrop __src.ivFrames __src.ivHits __src.ivIter __src.ivWords __src.llr __src.llrAll __src.cnt
      __src.stats __src.berAlarm __src.uncorrSeen __src.iOld).ivFrames ∧
    (have __src := (decodingUnder 85).fec Path.a;
    FecState.mk __src.iMax __src.gd __src.want __src.iNext
      (if ((decodingUnder 85).fec Path.a).ivHits = 0 then ((decodingUnder 85).fec Path.a).hitFree + 1 else 0)
      __src.preDrop __src.ivFrames __src.ivHits __src.ivIter __src.ivWords __src.llr __src.llrAll __src.cnt
      __src.stats __src.berAlarm __src.uncorrSeen __src.iOld).want =
  none ∧
    ((decodingUnder 85).rail (loopId Path.a 4 0)).freeze = false ∧
    (decodingUnder 85).covered Path.a <
  (((decodingUnder 85).rail (loopId Path.a 4 0)).clamps
      (↑(have __src := (decodingUnder 85).fec Path.a;
            FecState.mk __src.iMax __src.gd __src.want __src.iNext
              (if ((decodingUnder 85).fec Path.a).ivHits = 0 then ((decodingUnder 85).fec Path.a).hitFree + 1
              else 0)
              __src.preDrop __src.ivFrames __src.ivHits __src.ivIter __src.ivWords __src.llr __src.llrAll
              __src.cnt __src.stats __src.berAlarm __src.uncorrSeen __src.iOld).iMax :
        Int)
      (↑(iterWant
            (have __src := (decodingUnder 85).fec Path.a;
            FecState.mk __src.iMax __src.gd __src.want __src.iNext
              (if ((decodingUnder 85).fec Path.a).ivHits = 0 then ((decodingUnder 85).fec Path.a).hitFree + 1
              else 0)
              __src.preDrop __src.ivFrames __src.ivHits __src.ivIter __src.ivWords __src.llr __src.llrAll
              __src.cnt __src.stats __src.berAlarm __src.uncorrSeen __src.iOld)
            ((decodingUnder 85).pflag Path.a Reg.PA_FEC_CTRL 0)
            ((decodingUnder 85).pfld Path.a Reg.PA_FEC_LOOP 31 16)
            ((decodingUnder 85).pfld Path.a Reg.PA_FEC_LOOP 7 0)) :
        Int)).toNat ∧
    (decodingUnder 85).pwr.queue = [] ∧
    (decodingUnder 85).effCeiling <
  (decodingUnder 85).alloc +
    ceilDiv
      ((((decodingUnder 85).rail (loopId Path.a 4 0)).clamps
              (↑(have __src := (decodingUnder 85).fec Path.a;
                    FecState.mk __src.iMax __src.gd __src.want __src.iNext
                      (if ((decodingUnder 85).fec Path.a).ivHits = 0 then
                        ((decodingUnder 85).fec Path.a).hitFree + 1
                      else 0)
                      __src.preDrop __src.ivFrames __src.ivHits __src.ivIter __src.ivWords __src.llr
                      __src.llrAll __src.cnt __src.stats __src.berAlarm __src.uncorrSeen __src.iOld).iMax :
                Int)
              (↑(iterWant
                    (have __src := (decodingUnder 85).fec Path.a;
                    FecState.mk __src.iMax __src.gd __src.want __src.iNext
                      (if ((decodingUnder 85).fec Path.a).ivHits = 0 then
                        ((decodingUnder 85).fec Path.a).hitFree + 1
                      else 0)
                      __src.preDrop __src.ivFrames __src.ivHits __src.ivIter __src.ivWords __src.llr
                      __src.llrAll __src.cnt __src.stats __src.berAlarm __src.uncorrSeen __src.iOld)
                    ((decodingUnder 85).pflag Path.a Reg.PA_FEC_CTRL 0)
                    ((decodingUnder 85).pfld Path.a Reg.PA_FEC_LOOP 31 16)
                    ((decodingUnder 85).pfld Path.a Reg.PA_FEC_LOOP 7 0)) :
                Int)).toNat *
          ((decodingUnder 85).rxModeOf Path.a).iterCost -
        (have __src := (decodingUnder 85).fec Path.a;
          FecState.mk __src.iMax __src.gd __src.want __src.iNext
            (if ((decodingUnder 85).fec Path.a).ivHits = 0 then ((decodingUnder 85).fec Path.a).hitFree + 1
            else 0)
            __src.preDrop __src.ivFrames __src.ivHits __src.ivIter __src.ivWords __src.llr __src.llrAll
            __src.cnt __src.stats __src.berAlarm __src.uncorrSeen __src.iOld).gd)
      10 ∧
    (decodingUnder 85).effCeiling <
  (decodingUnder 85).base +
    ceilDiv
      ((((decodingUnder 85).rail (loopId Path.a 4 0)).clamps
              (↑(have __src := (decodingUnder 85).fec Path.a;
                    FecState.mk __src.iMax __src.gd __src.want __src.iNext
                      (if ((decodingUnder 85).fec Path.a).ivHits = 0 then
                        ((decodingUnder 85).fec Path.a).hitFree + 1
                      else 0)
                      __src.preDrop __src.ivFrames __src.ivHits __src.ivIter __src.ivWords __src.llr
                      __src.llrAll __src.cnt __src.stats __src.berAlarm __src.uncorrSeen __src.iOld).iMax :
                Int)
              (↑(iterWant
                    (have __src := (decodingUnder 85).fec Path.a;
                    FecState.mk __src.iMax __src.gd __src.want __src.iNext
                      (if ((decodingUnder 85).fec Path.a).ivHits = 0 then
                        ((decodingUnder 85).fec Path.a).hitFree + 1
                      else 0)
                      __src.preDrop __src.ivFrames __src.ivHits __src.ivIter __src.ivWords __src.llr
                      __src.llrAll __src.cnt __src.stats __src.berAlarm __src.uncorrSeen __src.iOld)
                    ((decodingUnder 85).pflag Path.a Reg.PA_FEC_CTRL 0)
                    ((decodingUnder 85).pfld Path.a Reg.PA_FEC_LOOP 31 16)
                    ((decodingUnder 85).pfld Path.a Reg.PA_FEC_LOOP 7 0)) :
                Int)).toNat *
          ((decodingUnder 85).rxModeOf Path.a).iterCost -
        (have __src := (decodingUnder 85).fec Path.a;
          FecState.mk __src.iMax __src.gd __src.want __src.iNext
            (if ((decodingUnder 85).fec Path.a).ivHits = 0 then ((decodingUnder 85).fec Path.a).hitFree + 1
            else 0)
            __src.preDrop __src.ivFrames __src.ivHits __src.ivIter __src.ivWords __src.llr __src.llrAll
            __src.cnt __src.stats __src.berAlarm __src.uncorrSeen __src.iOld).gd)
      10 :=
  by decide +kernel

theorem witness_iterExcess :
    excess.pwr.inReset = false ∧
    0 < (excess.rxModeOf Path.a).iterCost ∧
    excess.pwr.excess.getLsbD (pathNum Path.a) = true :=
  by decide +kernel

theorem witness_load :
    Accepted up Session.pcie Reg.RTE_CTRL (setField (up.withField Reg.RTE_CTRL 1 0 (3#2).toNat) 2 2 1) :=
  accepted_of (by decide +kernel)

theorem witness_store :
    Accepted up Session.pcie Reg.RTE_CTRL (setField (up.withField Reg.RTE_CTRL 7 7 (b2n true)) 6 6 1) ∧
    (up.rte.active = true → up.rte.src ≠ 1 + b2n true) :=
  ⟨accepted_of (by decide +kernel), by decide +kernel⟩

theorem witness_amend :
    Accepted up Session.pcie Reg.RTE_CTRL (up.withField Reg.RTE_CTRL 3 3 1) :=
  accepted_of (by decide +kernel)

theorem witness_commitFloor :
    Accepted floorImage Session.pcie Reg.RTE_CTRL (floorImage.withField Reg.RTE_CTRL 4 4 1) ∧
    floorImage.rte.active = true ∧
    floorImage.rte.advance = true ∧
    floorImage.tru.floor < floorImage.rte.version ∧
    floorImage.tru.busy = none ∧
    floorImage.pwr.queue = [] ∧
    floorImage.alloc + 250 ≤ floorImage.effCeiling :=
  ⟨accepted_of (by decide +kernel), by decide +kernel⟩

theorem witness_amdCancel :
    Accepted amdWaits Session.pcie Reg.RTE_CTRL (amdWaits.withField Reg.RTE_CTRL 5 5 1) ∧
    amdWaits.rte.amd = some amendment ∧
    amdWaits.entry amendment.handle = some loaderEntry :=
  ⟨accepted_of (by decide +kernel), by decide +kernel⟩

theorem witness_blankSlot :
    (withOp up (LoaderOp.load 1)).pwr.inReset = false ∧
    (withOp up (LoaderOp.load 1)).tru.ready = true ∧
    (withOp up (LoaderOp.load 1)).rte.op = some (LoaderOp.load (1 + b2n false)) ∧
    (withOp up (LoaderOp.load 1)).slotBytes false = none :=
  by decide +kernel

theorem witness_slotError :
    (inSlot (LoaderOp.load 2)).pwr.inReset = false ∧
    (inSlot (LoaderOp.load 2)).tru.ready = true ∧
    (inSlot (LoaderOp.load 2)).rte.op = some (LoaderOp.load (1 + b2n true)) :=
  by decide +kernel

theorem witness_noSlot :
    (withOp up (LoaderOp.load 0)).pwr.inReset = false ∧
    (withOp up (LoaderOp.load 0)).tru.ready = true ∧
    (withOp up (LoaderOp.load 0)).rte.op = some (LoaderOp.load 0) ∧
    (withOp up (LoaderOp.load 0)).slotBytes true = none ∧
    (withOp up (LoaderOp.load 0)).slotBytes false = none :=
  by decide +kernel

theorem witness_autoError :
    (withOp up (LoaderOp.load 0)).pwr.inReset = false ∧
    (withOp up (LoaderOp.load 0)).tru.ready = true ∧
    (withOp up (LoaderOp.load 0)).rte.op = some (LoaderOp.load 0) ∧
    (withOp up (LoaderOp.load 0)).slotBytes true = none ∧
    4095 < 4096 :=
  by decide +kernel

theorem witness_beforeKey :
    (noKey (LoaderOp.load 0)).pwr.inReset = false ∧
    (noKey (LoaderOp.load 0)).tru.ready = false ∧
    (noKey (LoaderOp.load 0)).rte.op = some (LoaderOp.load 0) ∧
    0 ≠ 3 :=
  by decide +kernel

theorem witness_stagingBad :
    unwritten.pwr.inReset = false ∧
    unwritten.rte.op = some (LoaderOp.load 3) ∧
    (unwritten.begin.suffer []).mem.firstBad (unwritten.freeCtr + 1) stagingBase unwritten.rteLen =
  some (stagingBase / 32) :=
  by decide +kernel

theorem witness_storeBad :
    (staged up (LoaderOp.store true) [0]).pwr.inReset = false ∧
    (staged up (LoaderOp.store true) [0]).rte.op = some (LoaderOp.store true) ∧
    (staged up (LoaderOp.store true) [0]).mem.firstBad ((staged up (LoaderOp.store true) [0]).freeCtr + 1)
    stagingBase (staged up (LoaderOp.store true) [0]).rteLen =
  none ∧
    (staged up (LoaderOp.store true) [0]).fileFault
    ((staged up (LoaderOp.store true) [0]).mem.readBytes ((staged up (LoaderOp.store true) [0]).freeCtr + 1)
      stagingBase (staged up (LoaderOp.store true) [0]).rteLen)
    1 (staged up (LoaderOp.store true) [0]).rteLen =
  some (4, 0) :=
  by decide +kernel

theorem witness_amendBad :
    (staged up LoaderOp.amend [0]).pwr.inReset = false ∧
    (staged up LoaderOp.amend [0]).rte.op = some LoaderOp.amend ∧
    ((staged up LoaderOp.amend [0]).begin.suffer []).mem.firstBad ((staged up LoaderOp.amend [0]).freeCtr + 1)
    stagingBase (staged up LoaderOp.amend [0]).rteLen =
  none ∧
    (((staged up LoaderOp.amend [0]).begin.suffer []).noteRead 2 stagingBase
        (staged up LoaderOp.amend [0]).rteLen).amdJudge
    (((staged up LoaderOp.amend [0]).begin.suffer []).mem.readBytes ((staged up LoaderOp.amend [0]).freeCtr + 1)
      stagingBase (staged up LoaderOp.amend [0]).rteLen) =
  Sum.inr (4, 0) :=
  by decide +kernel

theorem witness_storesL :
    regDesc Reg.MST_HOLDOVER = some (described Reg.MST_HOLDOVER) ∧
    unitHeld (baseOff Reg.MST_HOLDOVER) = false ∧
    milestoneMask (described Reg.MST_HOLDOVER) = 0 :=
  by decide +kernel

theorem witness_storesM :
    regDesc Reg.CNT_C_TRACE_TX = some (described Reg.CNT_C_TRACE_TX) ∧
    unitHeld (baseOff Reg.CNT_C_TRACE_TX) = false ∧
    milestoneMask (described Reg.CNT_C_TRACE_TX) ≠ 0 :=
  by decide +kernel

theorem witness_storesOther :
    regDesc Reg.CNT_C_TRACE_TX = some (described Reg.CNT_C_TRACE_TX) ∧
    unitHeld (baseOff Reg.CNT_C_TRACE_TX) = false :=
  by decide +kernel

theorem witness_storesSes :
    regDesc Reg.CNT_C_TRACE_TX = some (described Reg.CNT_C_TRACE_TX) ∧
    unitHeld (baseOff Reg.CNT_C_TRACE_TX) = false :=
  by decide +kernel

theorem witness_storesSess :
    regDesc Reg.CNT_C_TRACE_TX = some (described Reg.CNT_C_TRACE_TX) ∧
    unitHeld (baseOff Reg.CNT_C_TRACE_TX) = false :=
  by decide +kernel

theorem witness_regWrite :
    Accepted live Session.pcie Reg.PWR_CEILING 100 ∧
    Reg.PWR_CEILING % 4 = 0 ∧
    Reg.PWR_CEILING < 2 ^ 26 ∧
    Reg.PWR_CEILING ≠ Reg.CTL_LOCK_CMD :=
  ⟨accepted_of (by decide +kernel), by decide +kernel⟩

theorem witness_regWriteRing :
    Accepted onRing (Session.ring 9) Reg.MST_HOLDOVER 100 ∧
    Reg.MST_HOLDOVER % 4 = 0 ∧
    Reg.MST_HOLDOVER < 2 ^ 26 ∧
    Reg.MST_HOLDOVER ≠ Reg.CTL_LOCK_CMD :=
  ⟨accepted_of (by decide +kernel), by decide +kernel⟩

theorem witness_regPlain :
    Reg.MST_HOLDOVER ∈
  [Reg.RTE_LEN, Reg.MST_HOLDOVER, Reg.MST_SET_NS, Reg.RTE_AMD_TIME_NS, Reg.EVT_CTRL, Reg.EVT_SPILL_CTRL] ∧
    Accepted live Session.pcie Reg.MST_HOLDOVER 100 :=
  ⟨by decide +kernel, accepted_of (by decide +kernel)⟩

theorem witness_regMnt :
    Reg.MST_HOLDOVER ∈
  [Reg.RTE_LEN, Reg.MST_HOLDOVER, Reg.MST_SET_NS, Reg.RTE_AMD_TIME_NS, Reg.EVT_CTRL, Reg.EVT_SPILL_CTRL] ∧
    Accepted live Session.maint Reg.MST_HOLDOVER 100 :=
  ⟨by decide +kernel, accepted_of (by decide +kernel)⟩

theorem witness_regRead :
    Reg.RTE_LEN ∈
  [Reg.RTE_LEN, Reg.MST_HOLDOVER, Reg.MST_SET_NS, Reg.RTE_AMD_TIME_NS, Reg.EVT_CTRL, Reg.EVT_SPILL_CTRL] ∧
    regDesc Reg.RTE_LEN = some (described Reg.RTE_LEN) ∧
    live.pwr.inReset = false ∧
    live.reaches Session.pcie = true :=
  by decide +kernel

theorem witness_regMntRead :
    Reg.EVT_SPILL_CTRL ∈
  [Reg.RTE_LEN, Reg.MST_HOLDOVER, Reg.MST_SET_NS, Reg.RTE_AMD_TIME_NS, Reg.EVT_CTRL, Reg.EVT_SPILL_CTRL] ∧
    regDesc Reg.EVT_SPILL_CTRL = some (described Reg.EVT_SPILL_CTRL) ∧
    live.pwr.inReset = false ∧
    live.reaches Session.maint = true :=
  by decide +kernel

theorem witness_acquire :
    6 = (6#3).toNat ∧
    0 = sessionNum Session.pcie ∧
    Accepted up Session.pcie Reg.CTL_LOCK_CMD (BitVec.ofNat 32 (2 ^ 31 + 1 * 2 ^ 24 + 6)) ∧
    (up.lock 6).owner = none :=
  ⟨by decide +kernel, by decide +kernel, accepted_of (by decide +kernel), by decide +kernel⟩

theorem witness_acquireBroken :
    6 = (6#3).toNat ∧
    0 = sessionNum Session.pcie ∧
    Accepted brokenLock Session.pcie Reg.CTL_LOCK_CMD (BitVec.ofNat 32 (2 ^ 31 + 1 * 2 ^ 24 + 6)) ∧
    (brokenLock.lock 6).owner = none :=
  ⟨by decide +kernel, by decide +kernel, accepted_of (by decide +kernel), by decide +kernel⟩

theorem witness_acquireHeld :
    6 = (6#3).toNat ∧
    0 = sessionNum Session.pcie ∧
    Accepted (locked 1) Session.pcie Reg.CTL_LOCK_CMD (BitVec.ofNat 32 (2 ^ 31 + 1 * 2 ^ 24 + 6)) ∧
    ((locked 1).lock 6).owner ≠ none :=
  ⟨by decide +kernel, by decide +kernel, accepted_of (by decide +kernel), by decide +kernel⟩

theorem witness_renew :
    6 = (6#3).toNat ∧
    0 = sessionNum Session.pcie ∧
    Accepted (locked 0) Session.pcie Reg.CTL_LOCK_CMD (BitVec.ofNat 32 (2 ^ 31 + 2 * 2 ^ 24 + 6)) :=
  ⟨by decide +kernel, by decide +kernel, accepted_of (by decide +kernel)⟩

theorem witness_lease :
    6 = (6#3).toNat ∧
    1 = sessionNum Session.maint ∧
    (locked 1).pwr.inReset = false ∧
    ((locked 1).lock 6).owner = some 1 :=
  by decide +kernel

theorem witness_mntWrite :
    up.pwr.inReset = false ∧
    up.reaches Session.maint = true ∧
    (134217724#32).toNat + 4 ≤ 134217728 :=
  by decide +kernel

theorem witness_mntPast :
    up.pwr.inReset = false ∧
    up.reaches Session.maint = true ∧
    134217728 < (134217725#32).toNat + 4 :=
  by decide +kernel

theorem witness_mntAgain :
    (mntReading (some (5, 0))).pwr.inReset = false ∧
    (mntReading (some (5, 0))).reaches Session.maint = true ∧
    (64#32).toNat + 4 ≤ 134217728 ∧
    (mntReading (some (5, 0))).ctl.mntRead = some ((64#32).toNat, some (5, 0)) ∧
    (mntReading (some (5, 0))).upNs ≤ 0 + 1000000 :=
  by decide +kernel

theorem witness_mntRetry :
    (mntReading none).pwr.inReset = false ∧
    (mntReading none).reaches Session.maint = true ∧
    (64#32).toNat + 4 ≤ 134217728 ∧
    (mntReading none).ctl.mntRead = some ((64#32).toNat, none) :=
  by decide +kernel

theorem witness_mntDone :
    (mntReading none).pwr.inReset = false ∧
    (mntReading none).ctl.mntRead = some (64, none) ∧
    ((mntReading none).begin.windowRead 64 4).snd =
  (((mntReading none).begin.windowRead 64 4).snd.fst, ((mntReading none).begin.windowRead 64 4).snd.snd) :=
  by decide +kernel

theorem witness_flr :
    (locked 0).pwr.inReset = false ∧
    (locked 0).ctl.pcieUp = true :=
  by decide +kernel

theorem witness_linkDown :
    (locked 0).pwr.inReset = false :=
  by decide +kernel

theorem witness_perst :
    (locked 0).pwr.inReset = false :=
  by decide +kernel

theorem witness_perstRelease :
    up.pwr.inReset = false :=
  by decide +kernel

theorem witness_mntUnknown :
    live.pwr.inReset = false ∧
    live.reaches Session.maint = true :=
  by decide +kernel

theorem witness_basicMon :
    Accepted live Session.pcie (basicReg BasicUnit.mon) (live.withField (basicReg BasicUnit.mon) 3 0 (1#4).toNat) ∧
    BasicUnit.mon ≠ BasicUnit.pwr ∧
    BasicUnit.mon ≠ BasicUnit.cry ∧
    BasicUnit.mon ≠ BasicUnit.hsf :=
  ⟨accepted_of (by decide +kernel), by decide +kernel⟩

theorem witness_basicTrk :
    Accepted live Session.pcie (basicReg (BasicUnit.trk Path.a))
  (live.withField (basicReg (BasicUnit.trk Path.a)) 3 0 (1#4).toNat) ∧
    BasicUnit.trk Path.a ≠ BasicUnit.pwr ∧
    BasicUnit.trk Path.a ≠ BasicUnit.cry ∧
    BasicUnit.trk Path.a ≠ BasicUnit.hsf :=
  ⟨accepted_of (by decide +kernel), by decide +kernel⟩

theorem witness_basicNotCustom :
    Accepted live Session.pcie (basicReg (BasicUnit.trk Path.a))
  (live.withField (basicReg (BasicUnit.trk Path.a)) 3 0 (1#4).toNat) :=
  accepted_of (by decide +kernel)

theorem witness_basicPwr :
    Accepted live Session.pcie (basicReg BasicUnit.pwr) (live.withField (basicReg BasicUnit.pwr) 3 0 (1#4).toNat) ∧
    BasicUnit.pwr = BasicUnit.pwr :=
  ⟨accepted_of (by decide +kernel), by decide +kernel⟩

theorem witness_basicHsf :
    Accepted live Session.pcie (basicReg BasicUnit.hsf) (live.withField (basicReg BasicUnit.hsf) 3 0 (1#4).toNat) ∧
    BasicUnit.hsf = BasicUnit.hsf :=
  ⟨accepted_of (by decide +kernel), by decide +kernel⟩

theorem witness_basicFec :
    Accepted live Session.pcie (basicReg (BasicUnit.fec Path.a))
  (live.withField (basicReg (BasicUnit.fec Path.a)) 3 0 (2#4).toNat) ∧
    BasicUnit.fec Path.a = BasicUnit.fec Path.a :=
  ⟨accepted_of (by decide +kernel), by decide +kernel⟩

theorem witness_basicFec0 :
    Accepted live Session.pcie (basicReg (BasicUnit.fec Path.b))
  (live.withField (basicReg (BasicUnit.fec Path.b)) 3 0 (0#4).toNat) ∧
    BasicUnit.fec Path.b = BasicUnit.fec Path.b :=
  ⟨accepted_of (by decide +kernel), by decide +kernel⟩

theorem witness_basicFec1 :
    Accepted live Session.pcie (basicReg (BasicUnit.fec Path.b))
  (live.withField (basicReg (BasicUnit.fec Path.b)) 3 0 (1#4).toNat) ∧
    BasicUnit.fec Path.b = BasicUnit.fec Path.b :=
  ⟨accepted_of (by decide +kernel), by decide +kernel⟩

theorem witness_basicHsf0 :
    Accepted live Session.pcie (basicReg BasicUnit.hsf) (live.withField (basicReg BasicUnit.hsf) 3 0 (0#4).toNat) ∧
    BasicUnit.hsf = BasicUnit.hsf :=
  ⟨accepted_of (by decide +kernel), by decide +kernel⟩

theorem witness_basicHsf1 :
    Accepted live Session.pcie (basicReg BasicUnit.hsf) (live.withField (basicReg BasicUnit.hsf) 3 0 (1#4).toNat) ∧
    BasicUnit.hsf = BasicUnit.hsf :=
  ⟨accepted_of (by decide +kernel), by decide +kernel⟩

theorem witness_basicHsf2 :
    Accepted live Session.pcie (basicReg BasicUnit.hsf) (live.withField (basicReg BasicUnit.hsf) 3 0 (2#4).toNat) ∧
    BasicUnit.hsf = BasicUnit.hsf :=
  ⟨accepted_of (by decide +kernel), by decide +kernel⟩

theorem witness_basicPwr0 :
    Accepted live Session.pcie (basicReg BasicUnit.pwr) (live.withField (basicReg BasicUnit.pwr) 3 0 (0#4).toNat) ∧
    BasicUnit.pwr = BasicUnit.pwr ∧
    live.pwr.queue = [] :=
  ⟨accepted_of (by decide +kernel), by decide +kernel⟩

theorem witness_basicPwr1 :
    Accepted live Session.pcie (basicReg BasicUnit.pwr) (live.withField (basicReg BasicUnit.pwr) 3 0 (1#4).toNat) ∧
    BasicUnit.pwr = BasicUnit.pwr ∧
    live.pwr.queue = [] :=
  ⟨accepted_of (by decide +kernel), by decide +kernel⟩

theorem witness_basicPwr2 :
    Accepted live Session.pcie (basicReg BasicUnit.pwr) (live.withField (basicReg BasicUnit.pwr) 3 0 (2#4).toNat) ∧
    BasicUnit.pwr = BasicUnit.pwr ∧
    live.pwr.queue = [] :=
  ⟨accepted_of (by decide +kernel), by decide +kernel⟩

theorem witness_refused :
    live.pwr.inReset = false ∧
    live.reaches Session.pcie = true ∧
    Reg.MST_SET_NS % 4 = 0 ∧
    Reg.MST_SET_NS < 2 ^ 26 ∧
    0 = sessionNum Session.pcie ∧
    (∀ (st : BitVec 8), Session.pcie = Session.ring st → live.ringWrites = true) ∧
    live.lockCode 0 Reg.MST_SET_NS = 0 ∧
    refusedCode (live.begin.judge Writer.host Reg.MST_SET_NS 1000000000) = true :=
  by decide +kernel

theorem witness_refusedBusy :
    (withOp up (LoaderOp.load 3)).pwr.inReset = false ∧
    (withOp up (LoaderOp.load 3)).reaches Session.maint = true ∧
    Reg.RTE_CTRL % 4 = 0 ∧
    Reg.RTE_CTRL < 2 ^ 26 ∧
    1 = sessionNum Session.maint ∧
    (∀ (st : BitVec 8), Session.maint = Session.ring st → (withOp up (LoaderOp.load 3)).ringWrites = true) ∧
    (withOp up (LoaderOp.load 3)).lockCode 1 Reg.RTE_CTRL = 0 ∧
    refusedCode ((withOp up (LoaderOp.load 3)).begin.judge Writer.host Reg.RTE_CTRL 7) = true :=
  by decide +kernel

theorem witness_lockedOut :
    (locked 1).pwr.inReset = false ∧
    (locked 1).reaches Session.pcie = true ∧
    Reg.MST_HOLDOVER % 4 = 0 ∧
    Reg.MST_HOLDOVER < 2 ^ 26 ∧
    0 = sessionNum Session.pcie ∧
    (∀ (st : BitVec 8), Session.pcie = Session.ring st → (locked 1).ringWrites = true) ∧
    Reg.MST_HOLDOVER < unmappedFrom ∧
    regDesc Reg.MST_HOLDOVER ≠ none ∧
    (locked 1).present Reg.MST_HOLDOVER = true ∧
    (locked 1).domainOf (blockOf Reg.MST_HOLDOVER) = some 6 ∧
    ((locked 1).lock 6).owner = some 1 ∧
    1 ≠ 0 :=
  by decide +kernel

theorem witness_staged :
    (locked 0).pwr.inReset = false ∧
    (locked 0).reaches Session.pcie = true ∧
    Reg.MST_HOLDOVER % 4 = 0 ∧
    Reg.MST_HOLDOVER < 2 ^ 26 ∧
    0 = sessionNum Session.pcie ∧
    (∀ (st : BitVec 8), Session.pcie = Session.ring st → (locked 0).ringWrites = true) ∧
    Reg.MST_HOLDOVER < unmappedFrom ∧
    regDesc Reg.MST_HOLDOVER ≠ none ∧
    (locked 0).present Reg.MST_HOLDOVER = true ∧
    (locked 0).domainOf (blockOf Reg.MST_HOLDOVER) = some 6 ∧
    ((locked 0).lock 6).owner = some 0 ∧
    0 = 0 ∧
    (locked 0).begin.staticCode Writer.host Reg.MST_HOLDOVER 5 = 0 ∧
    ((locked 0).lock 6).staged.length < 256 :=
  by decide +kernel

theorem witness_stagedBad :
    (locked 0).pwr.inReset = false ∧
    (locked 0).reaches Session.pcie = true ∧
    Reg.MST_SET_NS % 4 = 0 ∧
    Reg.MST_SET_NS < 2 ^ 26 ∧
    0 = sessionNum Session.pcie ∧
    (∀ (st : BitVec 8), Session.pcie = Session.ring st → (locked 0).ringWrites = true) ∧
    Reg.MST_SET_NS < unmappedFrom ∧
    regDesc Reg.MST_SET_NS ≠ none ∧
    (locked 0).present Reg.MST_SET_NS = true ∧
    (locked 0).domainOf (blockOf Reg.MST_SET_NS) = some 6 ∧
    ((locked 0).lock 6).owner = some 0 ∧
    0 = 0 ∧
    ((locked 0).begin.staticCode Writer.host Reg.MST_SET_NS 1000000000 = 2 ∧ 2 ≠ 0 ∨
  (locked 0).begin.staticCode Writer.host Reg.MST_SET_NS 1000000000 = 0 ∧
    256 ≤ ((locked 0).lock 6).staged.length ∧ 2 = 8) :=
  by decide +kernel

theorem witness_stagedFull :
    stageFull.pwr.inReset = false ∧
    stageFull.reaches Session.pcie = true ∧
    Reg.MST_HOLDOVER % 4 = 0 ∧
    Reg.MST_HOLDOVER < 2 ^ 26 ∧
    0 = sessionNum Session.pcie ∧
    (∀ (st : BitVec 8), Session.pcie = Session.ring st → stageFull.ringWrites = true) ∧
    Reg.MST_HOLDOVER < unmappedFrom ∧
    regDesc Reg.MST_HOLDOVER ≠ none ∧
    stageFull.present Reg.MST_HOLDOVER = true ∧
    stageFull.domainOf (blockOf Reg.MST_HOLDOVER) = some 6 ∧
    (stageFull.lock 6).owner = some 0 ∧
    0 = 0 ∧
    (stageFull.begin.staticCode Writer.host Reg.MST_HOLDOVER 5 = 8 ∧ 8 ≠ 0 ∨
  stageFull.begin.staticCode Writer.host Reg.MST_HOLDOVER 5 = 0 ∧ 256 ≤ (stageFull.lock 6).staged.length ∧ 8 = 8) :=
  by decide +kernel

theorem witness_byteWrite :
    live.pwr.inReset = false ∧
    live.reaches Session.pcie = true ∧
    Reg.MST_SET_NS % 4 = 0 ∧
    Reg.MST_SET_NS < 2 ^ 26 ∧
    0 = sessionNum Session.pcie ∧
    Session.pcie = Session.pcie ∧
    7#4 ≠ 15 :=
  by decide +kernel

theorem witness_ringDenied :
    (onRing.setReg Reg.CTL_RING_MGMT 1).pwr.inReset = false ∧
    (onRing.setReg Reg.CTL_RING_MGMT 1).reaches (Session.ring 9) = true ∧
    Reg.MST_HOLDOVER % 4 = 0 ∧
    Reg.MST_HOLDOVER < 2 ^ 26 ∧
    265 = sessionNum (Session.ring 9) ∧
    Session.ring 9 = Session.ring 9#8 ∧
    (onRing.setReg Reg.CTL_RING_MGMT 1).ringWrites = false :=
  by decide +kernel

theorem witness_commits :
    6 = (6#3).toNat ∧
    0 = sessionNum Session.pcie ∧
    Accepted (locked 0) Session.pcie Reg.CTL_LOCK_CMD (BitVec.ofNat 32 (2 ^ 31 + 3 * 2 ^ 24 + 6)) ∧
    ((locked 0).lock 6).owner = some 0 ∧
    ((locked 0).stores Session.pcie Reg.CTL_LOCK_CMD (BitVec.ofNat 32 (2 ^ 31 + 3 * 2 ^ 24 + 6))).commitRun 0 0
    ((locked 0).lock 6).staged =
  Sum.inl committed :=
  ⟨by decide +kernel, by decide +kernel, accepted_of (by decide +kernel), by decide +kernel⟩

theorem witness_commitOne :
    6 = (6#3).toNat ∧
    0 = sessionNum Session.pcie ∧
    Accepted (locked 0) Session.pcie Reg.CTL_LOCK_CMD (BitVec.ofNat 32 (2 ^ 31 + 3 * 2 ^ 24 + 6)) ∧
    ((locked 0).lock 6).owner = some 0 ∧
    ((locked 0).lock 6).staged = [(Reg.MST_SET_NS, 5)] ∧
    refusedCode
    (((locked 0).stores Session.pcie Reg.CTL_LOCK_CMD (BitVec.ofNat 32 (2 ^ 31 + 3 * 2 ^ 24 + 6))).judge
      Writer.host Reg.MST_SET_NS 5) =
  false ∧
    baseOff Reg.MST_SET_NS ≠ Reg.PA_CNV_CTRL ∧
    ¬baseOff Reg.MST_SET_NS ∈ [Reg.MON_CTRL, Reg.TRU_CMD, Reg.MEM_REPAIR_CMD] ∧
    regDesc Reg.MST_SET_NS ≠ none :=
  ⟨by decide +kernel, by decide +kernel, accepted_of (by decide +kernel), by decide +kernel⟩

theorem witness_commitFails :
    6 = (6#3).toNat ∧
    0 = sessionNum Session.pcie ∧
    Accepted lockedBad Session.pcie Reg.CTL_LOCK_CMD (BitVec.ofNat 32 (2 ^ 31 + 3 * 2 ^ 24 + 6)) ∧
    (lockedBad.lock 6).owner = some 0 ∧
    (lockedBad.stores Session.pcie Reg.CTL_LOCK_CMD (BitVec.ofNat 32 (2 ^ 31 + 3 * 2 ^ 24 + 6))).commitRun 0 0
    (lockedBad.lock 6).staged =
  Sum.inr 0 :=
  ⟨by decide +kernel, by decide +kernel, accepted_of (by decide +kernel), by decide +kernel⟩

theorem witness_commitOther :
    6 = (6#3).toNat ∧
    0 = sessionNum Session.pcie ∧
    Accepted (locked 1) Session.pcie Reg.CTL_LOCK_CMD (BitVec.ofNat 32 (2 ^ 31 + 3 * 2 ^ 24 + 6)) ∧
    ((locked 1).lock 6).owner ≠ some 0 :=
  ⟨by decide +kernel, by decide +kernel, accepted_of (by decide +kernel), by decide +kernel⟩

theorem witness_abort :
    6 = (6#3).toNat ∧
    1 = sessionNum Session.maint ∧
    Accepted (locked 1) Session.maint Reg.CTL_LOCK_CMD (BitVec.ofNat 32 (2 ^ 31 + 4 * 2 ^ 24 + 6)) ∧
    ((locked 1).lock 6).owner = some 1 :=
  ⟨by decide +kernel, by decide +kernel, accepted_of (by decide +kernel), by decide +kernel⟩

theorem witness_abortOther :
    6 = (6#3).toNat ∧
    0 = sessionNum Session.pcie ∧
    Accepted (locked 1) Session.pcie Reg.CTL_LOCK_CMD (BitVec.ofNat 32 (2 ^ 31 + 4 * 2 ^ 24 + 6)) ∧
    ((locked 1).lock 6).owner ≠ some 0 :=
  ⟨by decide +kernel, by decide +kernel, accepted_of (by decide +kernel), by decide +kernel⟩

theorem witness_leaseBreaks :
    (locked 1).pwr.inReset = false ∧
    ((locked 1).lock (6#3).toNat).owner = some 1 :=
  by decide +kernel

theorem witness_acquireAfterBreak :
    6 = (6#3).toNat ∧
    0 = sessionNum Session.pcie ∧
    Accepted brokenLock Session.pcie Reg.CTL_LOCK_CMD (BitVec.ofNat 32 (2 ^ 31 + 1 * 2 ^ 24 + 6)) ∧
    (brokenLock.lock 6).owner = none ∧
    brokenLock.lock 6 = LockState.mk none true [] :=
  ⟨by decide +kernel, by decide +kernel, accepted_of (by decide +kernel), by decide +kernel⟩

theorem witness_acquireLater :
    6 = (6#3).toNat ∧
    0 = sessionNum Session.pcie ∧
    Accepted up Session.pcie Reg.CTL_LOCK_CMD (BitVec.ofNat 32 (2 ^ 31 + 1 * 2 ^ 24 + 6)) ∧
    (up.lock 6).owner = none ∧
    up.lock 6 = LockState.mk none false [] :=
  ⟨by decide +kernel, by decide +kernel, accepted_of (by decide +kernel), by decide +kernel⟩

theorem witness_expertRefused :
    expertLocked.pwr.inReset = false ∧
    expertLocked.reaches Session.pcie = true ∧
    (∀ (st : BitVec 8), Session.pcie = Session.ring st → expertLocked.ringWrites = true) ∧
    Reg.PWR_CEILING % 4 = 0 ∧
    Reg.PWR_CEILING < 2 ^ 26 ∧
    regDesc Reg.PWR_CEILING = some (described Reg.PWR_CEILING) ∧
    expertLocked.expertLocked Reg.PWR_CEILING = true ∧
    (described Reg.PWR_CEILING).basic = false :=
  by decide +kernel

theorem witness_expertRefusedMnt :
    expertLocked.pwr.inReset = false ∧
    expertLocked.reaches Session.maint = true ∧
    (∀ (st : BitVec 8), Session.maint = Session.ring st → expertLocked.ringWrites = true) ∧
    Reg.PWR_CEILING % 4 = 0 ∧
    Reg.PWR_CEILING < 2 ^ 26 ∧
    regDesc Reg.PWR_CEILING = some (described Reg.PWR_CEILING) ∧
    expertLocked.expertLocked Reg.PWR_CEILING = true ∧
    (described Reg.PWR_CEILING).basic = false :=
  by decide +kernel

theorem witness_basicKept :
    expertLocked.pwr.inReset = false ∧
    expertLocked.reaches Session.pcie = true ∧
    (∀ (st : BitVec 8), Session.pcie = Session.ring st → expertLocked.ringWrites = true) ∧
    Reg.PWR_BASIC % 4 = 0 ∧
    Reg.PWR_BASIC < 2 ^ 26 ∧
    regDesc Reg.PWR_BASIC = some (described Reg.PWR_BASIC) ∧
    expertLocked.expertLocked Reg.PWR_BASIC = true ∧
    (described Reg.PWR_BASIC).basic = true :=
  by decide +kernel

theorem witness_mntPastRead :
    up.pwr.inReset = false ∧
    up.reaches Session.maint = true ∧
    134217728 < (134217725#32).toNat + 4 :=
  by decide +kernel

theorem witness_mntReset :
    (locked 1).pwr.inReset = false ∧
    (locked 1).reaches Session.maint = true :=
  by decide +kernel

theorem witness_mntAbort :
    (locked 1).pwr.inReset = false ∧
    (locked 1).reaches Session.maint = true :=
  by decide +kernel

theorem witness_ringRead :
    onRing.pwr.inReset = false ∧
    onRing.reaches (Session.ring 9) = true ∧
    (onRing.lane 14).state = 4 ∧
    (5#8).toNat = onRing.station ∧
    onRing.hsl.bypassOpen = true ∧
    1 ≤ onRing.station ∧
    onRing.station ≤ 254 ∧
    (onRing.lane 14).quarantine = false ∧
    265 = sessionNum (Session.ring 9) ∧
    Reg.MST_HOLDOVER ∈ [Reg.RTE_LEN, Reg.MST_HOLDOVER, Reg.MST_SET_NS, Reg.EVT_CTRL] ∧
    regDesc Reg.MST_HOLDOVER = some (described Reg.MST_HOLDOVER) :=
  by decide +kernel

theorem witness_ringWrite :
    onRing.pwr.inReset = false ∧
    onRing.reaches (Session.ring 9) = true ∧
    (onRing.lane 14).state = 4 ∧
    (5#8).toNat = onRing.station ∧
    onRing.hsl.bypassOpen = true ∧
    1 ≤ onRing.station ∧
    onRing.station ≤ 254 ∧
    (onRing.lane 14).quarantine = false ∧
    265 = sessionNum (Session.ring 9) ∧
    Reg.MST_HOLDOVER ∈ [Reg.RTE_LEN, Reg.MST_HOLDOVER, Reg.MST_SET_NS, Reg.EVT_CTRL] ∧
    regDesc Reg.MST_HOLDOVER = some (described Reg.MST_HOLDOVER) ∧
    Accepted onRing (Session.ring 9) Reg.MST_HOLDOVER 9 :=
  ⟨by decide +kernel, by decide +kernel, by decide +kernel, by decide +kernel, by decide +kernel, by decide +kernel, by decide +kernel, by decide +kernel, by decide +kernel, by decide +kernel, by decide +kernel, accepted_of (by decide +kernel)⟩

theorem witness_ringLocked :
    ringLock.pwr.inReset = false ∧
    ringLock.reaches (Session.ring 9) = true ∧
    (ringLock.lane 14).state = 4 ∧
    (5#8).toNat = ringLock.station ∧
    ringLock.hsl.bypassOpen = true ∧
    1 ≤ ringLock.station ∧
    ringLock.station ≤ 254 ∧
    (ringLock.lane 14).quarantine = false ∧
    265 = sessionNum (Session.ring 9) ∧
    Reg.MST_HOLDOVER ∈ [Reg.RTE_LEN, Reg.MST_HOLDOVER, Reg.MST_SET_NS, Reg.EVT_CTRL] ∧
    regDesc Reg.MST_HOLDOVER = some (described Reg.MST_HOLDOVER) ∧
    ringLock.ringWrites = true ∧
    ringLock.domainOf (blockOf Reg.MST_HOLDOVER) = some 6 ∧
    (ringLock.lock 6).owner = some 0 ∧
    0 ≠ 265 :=
  by decide +kernel

theorem witness_ringReadOnly :
    (onRing.setReg Reg.CTL_RING_MGMT 1).pwr.inReset = false ∧
    (onRing.setReg Reg.CTL_RING_MGMT 1).reaches (Session.ring 9) = true ∧
    ((onRing.setReg Reg.CTL_RING_MGMT 1).lane 14).state = 4 ∧
    (5#8).toNat = (onRing.setReg Reg.CTL_RING_MGMT 1).station ∧
    (onRing.setReg Reg.CTL_RING_MGMT 1).hsl.bypassOpen = true ∧
    1 ≤ (onRing.setReg Reg.CTL_RING_MGMT 1).station ∧
    (onRing.setReg Reg.CTL_RING_MGMT 1).station ≤ 254 ∧
    ((onRing.setReg Reg.CTL_RING_MGMT 1).lane 14).quarantine = false ∧
    265 = sessionNum (Session.ring 9) ∧
    Reg.MST_HOLDOVER ∈ [Reg.RTE_LEN, Reg.MST_HOLDOVER, Reg.MST_SET_NS, Reg.EVT_CTRL] ∧
    regDesc Reg.MST_HOLDOVER = some (described Reg.MST_HOLDOVER) ∧
    (onRing.setReg Reg.CTL_RING_MGMT 1).ringWrites = false :=
  by decide +kernel

theorem witness_mismatch :
    mismatched.pwr.inReset = false ∧
    mismatched.mismatched (3#6).toNat = true ∧
    ¬(3#6).toNat ∈ mismatched.ctl.mismatch :=
  by decide +kernel

theorem witness_mismatchNone :
    live.pwr.inReset = false ∧
    (live.mismatched (3#6).toNat = false ∨ (3#6).toNat ∈ live.ctl.mismatch) :=
  by decide +kernel

theorem witness_restart :
    Accepted live Session.pcie Reg.CTL_STATE (live.withField Reg.CTL_STATE 31 31 1) :=
  accepted_of (by decide +kernel)

theorem witness_portEnter :
    port1.first < 32 ∧
    (portIn port1 5).rte.active = true :=
  by decide +kernel

theorem witness_portEnter2 :
    port1.first < 32 ∧
    (portIn port1 1).rte.active = true :=
  by decide +kernel

theorem witness_portEnter3 :
    port1.first < 32 ∧
    (portIn port1 1).rte.active = true :=
  by decide +kernel

theorem witness_enablePort :
    0 = (disabled port0).fld Reg.HSF_PORT_SEL 4 0 ∧
    (disabled port0).portRec 0 = some port0 ∧
    Accepted (disabled port0) Session.pcie Reg.HSF_PORT_CTRL ((disabled port0).withField Reg.HSF_PORT_CTRL 0 0 1) ∧
    flagOf ((disabled port0).regI Reg.HSF_PORT_CTRL 0) 0 = false ∧
    ((disabled port0).port 0).state = 0 ∧
    (disabled port0).pwr.hostRef = true :=
  ⟨by decide +kernel, by decide +kernel, accepted_of (by decide +kernel), by decide +kernel⟩

theorem witness_disablePort :
    0 = (enabled port0 5).fld Reg.HSF_PORT_SEL 4 0 ∧
    (enabled port0 5).portRec 0 = some port0 ∧
    Accepted (enabled port0 5) Session.pcie Reg.HSF_PORT_CTRL ((enabled port0 5).withField Reg.HSF_PORT_CTRL 0 0 0) ∧
    flagOf ((enabled port0 5).regI Reg.HSF_PORT_CTRL 0) 0 = true ∧
    ((enabled port0 5).port 0).state ≠ 0 :=
  ⟨by decide +kernel, by decide +kernel, accepted_of (by decide +kernel), by decide +kernel⟩

theorem witness_portRestart :
    0 = (enabled port0 2).fld Reg.HSF_PORT_SEL 4 0 ∧
    (enabled port0 2).portRec 0 = some port0 ∧
    Accepted (enabled port0 2) Session.pcie Reg.HSF_PORT_CTRL
  ((enabled port0 2).withField Reg.HSF_PORT_CTRL 31 31 1) :=
  ⟨by decide +kernel, by decide +kernel, accepted_of (by decide +kernel)⟩

theorem witness_portRestart0 :
    0 = (enabled port0 0).fld Reg.HSF_PORT_SEL 4 0 ∧
    (enabled port0 0).portRec 0 = some port0 ∧
    Accepted (enabled port0 0) Session.pcie Reg.HSF_PORT_CTRL
  ((enabled port0 0).withField Reg.HSF_PORT_CTRL 31 31 1) :=
  ⟨by decide +kernel, by decide +kernel, accepted_of (by decide +kernel)⟩

theorem witness_probe :
    (trained port1 1).pwr.inReset = false ∧
    (trained port1 1).portRec (1#5).toNat = some port1 ∧
    ((trained port1 1).port port1.num).state = 1 ∧
    (trained port1 1).pwr.hostRef = true :=
  by decide +kernel

theorem witness_probe0 :
    (portIn port0 1).pwr.inReset = false ∧
    (portIn port0 1).portRec (0#5).toNat = some port0 ∧
    ((portIn port0 1).port port0.num).state = 1 ∧
    (portIn port0 1).pwr.hostRef = true :=
  by decide +kernel

theorem witness_probeNo :
    (portIn port0 1).pwr.inReset = false ∧
    (portIn port0 1).portRec (0#5).toNat = some port0 :=
  by decide +kernel

theorem witness_probeLate :
    (portIn port0 2).pwr.inReset = false ∧
    (portIn port0 2).portRec (0#5).toNat = some port0 ∧
    (((portIn port0 2).port port0.num).state ≠ 1 ∨ (portIn port0 2).pwr.hostRef = false) :=
  by decide +kernel

theorem witness_timeoutNone :
    (portIn port1 5).pwr.inReset = false ∧
    (portIn port1 5).portRec (1#5).toNat = some port1 ∧
    (((portIn port1 5).port port1.num).state < 2 ∨ ((portIn port1 5).port port1.num).state = 5) :=
  by decide +kernel

theorem witness_timeoutNone1 :
    (portIn port1 1).pwr.inReset = false ∧
    (portIn port1 1).portRec (1#5).toNat = some port1 ∧
    (((portIn port1 1).port port1.num).state < 2 ∨ ((portIn port1 1).port port1.num).state = 5) :=
  by decide +kernel

theorem witness_timeout2 :
    (portIn port1 2).pwr.inReset = false ∧
    (portIn port1 2).portRec (1#5).toNat = some port1 ∧
    ((portIn port1 2).port port1.num).state = 2 :=
  by decide +kernel

theorem witness_timeout3 :
    (portIn port1 3).pwr.inReset = false ∧
    (portIn port1 3).portRec (1#5).toNat = some port1 ∧
    ((portIn port1 3).port port1.num).state = 3 :=
  by decide +kernel

theorem witness_timeout4 :
    (portIn port1 4).pwr.inReset = false ∧
    (portIn port1 4).portRec (1#5).toNat = some port1 ∧
    ((portIn port1 4).port port1.num).state = 4 :=
  by decide +kernel

theorem witness_etherUp :
    (portIn port0 3).pwr.inReset = false ∧
    (portIn port0 3).portRec (0#5).toNat = some port0 ∧
    port0.coding = 0 ∧
    ((portIn port0 3).port port0.num).state = 3 :=
  by decide +kernel

theorem witness_etherDown :
    (portIn port0 5).pwr.inReset = false ∧
    (portIn port0 5).portRec (0#5).toNat = some port0 ∧
    port0.coding = 0 ∧
    ((portIn port0 5).port port0.num).state = 5 :=
  by decide +kernel

theorem witness_etherUpNot :
    (portIn port0 4).pwr.inReset = false ∧
    (portIn port0 4).portRec (0#5).toNat = some port0 ∧
    (port0.coding ≠ 0 ∨ ((portIn port0 4).port port0.num).state ≠ 3) :=
  by decide +kernel

theorem witness_etherDownNot :
    (portIn port0 4).pwr.inReset = false ∧
    (portIn port0 4).portRec (0#5).toNat = some port0 ∧
    (port0.coding ≠ 0 ∨ ((portIn port0 4).port port0.num).state ≠ 5) :=
  by decide +kernel

theorem witness_noPort :
    live.pwr.inReset = false ∧
    live.portRec (31#5).toNat = none :=
  by decide +kernel

theorem witness_signalLost :
    (portIn port1 2).pwr.inReset = false ∧
    (portIn port1 2).rte.active = true ∧
    (portIn port1 2).rte.cfg.portOfLane (2#5).toNat = some port1 ∧
    2 ≤ ((portIn port1 2).port port1.num).state :=
  by decide +kernel

theorem witness_signalLost1 :
    (portIn port1 1).pwr.inReset = false ∧
    (portIn port1 1).rte.active = true ∧
    (portIn port1 1).rte.cfg.portOfLane (2#5).toNat = some port1 ∧
    ((portIn port1 1).port port1.num).state < 2 :=
  by decide +kernel

theorem witness_trainTap :
    (portIn port1 2).pwr.inReset = false ∧
    (portIn port1 2).rte.active = true ∧
    (portIn port1 2).rte.cfg.portOfLane (1#5).toNat = some port1 ∧
    ((portIn port1 2).port port1.num).state = 2 ∧
    crc16 (beBytes 2 (33024#16).toNat ++ beBytes 2 (0#16).toNat) = (BitVec.ofNat 16 (crc16 [129, 0, 0, 0])).toNat ∧
    ((portIn port1 2).fastLane (1#5).toNat).lastReq ≠ some (33024#16).toNat ∧
    (((portIn port1 2).fastLane (1#5).toNat).lastReq ≠ none →
  ((portIn port1 2).fastLane (1#5).toNat).toggle ≠ (33024#16).getLsbD 15) ∧
    requestBad (33024#16).toNat = false ∧
    ((portIn port1 2).fastLane (1#5).toNat).quarantine = false :=
  by decide +kernel

theorem witness_trainTapB :
    (portIn port1 2).pwr.inReset = false ∧
    (portIn port1 2).rte.active = true ∧
    (portIn port1 2).rte.cfg.portOfLane (1#5).toNat = some port1 ∧
    ((portIn port1 2).port port1.num).state = 2 ∧
    crc16 (beBytes 2 (16384#16).toNat ++ beBytes 2 (0#16).toNat) = (BitVec.ofNat 16 (crc16 [64, 0, 0, 0])).toNat ∧
    ((portIn port1 2).fastLane (1#5).toNat).lastReq ≠ some (16384#16).toNat ∧
    (((portIn port1 2).fastLane (1#5).toNat).lastReq ≠ none →
  ((portIn port1 2).fastLane (1#5).toNat).toggle ≠ (16384#16).getLsbD 15) ∧
    requestBad (16384#16).toNat = false ∧
    ((portIn port1 2).fastLane (1#5).toNat).quarantine = false :=
  by decide +kernel

theorem witness_trainEnds :
    nearlyTrained.pwr.inReset = false ∧
    nearlyTrained.rte.active = true ∧
    nearlyTrained.rte.cfg.portOfLane (1#5).toNat = some port1 ∧
    (nearlyTrained.port port1.num).state = 2 ∧
    crc16 (beBytes 2 (16384#16).toNat ++ beBytes 2 (16384#16).toNat) =
  (BitVec.ofNat 16 (crc16 [64, 0, 64, 0])).toNat ∧
    (nearlyTrained.fastLane (1#5).toNat).lastReq ≠ some (16384#16).toNat ∧
    ((nearlyTrained.fastLane (1#5).toNat).lastReq ≠ none →
  (nearlyTrained.fastLane (1#5).toNat).toggle ≠ (16384#16).getLsbD 15) ∧
    requestBad (16384#16).toNat = false ∧
    (nearlyTrained.fastLane (1#5).toNat).quarantine = false :=
  by decide +kernel

theorem witness_trainIdle :
    (portIn port1 3).pwr.inReset = false ∧
    (portIn port1 3).rte.cfg.portOfLane (1#5).toNat = some port1 ∧
    ((portIn port1 3).rte.active = false ∨ ((portIn port1 3).port port1.num).state ≠ 2) :=
  by decide +kernel

theorem witness_trainCrc :
    (portIn port1 2).pwr.inReset = false ∧
    (portIn port1 2).rte.cfg.portOfLane (1#5).toNat = some port1 ∧
    (portIn port1 2).rte.active = true ∧
    ((portIn port1 2).port port1.num).state = 2 ∧
    crc16 (beBytes 2 (0#16).toNat ++ beBytes 2 (0#16).toNat) ≠ (1#16).toNat :=
  by decide +kernel

theorem witness_trainBad :
    (portIn port1 2).pwr.inReset = false ∧
    (portIn port1 2).rte.cfg.portOfLane (1#5).toNat = some port1 ∧
    (portIn port1 2).rte.active = true ∧
    ((portIn port1 2).port port1.num).state = 2 ∧
    crc16 (beBytes 2 (3840#16).toNat ++ beBytes 2 (0#16).toNat) = (BitVec.ofNat 16 (crc16 [15, 0, 0, 0])).toNat ∧
    ((portIn port1 2).fastLane (1#5).toNat).lastReq = none ∧
    requestBad (3840#16).toNat = true :=
  by decide +kernel

theorem witness_capSet :
    (portIn port1 4).pwr.inReset = false ∧
    (portIn port1 4).portRec (1#5).toNat = some port1 ∧
    port1.coding = 1 ∧
    (portIn port1 4).pwr.hostRef = true ∧
    (((portIn port1 4).port port1.num).state = 3 ∨ ((portIn port1 4).port port1.num).state = 4) :=
  by decide +kernel

theorem witness_capSet3 :
    (portIn port1 3).pwr.inReset = false ∧
    (portIn port1 3).portRec (1#5).toNat = some port1 ∧
    port1.coding = 1 ∧
    (portIn port1 3).pwr.hostRef = true ∧
    (((portIn port1 3).port port1.num).state = 3 ∨ ((portIn port1 3).port port1.num).state = 4) :=
  by decide +kernel

theorem witness_capNone :
    (portIn port1 2).pwr.inReset = false ∧
    (portIn port1 2).portRec (1#5).toNat = some port1 ∧
    port1.coding = 1 ∧
    ((portIn port1 2).pwr.hostRef = false ∨
  ((portIn port1 2).port port1.num).state < 3 ∨ 5 < ((portIn port1 2).port port1.num).state) :=
  by decide +kernel

theorem witness_aisSet :
    aisOut.pwr.inReset = false ∧
    aisOut.portRec (1#5).toNat = some port1 ∧
    port1.coding = 1 ∧
    aisOut.pwr.hostRef = true ∧
    (aisOut.port port1.num).state = 5 ∧
    ((aisOut.port port1.num).egressAis = true ∨
  (aisOut.port port1.num).egressRun = false ∧
    List.length
        ((aisOut.port port1.num).egress ++ List.take (port1.width * 1276) (aisOut.port port1.num).arrive) <
      port1.egressMid) :=
  by decide +kernel

theorem witness_fillSet :
    (waitingFill 5).pwr.inReset = false ∧
    (waitingFill 5).portRec (1#5).toNat = some port1 ∧
    port1.coding = 1 ∧
    (waitingFill 5).pwr.hostRef = true ∧
    ((waitingFill 5).port port1.num).state = 5 ∧
    (((waitingFill 5).port port1.num).egressAis = true ∨
  ((waitingFill 5).port port1.num).egressRun = false ∧
    List.length
        (((waitingFill 5).port port1.num).egress ++
          List.take (port1.width * 1276) ((waitingFill 5).port port1.num).arrive) <
      port1.egressMid) :=
  by decide +kernel

theorem witness_frameSet :
    sending.pwr.inReset = false ∧
    sending.portRec (1#5).toNat = some port1 ∧
    port1.coding = 1 ∧
    sending.pwr.hostRef = true ∧
    (sending.port port1.num).state = 5 ∧
    (sending.port port1.num).egressAis = false ∧
    ((sending.port port1.num).egressRun = true ∨
  port1.egressMid ≤
    List.length
      ((sending.port port1.num).egress ++ List.take (port1.width * 1276) (sending.port port1.num).arrive)) ∧
    port1.width *
    streamBytes
      (stuffCode port1.width
        (List.length
          ((sending.port port1.num).egress ++
            List.take (port1.width * 1276) (sending.port port1.num).arrive))) ≤
  List.length
    ((sending.port port1.num).egress ++ List.take (port1.width * 1276) (sending.port port1.num).arrive) :=
  by decide +kernel

theorem witness_frameSetFirst :
    (waitingFill port1.egressMid).pwr.inReset = false ∧
    (waitingFill port1.egressMid).portRec (1#5).toNat = some port1 ∧
    port1.coding = 1 ∧
    (waitingFill port1.egressMid).pwr.hostRef = true ∧
    ((waitingFill port1.egressMid).port port1.num).state = 5 ∧
    ((waitingFill port1.egressMid).port port1.num).egressAis = false ∧
    (((waitingFill port1.egressMid).port port1.num).egressRun = true ∨
  port1.egressMid ≤
    List.length
      (((waitingFill port1.egressMid).port port1.num).egress ++
        List.take (port1.width * 1276) ((waitingFill port1.egressMid).port port1.num).arrive)) ∧
    port1.width *
    streamBytes
      (stuffCode port1.width
        (List.length
          (((waitingFill port1.egressMid).port port1.num).egress ++
            List.take (port1.width * 1276) ((waitingFill port1.egressMid).port port1.num).arrive))) ≤
  List.length
    (((waitingFill port1.egressMid).port port1.num).egress ++
      List.take (port1.width * 1276) ((waitingFill port1.egressMid).port port1.num).arrive) :=
  by decide +kernel

theorem witness_frameSetLong :
    (waitingFill (port1.egressMid + 2000)).pwr.inReset = false ∧
    (waitingFill (port1.egressMid + 2000)).portRec (1#5).toNat = some port1 ∧
    port1.coding = 1 ∧
    (waitingFill (port1.egressMid + 2000)).pwr.hostRef = true ∧
    ((waitingFill (port1.egressMid + 2000)).port port1.num).state = 5 ∧
    ((waitingFill (port1.egressMid + 2000)).port port1.num).egressAis = false ∧
    (((waitingFill (port1.egressMid + 2000)).port port1.num).egressRun = true ∨
  port1.egressMid ≤
    List.length
      (((waitingFill (port1.egressMid + 2000)).port port1.num).egress ++
        List.take (port1.width * 1276) ((waitingFill (port1.egressMid + 2000)).port port1.num).arrive)) ∧
    port1.width *
    streamBytes
      (stuffCode port1.width
        (List.length
          (((waitingFill (port1.egressMid + 2000)).port port1.num).egress ++
            List.take (port1.width * 1276) ((waitingFill (port1.egressMid + 2000)).port port1.num).arrive))) ≤
  List.length
    (((waitingFill (port1.egressMid + 2000)).port port1.num).egress ++
      List.take (port1.width * 1276) ((waitingFill (port1.egressMid + 2000)).port port1.num).arrive) :=
  by decide +kernel

theorem witness_framesBad :
    lanesLocked.pwr.inReset = false ∧
    lanesLocked.portRec (1#5).toNat = some port1 ∧
    port1.coding = 1 ∧
    [badFrame, goodFrame 1].length = port1.width ∧
    3 ≤ (lanesLocked.port port1.num).state ∧
    (lanesLocked.port port1.num).state ≤ 5 :=
  by decide +kernel

theorem witness_framesGood :
    lanesLocked.pwr.inReset = false ∧
    lanesLocked.portRec (1#5).toNat = some port1 ∧
    port1.coding = 1 ∧
    [goodFrame 0, goodFrame 1].length = port1.width ∧
    3 ≤ (lanesLocked.port port1.num).state ∧
    (lanesLocked.port port1.num).state ≤ 5 :=
  by decide +kernel

theorem witness_framesNear :
    lanesLocked.pwr.inReset = false ∧
    lanesLocked.portRec (1#5).toNat = some port1 ∧
    port1.coding = 1 ∧
    [goodFrame 0, goodFrame 1 9].length = port1.width ∧
    3 ≤ (lanesLocked.port port1.num).state ∧
    (lanesLocked.port port1.num).state ≤ 5 :=
  by decide +kernel

theorem witness_framesFar :
    lanesLocked.pwr.inReset = false ∧
    lanesLocked.portRec (1#5).toNat = some port1 ∧
    port1.coding = 1 ∧
    [goodFrame 0, goodFrame 1 10].length = port1.width ∧
    3 ≤ (lanesLocked.port port1.num).state ∧
    (lanesLocked.port port1.num).state ≤ 5 :=
  by decide +kernel

theorem witness_frames3 :
    (portIn port1 3).pwr.inReset = false ∧
    (portIn port1 3).portRec (1#5).toNat = some port1 ∧
    port1.coding = 1 ∧
    [goodFrame 0, goodFrame 1].length = port1.width ∧
    3 ≤ ((portIn port1 3).port port1.num).state ∧
    ((portIn port1 3).port port1.num).state ≤ 5 :=
  by decide +kernel

theorem witness_frames3Locked :
    nearlyLocked.pwr.inReset = false ∧
    nearlyLocked.portRec (1#5).toNat = some port1 ∧
    port1.coding = 1 ∧
    [goodFrame 0, goodFrame 1].length = port1.width ∧
    3 ≤ (nearlyLocked.port port1.num).state ∧
    (nearlyLocked.port port1.num).state ≤ 5 :=
  by decide +kernel

theorem witness_framesEarly :
    (portIn port1 2).pwr.inReset = false ∧
    (portIn port1 2).portRec (1#5).toNat = some port1 ∧
    port1.coding = 1 ∧
    ((portIn port1 2).port port1.num).state < 3 :=
  by decide +kernel

theorem witness_quarFast :
    laneQuarantined.pwr.inReset = false ∧
    (31#6).toNat < 32 ∧
    (laneQuarantined.fastLane (31#6).toNat).quarantine = true :=
  by decide +kernel

theorem witness_quarLegacy :
    laneQuarantined.pwr.inReset = false ∧
    (47#6).toNat = 32 + 15 ∧
    (laneQuarantined.lane 15).quarantine = true :=
  by decide +kernel

theorem witness_quarNone :
    laneQuarantined.pwr.inReset = false ∧
    ((46#6).toNat < 32 ∧ (laneQuarantined.fastLane (46#6).toNat).quarantine = false ∨
  32 ≤ (46#6).toNat ∧ (laneQuarantined.lane ((46#6).toNat - 32)).quarantine = false) :=
  by decide +kernel

theorem witness_adaptFrozen :
    adaptFrozen.pwr.inReset = false ∧
    ((∃ r,
    (1#6).toNat < 32 ∧
    adaptFrozen.rte.active = true ∧
    adaptFrozen.rte.cfg.portOfLane (1#6).toNat = some r ∧ 2 ≤ (adaptFrozen.port r.num).state) ∨
  ∃ l, l < 16 ∧ (1#6).toNat = 32 + l ∧ 2 ≤ (adaptFrozen.lane l).state) ∧
    (adaptFrozen.rail (laneLoopId (1#6).toNat)).freeze = true :=
  ⟨by decide +kernel, .inl ⟨port1, by decide +kernel⟩, by decide +kernel⟩

theorem witness_adaptFast :
    (portIn port1 2).pwr.inReset = false ∧
    ((∃ r,
    (2#6).toNat < 32 ∧
    (portIn port1 2).rte.active = true ∧
    (portIn port1 2).rte.cfg.portOfLane (2#6).toNat = some r ∧ 2 ≤ ((portIn port1 2).port r.num).state) ∨
  ∃ l, l < 16 ∧ (2#6).toNat = 32 + l ∧ 2 ≤ ((portIn port1 2).lane l).state) ∧
    ((portIn port1 2).rail (laneLoopId (2#6).toNat)).freeze = false :=
  ⟨by decide +kernel, .inl ⟨port1, by decide +kernel⟩, by decide +kernel⟩

theorem witness_adaptLegacy :
    (laneIn 1 2).pwr.inReset = false ∧
    ((∃ r,
    (33#6).toNat < 32 ∧
    (laneIn 1 2).rte.active = true ∧
    (laneIn 1 2).rte.cfg.portOfLane (33#6).toNat = some r ∧ 2 ≤ ((laneIn 1 2).port r.num).state) ∨
  ∃ l, l < 16 ∧ (33#6).toNat = 32 + l ∧ 2 ≤ ((laneIn 1 2).lane l).state) ∧
    ((laneIn 1 2).rail (laneLoopId (33#6).toNat)).freeze = false :=
  ⟨by decide +kernel, .inr ⟨1, by decide +kernel⟩, by decide +kernel⟩

theorem witness_adaptOff :
    (laneIn 1 1).pwr.inReset = false ∧
    (∀ (r : HostPort), (laneIn 1 1).rte.cfg.portOfLane (33#6).toNat = some r → ((laneIn 1 1).port r.num).state < 2) ∧
    (32 ≤ (33#6).toNat → ((laneIn 1 1).lane ((33#6).toNat - 32)).state < 2) :=
  by decide +kernel

theorem witness_laneEnter :
    1 < 16 ∧
    live.rte.active = true ∧
    live.ringLane 1 = false :=
  by decide +kernel

theorem witness_laneEnter1 :
    0 < 16 ∧
    (slipping 2).rte.active = true ∧
    (slipping 2).ringLane 0 = false :=
  by decide +kernel

theorem witness_laneOn :
    1 = (laneDisabled 1).fld Reg.HSL_LANE_SEL 3 0 ∧
    (laneDisabled 1).laneUsed 1 = true ∧
    Accepted (laneDisabled 1) Session.pcie Reg.HSL_LANE_CTRL ((laneDisabled 1).withField Reg.HSL_LANE_CTRL 0 0 1) ∧
    flagOf ((laneDisabled 1).regI Reg.HSL_LANE_CTRL 1) 0 = false ∧
    ((laneDisabled 1).lane 1).state = 0 ∧
    (laneDisabled 1).pwr.hostRef = true :=
  ⟨by decide +kernel, by decide +kernel, accepted_of (by decide +kernel), by decide +kernel⟩

theorem witness_laneOff :
    15 = (laneOn 15 4).fld Reg.HSL_LANE_SEL 3 0 ∧
    (laneOn 15 4).laneUsed 15 = true ∧
    Accepted (laneOn 15 4) Session.pcie Reg.HSL_LANE_CTRL ((laneOn 15 4).withField Reg.HSL_LANE_CTRL 0 0 0) ∧
    flagOf ((laneOn 15 4).regI Reg.HSL_LANE_CTRL 15) 0 = true ∧
    ((laneOn 15 4).lane 15).state ≠ 0 :=
  ⟨by decide +kernel, by decide +kernel, accepted_of (by decide +kernel), by decide +kernel⟩

theorem witness_laneRestart :
    1 = (laneOn 1 4).fld Reg.HSL_LANE_SEL 3 0 ∧
    (laneOn 1 4).laneUsed 1 = true ∧
    Accepted (laneOn 1 4) Session.pcie Reg.HSL_LANE_CTRL ((laneOn 1 4).withField Reg.HSL_LANE_CTRL 31 31 1) :=
  ⟨by decide +kernel, by decide +kernel, accepted_of (by decide +kernel)⟩

theorem witness_codes :
    (∀ (b : Byte),
  Group.k b ∈ [Group.d 74, Group.k 188, Group.d 241, Group.d 235, Group.k 251, Group.d 0] → b ∈ specials) :=
  by decide +kernel

theorem witness_laneAdvance :
    (laneIn 15 3).pwr.inReset = false ∧
    15 = (15#4).toNat ∧
    (laneIn 15 3).laneUsed 15 = true ∧
    (laneIn 15 3).pwr.hostRef = true ∧
    1 ≤ ((laneIn 15 3).lane 15).state ∧
    ((laneIn 15 3).lane 15).state ≤ 3 :=
  by decide +kernel

theorem witness_laneTimeout :
    (laneIn 0 1).pwr.inReset = false ∧
    0 = (0#4).toNat ∧
    (laneIn 0 1).laneUsed 0 = true ∧
    1 ≤ ((laneIn 0 1).lane 0).state ∧
    ((laneIn 0 1).lane 0).state ≤ 3 :=
  by decide +kernel

theorem witness_laneLost :
    (laneIn 0 4).pwr.inReset = false ∧
    0 = (0#4).toNat ∧
    ((laneIn 0 4).lane 0).state = 4 :=
  by decide +kernel

theorem witness_laneIdle :
    (laneIn 0 4).pwr.inReset = false ∧
    0 = (0#4).toNat ∧
    ((laneIn 0 4).laneUsed 0 = false ∨ ((laneIn 0 4).lane 0).state = 0 ∨ 3 < ((laneIn 0 4).lane 0).state) :=
  by decide +kernel

theorem witness_laneDown :
    (laneIn 0 3).pwr.inReset = false ∧
    0 = (0#4).toNat ∧
    ((laneIn 0 3).lane 0).state ≠ 4 :=
  by decide +kernel

theorem witness_fleamIn :
    (slipping 2).pwr.inReset = false ∧
    0 = (0#4).toNat ∧
    ((slipping 2).lane 0).state = 4 ∧
    (slipping 2).ringLane 0 = false ∧
    (slipping 2).rte.active = true ∧
    outsideBad ((slipping 2).begin.laneRead 0 []).snd +
    (fleamRead
        (((slipping 2).begin.laneRead 0 []).fst.laneRead 0 (fleamCodes (List.replicate 128 7))).snd).snd =
  0 ∧
    List.length
    (fleamRead
        (((slipping 2).begin.laneRead 0 []).fst.laneRead 0 (fleamCodes (List.replicate 128 7))).snd).fst =
  128 * (slipping 2).laneRate 0 ∧
    ((slipping 2).fleam 0).inWait.length < 3 :=
  by decide +kernel

theorem witness_fleamDrop :
    (slipping 3).pwr.inReset = false ∧
    0 = (0#4).toNat ∧
    ((slipping 3).lane 0).state = 4 ∧
    (slipping 3).ringLane 0 = false ∧
    (slipping 3).rte.active = true ∧
    outsideBad ((slipping 3).begin.laneRead 0 []).snd +
    (fleamRead
        (((slipping 3).begin.laneRead 0 []).fst.laneRead 0 (fleamCodes (List.replicate 128 7))).snd).snd =
  0 ∧
    List.length
    (fleamRead
        (((slipping 3).begin.laneRead 0 []).fst.laneRead 0 (fleamCodes (List.replicate 128 7))).snd).fst =
  128 * (slipping 3).laneRate 0 ∧
    ((slipping 3).fleam 0).inWait.length = 3 :=
  by decide +kernel

theorem witness_fleamBad :
    (slipping 3).pwr.inReset = false ∧
    0 = (0#4).toNat ∧
    ((slipping 3).lane 0).state = 4 ∧
    (slipping 3).ringLane 0 = false ∧
    (slipping 3).rte.active = true :=
  by decide +kernel

theorem witness_fleamLost :
    misaligned.pwr.inReset = false ∧
    0 = (0#4).toNat ∧
    (misaligned.lane 0).state = 4 ∧
    misaligned.ringLane 0 = false ∧
    misaligned.rte.active = true :=
  by decide +kernel

theorem witness_fleamOut :
    (slipping 3).pwr.inReset = false ∧
    0 = (0#4).toNat ∧
    ((slipping 3).lane 0).state = 4 ∧
    ((slipping 3).fleam 0).outPrimed = true ∧
    ((slipping 3).fleam 0).outWait = [[2]] :=
  by decide +kernel

theorem witness_fleamRepeat :
    slipRepeat.pwr.inReset = false ∧
    0 = (0#4).toNat ∧
    (slipRepeat.lane 0).state = 4 ∧
    (slipRepeat.fleam 0).outPrimed = true ∧
    (slipRepeat.fleam 0).outWait = [] ∧
    (slipRepeat.fleam 0).outLast = some [3] :=
  by decide +kernel

theorem witness_ringLaneLost :
    ringOpen.pwr.inReset = false ∧
    ringOpen.rte.active = true ∧
    ringOpen.ringLane 14 = true ∧
    (ringOpen.lane 14).state = 4 ∧
    ringOpen.hsl.bypassOpen = true :=
  by decide +kernel

theorem witness_ringCause :
    ringOpen.pwr.inReset = false ∧
    ringOpen.rte.active = true ∧
    ringOpen.ringOn = true ∧
    ringOpen.hsl.bypassOpen = true ∧
    1 ≤ (4#4).toNat ∧
    (4#4).toNat ≤ 4 :=
  by decide +kernel

theorem witness_ringCauseNone :
    ringOpen.pwr.inReset = false ∧
    ringOpen.rte.active = true ∧
    (ringOpen.ringOn = false ∨ ringOpen.hsl.bypassOpen = false ∨ (5#4).toNat = 0 ∨ 4 < (5#4).toNat) :=
  by decide +kernel

theorem witness_ringSupply :
    ringOpen.pwr.inReset = false ∧
    ringOpen.rte.active = true ∧
    ringOpen.hsl.bypassOpen = true :=
  by decide +kernel

theorem witness_ringSupplyShut :
    ringReady.pwr.inReset = false ∧
    ringReady.rte.active = true ∧
    ringReady.hsl.bypassOpen = false :=
  by decide +kernel

theorem witness_ringInsert :
    ringReady.pwr.inReset = false ∧
    ringReady.rte.active = true ∧
    ringReady.mayInsert = true ∧
    ringReady.hsl.bypassOpen = false :=
  by decide +kernel

theorem witness_ringInsertNot :
    ringOpen.pwr.inReset = false ∧
    ringOpen.rte.active = true ∧
    (ringOpen.mayInsert = false ∨ ringOpen.hsl.bypassOpen = true) :=
  by decide +kernel

theorem witness_ringUnpowered :
    unpowered.pwr.inReset = false ∧
    unpowered.rte.active = true ∧
    unpowered.hsl.vddRing = false :=
  by decide +kernel

theorem witness_ringWindow :
    ringSlave.pwr.inReset = false ∧
    ringSlave.ringOn = true ∧
    (ringSlave.lane (ringRx false)).state = 4 ∧
    List.map dataByte
    ((ringSlave.begin.laneRead (ringRx false) []).fst.laneRead (ringRx false) (dataCodes passing)).snd =
  List.map some passing :=
  by decide +kernel

theorem witness_ringOther :
    ringSlave.pwr.inReset = false ∧
    ringSlave.ringOn = true ∧
    (ringSlave.lane (ringRx false)).state = 4 ∧
    List.map dataByte
    ((ringSlave.begin.laneRead (ringRx false) []).fst.laneRead (ringRx false) (dataCodes passing)).snd =
  List.map some passing :=
  by decide +kernel

theorem witness_ringBad :
    ringSlave.pwr.inReset = false ∧
    ringSlave.ringOn = true ∧
    (ringSlave.lane (ringRx true)).state = 4 ∧
    List.map dataByte
    ((ringSlave.begin.laneRead (ringRx true) []).fst.laneRead (ringRx true) (dataCodes [1, 2])).snd =
  List.map some [1, 2] ∧
    ringOk [1, 2] = false :=
  by decide +kernel

theorem witness_ringMine :
    ringSlave.pwr.inReset = false ∧
    ringSlave.ringOn = true ∧
    (ringSlave.lane (ringRx true)).state = 4 ∧
    List.map dataByte
    ((ringSlave.begin.laneRead (ringRx true) []).fst.laneRead (ringRx true) (dataCodes mine)).snd =
  List.map some mine ∧
    ringOk mine = true ∧
    beAt mine 1 1 = ringSlave.station :=
  by decide +kernel

theorem witness_ringStrayTime :
    ringOpen.pwr.inReset = false ∧
    ringOpen.ringOn = true ∧
    (ringOpen.lane (ringRx true)).state = 4 ∧
    List.map dataByte
    ((ringOpen.begin.laneRead (ringRx true) []).fst.laneRead (ringRx true) (dataCodes (typed 1 7 [] 0))).snd =
  List.map some (typed 1 7 [] 0) ∧
    ringOk (typed 1 7 [] 0) = true ∧
    beAt (typed 1 7 [] 0) 1 1 ≠ ringOpen.station ∧
    ringOpen.timeMaster = true ∧
    beAt (typed 1 7 [] 0) 0 1 = 1 :=
  by decide +kernel

theorem witness_ringLast :
    ringSlave.pwr.inReset = false ∧
    ringSlave.ringOn = true ∧
    (ringSlave.lane (ringRx true)).state = 4 ∧
    List.map dataByte
    ((ringSlave.begin.laneRead (ringRx true) []).fst.laneRead (ringRx true)
        (dataCodes (typed 32 7 [] 255))).snd =
  List.map some (typed 32 7 [] 255) ∧
    ringOk (typed 32 7 [] 255) = true ∧
    beAt (typed 32 7 [] 255) 1 1 ≠ ringSlave.station ∧
    (¬(ringSlave.timeMaster = true ∧ beAt (typed 32 7 [] 255) 0 1 = 1)) ∧
    beAt (typed 32 7 [] 255) 3 1 = 255 :=
  by decide +kernel

theorem witness_ringPass :
    ringSlave.pwr.inReset = false ∧
    ringSlave.ringOn = true ∧
    (ringSlave.lane (ringRx false)).state = 4 ∧
    List.map dataByte
    ((ringSlave.begin.laneRead (ringRx false) []).fst.laneRead (ringRx false) (dataCodes passing)).snd =
  List.map some passing ∧
    ringOk passing = true ∧
    beAt passing 1 1 ≠ ringSlave.station ∧
    (¬(ringSlave.timeMaster = true ∧ beAt passing 0 1 = 1)) ∧
    beAt passing 3 1 ≠ 255 ∧
    ((ringSlave.lane (ringRx false)).quarantine = true ∨ beAt passing 0 1 ≠ 1 ∧ beAt passing 0 1 ≠ 2) :=
  by decide +kernel

theorem witness_ringTimeMsg :
    ringSlave.pwr.inReset = false ∧
    ringSlave.ringOn = true ∧
    (ringSlave.lane (ringRx false)).state = 4 ∧
    List.map dataByte
    ((ringSlave.begin.laneRead (ringRx false) []).fst.laneRead (ringRx false)
        (dataCodes (typed 1 255 timeMessage 0))).snd =
  List.map some (typed 1 255 timeMessage 0) ∧
    ringOk (typed 1 255 timeMessage 0) = true ∧
    beAt (typed 1 255 timeMessage 0) 1 1 ≠ ringSlave.station ∧
    (¬(ringSlave.timeMaster = true ∧ beAt (typed 1 255 timeMessage 0) 0 1 = 1)) ∧
    beAt (typed 1 255 timeMessage 0) 3 1 ≠ 255 ∧
    (ringSlave.lane (ringRx false)).quarantine = false ∧
    beAt (typed 1 255 timeMessage 0) 0 1 = 1 :=
  by decide +kernel

theorem witness_ringNoMgmt :
    ringSlave.pwr.inReset = false ∧
    ringSlave.ringOn = true ∧
    (ringSlave.lane (ringRx false)).state = 4 ∧
    List.map dataByte
    ((ringSlave.begin.laneRead (ringRx false) []).fst.laneRead (ringRx false)
        (dataCodes (typed 2 5 mgmtRead 0))).snd =
  List.map some (typed 2 5 mgmtRead 0) ∧
    ringOk (typed 2 5 mgmtRead 0) = true ∧
    beAt (typed 2 5 mgmtRead 0) 1 1 ≠ ringSlave.station ∧
    (¬(ringSlave.timeMaster = true ∧ beAt (typed 2 5 mgmtRead 0) 0 1 = 1)) ∧
    beAt (typed 2 5 mgmtRead 0) 3 1 ≠ 255 ∧
    (ringSlave.lane (ringRx false)).quarantine = false ∧
    beAt (typed 2 5 mgmtRead 0) 0 1 = 2 ∧
    (flagOf (ringSlave.reg Reg.CTL_RING_MGMT) 0 = false ∨
  beAt (typed 2 5 mgmtRead 0) 2 1 ≠ 255 ∧ beAt (typed 2 5 mgmtRead 0) 2 1 ≠ ringSlave.station) :=
  by decide +kernel

theorem witness_ringMgmtAll :
    ringManaged.pwr.inReset = false ∧
    ringManaged.ringOn = true ∧
    (ringManaged.lane (ringRx false)).state = 4 ∧
    List.map dataByte
    ((ringManaged.begin.laneRead (ringRx false) []).fst.laneRead (ringRx false)
        (dataCodes (typed 2 255 mgmtRead 0))).snd =
  List.map some (typed 2 255 mgmtRead 0) ∧
    ringOk (typed 2 255 mgmtRead 0) = true ∧
    beAt (typed 2 255 mgmtRead 0) 1 1 ≠ ringManaged.station ∧
    (¬(ringManaged.timeMaster = true ∧ beAt (typed 2 255 mgmtRead 0) 0 1 = 1)) ∧
    beAt (typed 2 255 mgmtRead 0) 3 1 ≠ 255 ∧
    (ringManaged.lane (ringRx false)).quarantine = false ∧
    beAt (typed 2 255 mgmtRead 0) 0 1 = 2 ∧
    flagOf (ringManaged.reg Reg.CTL_RING_MGMT) 0 = true ∧
    beAt (typed 2 255 mgmtRead 0) 2 1 = 255 :=
  by decide +kernel

theorem witness_ringMgmtBad :
    ringManaged.pwr.inReset = false ∧
    ringManaged.ringOn = true ∧
    (ringManaged.lane (ringRx false)).state = 4 ∧
    List.map dataByte
    ((ringManaged.begin.laneRead (ringRx false) []).fst.laneRead (ringRx false)
        (dataCodes (typed 2 5 [3] 0))).snd =
  List.map some (typed 2 5 [3] 0) ∧
    ringOk (typed 2 5 [3] 0) = true ∧
    beAt (typed 2 5 [3] 0) 1 1 ≠ ringManaged.station ∧
    (¬(ringManaged.timeMaster = true ∧ beAt (typed 2 5 [3] 0) 0 1 = 1)) ∧
    beAt (typed 2 5 [3] 0) 3 1 ≠ 255 ∧
    (ringManaged.lane (ringRx false)).quarantine = false ∧
    beAt (typed 2 5 [3] 0) 0 1 = 2 ∧
    flagOf (ringManaged.reg Reg.CTL_RING_MGMT) 0 = true ∧
    beAt (typed 2 5 [3] 0) 2 1 ≠ 255 ∧
    beAt (typed 2 5 [3] 0) 2 1 = ringManaged.station ∧
    (beAt (typed 2 5 [3] 0) 4 2 ≠ 12 ∨ ¬beAt (typed 2 5 [3] 0) 6 1 ∈ [1, 2, 129, 130]) :=
  by decide +kernel

theorem witness_ringMgmtReply :
    ringManaged.pwr.inReset = false ∧
    ringManaged.ringOn = true ∧
    (ringManaged.lane (ringRx false)).state = 4 ∧
    List.map dataByte
    ((ringManaged.begin.laneRead (ringRx false) []).fst.laneRead (ringRx false)
        (dataCodes (typed 2 5 (mgmtAnswer 129 0 0 0 0) 0))).snd =
  List.map some (typed 2 5 (mgmtAnswer 129 0 0 0 0) 0) ∧
    ringOk (typed 2 5 (mgmtAnswer 129 0 0 0 0) 0) = true ∧
    beAt (typed 2 5 (mgmtAnswer 129 0 0 0 0) 0) 1 1 ≠ ringManaged.station ∧
    (¬(ringManaged.timeMaster = true ∧ beAt (typed 2 5 (mgmtAnswer 129 0 0 0 0) 0) 0 1 = 1)) ∧
    beAt (typed 2 5 (mgmtAnswer 129 0 0 0 0) 0) 3 1 ≠ 255 ∧
    (ringManaged.lane (ringRx false)).quarantine = false ∧
    beAt (typed 2 5 (mgmtAnswer 129 0 0 0 0) 0) 0 1 = 2 ∧
    flagOf (ringManaged.reg Reg.CTL_RING_MGMT) 0 = true ∧
    beAt (typed 2 5 (mgmtAnswer 129 0 0 0 0) 0) 2 1 ≠ 255 ∧
    beAt (typed 2 5 (mgmtAnswer 129 0 0 0 0) 0) 2 1 = ringManaged.station ∧
    beAt (typed 2 5 (mgmtAnswer 129 0 0 0 0) 0) 4 2 = 12 ∧
    (beAt (typed 2 5 (mgmtAnswer 129 0 0 0 0) 0) 6 1 = 129 ∨ beAt (typed 2 5 (mgmtAnswer 129 0 0 0 0) 0) 6 1 = 130) :=
  by decide +kernel

theorem witness_ringMgmt :
    ringManaged.pwr.inReset = false ∧
    ringManaged.ringOn = true ∧
    (ringManaged.lane (ringRx false)).state = 4 ∧
    List.map dataByte
    ((ringManaged.begin.laneRead (ringRx false) []).fst.laneRead (ringRx false)
        (dataCodes (typed 2 5 mgmtRead 0))).snd =
  List.map some (typed 2 5 mgmtRead 0) ∧
    ringOk (typed 2 5 mgmtRead 0) = true ∧
    beAt (typed 2 5 mgmtRead 0) 1 1 ≠ ringManaged.station ∧
    (¬(ringManaged.timeMaster = true ∧ beAt (typed 2 5 mgmtRead 0) 0 1 = 1)) ∧
    beAt (typed 2 5 mgmtRead 0) 3 1 ≠ 255 ∧
    (ringManaged.lane (ringRx false)).quarantine = false ∧
    beAt (typed 2 5 mgmtRead 0) 0 1 = 2 ∧
    flagOf (ringManaged.reg Reg.CTL_RING_MGMT) 0 = true ∧
    beAt (typed 2 5 mgmtRead 0) 2 1 ≠ 255 ∧
    beAt (typed 2 5 mgmtRead 0) 2 1 = ringManaged.station ∧
    beAt (typed 2 5 mgmtRead 0) 4 2 = 12 ∧
    (beAt (typed 2 5 mgmtRead 0) 6 1 = 1 ∨ beAt (typed 2 5 mgmtRead 0) 6 1 = 2) :=
  by decide +kernel

theorem witness_ringInvalid :
    ringOpen.pwr.inReset = false ∧
    ringOpen.ringOn = true ∧
    (ringOpen.lane (ringRx false)).state = 4 ∧
    none ∈
  List.map dataByte
    ((ringOpen.begin.laneRead (ringRx false) []).fst.laneRead (ringRx false) (0 :: dataCodes [1, 2])).snd ∧
    (ringOpen.lane (ringRx false)).cvAgo = [] ∧
    (ringBetween (ringOpen.begin.laneRead (ringRx false) []).snd).snd +
    List.count none
      (List.map dataByte
        ((ringOpen.begin.laneRead (ringRx false) []).fst.laneRead (ringRx false) (0 :: dataCodes [1, 2])).snd) <
  ringOpen.fldI Reg.HSL_LANE_CTRL (ringRx false) 15 8 :=
  by decide +kernel

theorem witness_ringInvalidGap :
    ringOpen.pwr.inReset = false ∧
    ringOpen.ringOn = true ∧
    (ringOpen.lane (ringRx false)).state = 4 ∧
    none ∈
  List.map dataByte
    ((ringOpen.begin.laneRead (ringRx false) [0]).fst.laneRead (ringRx false) (0 :: dataCodes [1, 2])).snd ∧
    (ringOpen.lane (ringRx false)).cvAgo = [] ∧
    (ringBetween (ringOpen.begin.laneRead (ringRx false) [0]).snd).snd +
    List.count none
      (List.map dataByte
        ((ringOpen.begin.laneRead (ringRx false) [0]).fst.laneRead (ringRx false)
            (0 :: dataCodes [1, 2])).snd) <
  ringOpen.fldI Reg.HSL_LANE_CTRL (ringRx false) 15 8 :=
  by decide +kernel

theorem witness_ringLockEnds :
    ringFragile.pwr.inReset = false ∧
    ringFragile.ringOn = true ∧
    (ringFragile.lane (ringRx false)).state = 4 ∧
    none ∈
  List.map dataByte
    ((ringFragile.begin.laneRead (ringRx false) []).fst.laneRead (ringRx false) (0 :: dataCodes [1, 2])).snd ∧
    (ringFragile.lane (ringRx false)).cvAgo = [] ∧
    ringFragile.fldI Reg.HSL_LANE_CTRL (ringRx false) 15 8 ≤
  (ringBetween (ringFragile.begin.laneRead (ringRx false) []).snd).snd +
    List.count none
      (List.map dataByte
        ((ringFragile.begin.laneRead (ringRx false) []).fst.laneRead (ringRx false)
            (0 :: dataCodes [1, 2])).snd) ∧
    ([] : List (BitVec 10)).length + (0 :: dataCodes [1, 2]).length ≤ 1022 :=
  by decide +kernel

theorem witness_ringOff :
    noRing.pwr.inReset = false ∧
    noRing.ringOn = false :=
  by decide +kernel

theorem witness_ringDown :
    live.pwr.inReset = false ∧
    (live.ringOn = false ∨ (live.lane (ringRx true)).state ≠ 4) :=
  by decide +kernel

theorem witness_ringMark :
    ringOpen.pwr.inReset = false ∧
    ringOpen.ringOn = true ∧
    (ringOpen.timeSrc ≠ 2 ∨ true ≠ ringOpen.timeLane) :=
  by decide +kernel

theorem witness_ringMarkPass :
    ringSlave.pwr.inReset = false ∧
    ringSlave.ringOn = true ∧
    (ringSlave.timeSrc ≠ 2 ∨ true ≠ ringSlave.timeLane) :=
  by decide +kernel

theorem witness_ringMarkTimed :
    ringTimed.pwr.inReset = false ∧
    ringTimed.ringOn = true ∧
    ringTimed.timeSrc = 2 ∧
    false = ringTimed.timeLane :=
  by decide +kernel

theorem witness_ringMarkTime :
    ringTimed.pwr.inReset = false ∧
    ringTimed.ringOn = true ∧
    ringTimed.timeSrc = 2 ∧
    false = ringTimed.timeLane ∧
    ringTimed.mst.msgTime = none :=
  by decide +kernel

theorem witness_ringTime :
    ringOpen.pwr.inReset = false ∧
    ringOpen.ringOn = true ∧
    ringOpen.timeMaster = true ∧
    ringOpen.hsl.bypassOpen = true ∧
    ringOpen.hsl.timeDue = true :=
  by decide +kernel

theorem witness_ringTimeNot :
    live.pwr.inReset = false ∧
    (live.ringOn = false ∨ live.timeMaster = false ∨ live.hsl.bypassOpen = false ∨ live.hsl.timeDue = false) :=
  by decide +kernel

theorem witness_counter :
    281474976710655 < 2 ^ 48 ∧
    bytesAt (alignWord ++ counterField 281474976710655) 16 8 = counterField 281474976710655 :=
  by decide +kernel

theorem witness_frameFirst :
    (hunting false).pwr.inReset = false ∧
    (hunting false).pathUp Path.a = true ∧
    (hunting false).locked Path.a = true ∧
    ((hunting false).path Path.a).rxd.chain.eqd = [] :=
  by decide +kernel

theorem witness_frameSecond :
    (hunting true).pwr.inReset = false ∧
    (hunting true).pathUp Path.a = true ∧
    (hunting true).locked Path.a = true ∧
    ((hunting true).path Path.a).rxd.chain.eqd = [] :=
  by decide +kernel

theorem witness_frameSecondBad :
    (hunting true).pwr.inReset = false ∧
    (hunting true).pathUp Path.a = true ∧
    (hunting true).locked Path.a = true ∧
    ((hunting true).path Path.a).rxd.chain.eqd = [] :=
  by decide +kernel

theorem witness_frameLosing :
    (losing 3).pwr.inReset = false ∧
    (losing 3).pathUp Path.a = true ∧
    (losing 3).locked Path.a = true ∧
    ((losing 3).path Path.a).rxd.chain.eqd = [] :=
  by decide +kernel

theorem witness_frameLost :
    (losing 4).pwr.inReset = false ∧
    (losing 4).pathUp Path.a = true ∧
    (losing 4).locked Path.a = true ∧
    ((losing 4).path Path.a).rxd.chain.eqd = [] :=
  by decide +kernel

theorem witness_frameSf :
    (counted 7).pwr.inReset = false ∧
    (counted 7).pathUp Path.a = true ∧
    (counted 7).locked Path.a = true ∧
    ((counted 7).path Path.a).rxd.chain.eqd = [] ∧
    ((counted 7).lfr Path.a).inFrame = true ∧
    alignErrors (padTo 3200 (frameWith 8 []).overhead) ≤ 3 ∧
    (frameWith 8 []).uncorr = [] ∧
    ((counted 7).lfr Path.a).inSf = false ∧
    readCounter (padTo 3200 (frameWith 8 []).overhead) = some 8 ∧
    ((counted 7).lfr Path.a).lastCtr = some ((8 + 2 ^ 48 - 1) % 2 ^ 48) :=
  by decide +kernel

theorem witness_frameSfWrap :
    (counted 281474976710655).pwr.inReset = false ∧
    (counted 281474976710655).pathUp Path.a = true ∧
    (counted 281474976710655).locked Path.a = true ∧
    ((counted 281474976710655).path Path.a).rxd.chain.eqd = [] ∧
    ((counted 281474976710655).lfr Path.a).inFrame = true ∧
    alignErrors (padTo 3200 (frameWith 0 []).overhead) ≤ 3 ∧
    (frameWith 0 []).uncorr = [] ∧
    ((counted 281474976710655).lfr Path.a).inSf = false ∧
    readCounter (padTo 3200 (frameWith 0 []).overhead) = some 0 ∧
    ((counted 281474976710655).lfr Path.a).lastCtr = some ((0 + 2 ^ 48 - 1) % 2 ^ 48) :=
  by decide +kernel

theorem witness_frameExp :
    (inFrame 7).pwr.inReset = false ∧
    (inFrame 7).pathUp Path.a = true ∧
    (inFrame 7).locked Path.a = true ∧
    ((inFrame 7).path Path.a).rxd.chain.eqd = [] ∧
    ((inFrame 7).lfr Path.a).inFrame = true ∧
    alignErrors (padTo 3200 (frameWith 8 []).overhead) ≤ 3 ∧
    (frameWith 8 []).uncorr = [] ∧
    ((inFrame 7).lfr Path.a).inSf = true ∧
    readCounter (padTo 3200 (frameWith 8 []).overhead) = some 8 ∧
    8 = (((inFrame 7).lfr Path.a).expected + 1) % 2 ^ 48 :=
  by decide +kernel

theorem witness_frameOff :
    (inFrame 7).pwr.inReset = false ∧
    (inFrame 7).pathUp Path.a = true ∧
    (inFrame 7).locked Path.a = true ∧
    ((inFrame 7).path Path.a).rxd.chain.eqd = [] ∧
    ((inFrame 7).lfr Path.a).inFrame = true ∧
    alignErrors (padTo 3200 (frameWith 9 []).overhead) ≤ 3 ∧
    (frameWith 9 []).uncorr = [] ∧
    ((inFrame 7).lfr Path.a).inSf = true ∧
    readCounter (padTo 3200 (frameWith 9 []).overhead) = some 9 ∧
    9 ≠ (((inFrame 7).lfr Path.a).expected + 1) % 2 ^ 48 :=
  by decide +kernel

theorem witness_gccTx :
    Accepted live Session.pcie (pathReg Path.b Reg.PA_LFR_GCC_TX)
  (live.withField (pathReg Path.b Reg.PA_LFR_GCC_TX) 15 0 (16#16).toNat) :=
  accepted_of (by decide +kernel)

theorem witness_gccSame :
    0 = channelOn.pfld Path.a Reg.PA_LFR_GCC_SEL 2 0 ∧
    Accepted channelOn Session.pcie (pathReg Path.a Reg.PA_LFR_GCC_CTRL)
  (channelOn.withField (pathReg Path.a Reg.PA_LFR_GCC_CTRL) 0 0 (b2n true)) ∧
    channelOn.gccEn Path.a 0 = true :=
  ⟨by decide +kernel, accepted_of (by decide +kernel), by decide +kernel⟩

theorem witness_gccOn :
    0 = live.pfld Path.a Reg.PA_LFR_GCC_SEL 2 0 ∧
    Accepted live Session.pcie (pathReg Path.a Reg.PA_LFR_GCC_CTRL)
  (live.withField (pathReg Path.a Reg.PA_LFR_GCC_CTRL) 0 0 (b2n true)) ∧
    live.gccEn Path.a 0 ≠ true ∧
    (live.lfr Path.a).gcc.length = 8 :=
  ⟨by decide +kernel, accepted_of (by decide +kernel), by decide +kernel⟩

theorem witness_gccOff :
    0 = channelOn.pfld Path.a Reg.PA_LFR_GCC_SEL 2 0 ∧
    Accepted channelOn Session.pcie (pathReg Path.a Reg.PA_LFR_GCC_CTRL)
  (channelOn.withField (pathReg Path.a Reg.PA_LFR_GCC_CTRL) 0 0 (b2n false)) ∧
    channelOn.gccEn Path.a 0 ≠ false ∧
    (channelOn.lfr Path.a).gcc.length = 8 :=
  ⟨by decide +kernel, accepted_of (by decide +kernel), by decide +kernel⟩

theorem witness_slotEntry :
    Accepted live Session.pcie Reg.CNT_SLOT_ENTRY (BitVec.ofNat 32 (32769#16).toNat) :=
  accepted_of (by decide +kernel)

theorem witness_slotGen :
    Accepted live Session.pcie (Reg.CNT_SLOT_GEN_A + 4 * pathNum Path.b)
  (live.withField (Reg.CNT_SLOT_GEN_A + 4 * pathNum Path.b) 15 0 (1#16).toNat) ∧
    1#16 ≠ (live.mstPath Path.b).tx.slot :=
  ⟨accepted_of (by decide +kernel), by decide +kernel⟩

theorem witness_slotGenBack :
    Accepted gensStaged Session.pcie (Reg.CNT_SLOT_GEN_A + 4 * pathNum Path.a)
  (gensStaged.withField (Reg.CNT_SLOT_GEN_A + 4 * pathNum Path.a) 15 0 (0#16).toNat) ∧
    0#16 = (gensStaged.mstPath Path.a).tx.slot :=
  ⟨accepted_of (by decide +kernel), by decide +kernel⟩

theorem witness_gateGen :
    Accepted live Session.pcie
  (match Path.b with
  | Path.a => Reg.SCH_GATE_GEN_A
  | Path.b => Reg.SCH_GATE_GEN_B)
  (live.withField
    (match Path.b with
    | Path.a => Reg.SCH_GATE_GEN_A
    | Path.b => Reg.SCH_GATE_GEN_B)
    15 0 (1#16).toNat) ∧
    1#16 ≠ (live.mstPath Path.b).tx.gate :=
  ⟨accepted_of (by decide +kernel), by decide +kernel⟩

theorem witness_gateGenBack :
    Accepted gensStaged Session.pcie
  (match Path.a with
  | Path.a => Reg.SCH_GATE_GEN_A
  | Path.b => Reg.SCH_GATE_GEN_B)
  (gensStaged.withField
    (match Path.a with
    | Path.a => Reg.SCH_GATE_GEN_A
    | Path.b => Reg.SCH_GATE_GEN_B)
    15 0 (0#16).toNat) ∧
    0#16 = (gensStaged.mstPath Path.a).tx.gate :=
  ⟨accepted_of (by decide +kernel), by decide +kernel⟩

theorem witness_frameUnlocked :
    live.pwr.inReset = false ∧
    (live.pathUp Path.a = false ∨ live.locked Path.a = false) :=
  by decide +kernel

theorem witness_tagTaken :
    slotStaged.pwr.inReset = false ∧
    slotStaged.pathUp Path.a = true ∧
    slotStaged.locked Path.a = true ∧
    (slotStaged.path Path.a).rxd.chain.eqd = [] ∧
    (slotStaged.lfr Path.a).inFrame = true ∧
    alignErrors (padTo 3200 (frameOf 8 [tagBlock [9, 0, 0, 0, 0, 0]]).overhead) ≤ 3 ∧
    (frameOf 8 [tagBlock [9, 0, 0, 0, 0, 0]]).uncorr = [] ∧
    (slotStaged.lfr Path.a).inSf = true ∧
    8 = ((slotStaged.lfr Path.a).expected + 1) % 2 ^ 48 ∧
    readCounter (padTo 3200 (frameOf 8 [tagBlock [9, 0, 0, 0, 0, 0]]).overhead) = some 8 ∧
    crcOk (padTo 3200 (frameOf 8 [tagBlock [9, 0, 0, 0, 0, 0]]).overhead) 40 22 = true :=
  by decide +kernel

theorem witness_tagUnknown :
    trackUnknown.pwr.inReset = false ∧
    trackUnknown.pathUp Path.a = true ∧
    trackUnknown.locked Path.a = true ∧
    (trackUnknown.path Path.a).rxd.chain.eqd = [] ∧
    (trackUnknown.lfr Path.a).inFrame = true ∧
    alignErrors (padTo 3200 (frameOf 8 [tagBlock [0, 0, 5, 0, 0, 0]]).overhead) ≤ 3 ∧
    (frameOf 8 [tagBlock [0, 0, 5, 0, 0, 0]]).uncorr = [] ∧
    (trackUnknown.lfr Path.a).inSf = true ∧
    8 = ((trackUnknown.lfr Path.a).expected + 1) % 2 ^ 48 ∧
    readCounter (padTo 3200 (frameOf 8 [tagBlock [0, 0, 5, 0, 0, 0]]).overhead) = some 8 ∧
    crcOk (padTo 3200 (frameOf 8 [tagBlock [0, 0, 5, 0, 0, 0]]).overhead) 40 22 = true :=
  by decide +kernel

theorem witness_tagKnown :
    trackKnown.pwr.inReset = false ∧
    trackKnown.pathUp Path.a = true ∧
    trackKnown.locked Path.a = true ∧
    (trackKnown.path Path.a).rxd.chain.eqd = [] ∧
    (trackKnown.lfr Path.a).inFrame = true ∧
    alignErrors (padTo 3200 (frameOf 8 [tagBlock [0, 0, 0, 0, 0, 0]]).overhead) ≤ 3 ∧
    (frameOf 8 [tagBlock [0, 0, 0, 0, 0, 0]]).uncorr = [] ∧
    (trackKnown.lfr Path.a).inSf = true ∧
    8 = ((trackKnown.lfr Path.a).expected + 1) % 2 ^ 48 ∧
    readCounter (padTo 3200 (frameOf 8 [tagBlock [0, 0, 0, 0, 0, 0]]).overhead) = some 8 ∧
    crcOk (padTo 3200 (frameOf 8 [tagBlock [0, 0, 0, 0, 0, 0]]).overhead) 40 22 = true :=
  by decide +kernel

theorem witness_tagUntold :
    tagSeen.pwr.inReset = false ∧
    tagSeen.pathUp Path.a = true ∧
    tagSeen.locked Path.a = true ∧
    (tagSeen.path Path.a).rxd.chain.eqd = [] ∧
    (tagSeen.lfr Path.a).inFrame = true ∧
    alignErrors (padTo 3200 (frameOf 8 [tagBlock [0, 0, 0, 5, 0, 0]]).overhead) ≤ 3 ∧
    (frameOf 8 [tagBlock [0, 0, 0, 5, 0, 0]]).uncorr = [] ∧
    (tagSeen.lfr Path.a).inSf = true ∧
    8 = ((tagSeen.lfr Path.a).expected + 1) % 2 ^ 48 ∧
    readCounter (padTo 3200 (frameOf 8 [tagBlock [0, 0, 0, 5, 0, 0]]).overhead) = some 8 ∧
    crcOk (padTo 3200 (frameOf 8 [tagBlock [0, 0, 0, 5, 0, 0]]).overhead) 40 22 = true :=
  by decide +kernel

theorem witness_recordState :
    (inFrame 7).pwr.inReset = false ∧
    (inFrame 7).pathUp Path.a = true ∧
    (inFrame 7).locked Path.a = true ∧
    ((inFrame 7).path Path.a).rxd.chain.eqd = [] ∧
    ((inFrame 7).lfr Path.a).inFrame = true ∧
    alignErrors (padTo 3200 (frameOf 8 [record 1152 3 5 900 1 (List.replicate 6 0)]).overhead) ≤ 3 ∧
    (frameOf 8 [record 1152 3 5 900 1 (List.replicate 6 0)]).uncorr = [] ∧
    ((inFrame 7).lfr Path.a).inSf = true ∧
    8 = (((inFrame 7).lfr Path.a).expected + 1) % 2 ^ 48 ∧
    readCounter (padTo 3200 (frameOf 8 [record 1152 3 5 900 1 (List.replicate 6 0)]).overhead) = some 8 ∧
    1152 ∈ [1152, 1184] ∧
    crcOk (padTo 3200 (frameOf 8 [record 1152 3 5 900 1 (List.replicate 6 0)]).overhead) 1152 30 = true ∧
    (2 < beAt (padTo 3200 (frameOf 8 [record 1152 3 5 900 1 (List.replicate 6 0)]).overhead) 1152 1 ∨
  63 < beAt (padTo 3200 (frameOf 8 [record 1152 3 5 900 1 (List.replicate 6 0)]).overhead) (1152 + 1) 1 ∨
    128 ≤ beAt (padTo 3200 (frameOf 8 [record 1152 3 5 900 1 (List.replicate 6 0)]).overhead) (1152 + 8) 2 ∨
      allZero
          (bytesAt (padTo 3200 (frameOf 8 [record 1152 3 5 900 1 (List.replicate 6 0)]).overhead) (1152 + 24)
            6) =
        false) :=
  by decide +kernel

theorem witness_recordHandle :
    (inFrame 7).pwr.inReset = false ∧
    (inFrame 7).pathUp Path.a = true ∧
    (inFrame 7).locked Path.a = true ∧
    ((inFrame 7).path Path.a).rxd.chain.eqd = [] ∧
    ((inFrame 7).lfr Path.a).inFrame = true ∧
    alignErrors (padTo 3200 (frameOf 8 [record 1184 1 64 900 1 (List.replicate 6 0)]).overhead) ≤ 3 ∧
    (frameOf 8 [record 1184 1 64 900 1 (List.replicate 6 0)]).uncorr = [] ∧
    ((inFrame 7).lfr Path.a).inSf = true ∧
    8 = (((inFrame 7).lfr Path.a).expected + 1) % 2 ^ 48 ∧
    readCounter (padTo 3200 (frameOf 8 [record 1184 1 64 900 1 (List.replicate 6 0)]).overhead) = some 8 ∧
    1184 ∈ [1152, 1184] ∧
    crcOk (padTo 3200 (frameOf 8 [record 1184 1 64 900 1 (List.replicate 6 0)]).overhead) 1184 30 = true ∧
    (2 < beAt (padTo 3200 (frameOf 8 [record 1184 1 64 900 1 (List.replicate 6 0)]).overhead) 1184 1 ∨
  63 < beAt (padTo 3200 (frameOf 8 [record 1184 1 64 900 1 (List.replicate 6 0)]).overhead) (1184 + 1) 1 ∨
    128 ≤ beAt (padTo 3200 (frameOf 8 [record 1184 1 64 900 1 (List.replicate 6 0)]).overhead) (1184 + 8) 2 ∨
      allZero
          (bytesAt (padTo 3200 (frameOf 8 [record 1184 1 64 900 1 (List.replicate 6 0)]).overhead) (1184 + 24)
            6) =
        false) :=
  by decide +kernel

theorem witness_recordKinds :
    (inFrame 7).pwr.inReset = false ∧
    (inFrame 7).pathUp Path.a = true ∧
    (inFrame 7).locked Path.a = true ∧
    ((inFrame 7).path Path.a).rxd.chain.eqd = [] ∧
    ((inFrame 7).lfr Path.a).inFrame = true ∧
    alignErrors (padTo 3200 (frameOf 8 [record 1184 1 5 900 128 (List.replicate 6 0)]).overhead) ≤ 3 ∧
    (frameOf 8 [record 1184 1 5 900 128 (List.replicate 6 0)]).uncorr = [] ∧
    ((inFrame 7).lfr Path.a).inSf = true ∧
    8 = (((inFrame 7).lfr Path.a).expected + 1) % 2 ^ 48 ∧
    readCounter (padTo 3200 (frameOf 8 [record 1184 1 5 900 128 (List.replicate 6 0)]).overhead) = some 8 ∧
    1184 ∈ [1152, 1184] ∧
    crcOk (padTo 3200 (frameOf 8 [record 1184 1 5 900 128 (List.replicate 6 0)]).overhead) 1184 30 = true ∧
    (2 < beAt (padTo 3200 (frameOf 8 [record 1184 1 5 900 128 (List.replicate 6 0)]).overhead) 1184 1 ∨
  63 < beAt (padTo 3200 (frameOf 8 [record 1184 1 5 900 128 (List.replicate 6 0)]).overhead) (1184 + 1) 1 ∨
    128 ≤ beAt (padTo 3200 (frameOf 8 [record 1184 1 5 900 128 (List.replicate 6 0)]).overhead) (1184 + 8) 2 ∨
      allZero
          (bytesAt (padTo 3200 (frameOf 8 [record 1184 1 5 900 128 (List.replicate 6 0)]).overhead) (1184 + 24)
            6) =
        false) :=
  by decide +kernel

theorem witness_recordTail :
    (inFrame 7).pwr.inReset = false ∧
    (inFrame 7).pathUp Path.a = true ∧
    (inFrame 7).locked Path.a = true ∧
    ((inFrame 7).path Path.a).rxd.chain.eqd = [] ∧
    ((inFrame 7).lfr Path.a).inFrame = true ∧
    alignErrors (padTo 3200 (frameOf 8 [record 1152 1 5 900 1 [0, 0, 0, 0, 0, 1]]).overhead) ≤ 3 ∧
    (frameOf 8 [record 1152 1 5 900 1 [0, 0, 0, 0, 0, 1]]).uncorr = [] ∧
    ((inFrame 7).lfr Path.a).inSf = true ∧
    8 = (((inFrame 7).lfr Path.a).expected + 1) % 2 ^ 48 ∧
    readCounter (padTo 3200 (frameOf 8 [record 1152 1 5 900 1 [0, 0, 0, 0, 0, 1]]).overhead) = some 8 ∧
    1152 ∈ [1152, 1184] ∧
    crcOk (padTo 3200 (frameOf 8 [record 1152 1 5 900 1 [0, 0, 0, 0, 0, 1]]).overhead) 1152 30 = true ∧
    (2 < beAt (padTo 3200 (frameOf 8 [record 1152 1 5 900 1 [0, 0, 0, 0, 0, 1]]).overhead) 1152 1 ∨
  63 < beAt (padTo 3200 (frameOf 8 [record 1152 1 5 900 1 [0, 0, 0, 0, 0, 1]]).overhead) (1152 + 1) 1 ∨
    128 ≤ beAt (padTo 3200 (frameOf 8 [record 1152 1 5 900 1 [0, 0, 0, 0, 0, 1]]).overhead) (1152 + 8) 2 ∨
      allZero
          (bytesAt (padTo 3200 (frameOf 8 [record 1152 1 5 900 1 [0, 0, 0, 0, 0, 1]]).overhead) (1152 + 24) 6) =
        false) :=
  by decide +kernel

theorem witness_recordNew :
    (inFrame 7).pwr.inReset = false ∧
    (inFrame 7).pathUp Path.a = true ∧
    (inFrame 7).locked Path.a = true ∧
    ((inFrame 7).path Path.a).rxd.chain.eqd = [] ∧
    ((inFrame 7).lfr Path.a).inFrame = true ∧
    alignErrors (padTo 3200 (frameOf 8 [record 1152 1 5 9 1 (List.replicate 6 0)]).overhead) ≤ 3 ∧
    (frameOf 8 [record 1152 1 5 9 1 (List.replicate 6 0)]).uncorr = [] ∧
    ((inFrame 7).lfr Path.a).inSf = true ∧
    8 = (((inFrame 7).lfr Path.a).expected + 1) % 2 ^ 48 ∧
    readCounter (padTo 3200 (frameOf 8 [record 1152 1 5 9 1 (List.replicate 6 0)]).overhead) = some 8 ∧
    crcOk (padTo 3200 (frameOf 8 [record 1152 1 5 9 1 (List.replicate 6 0)]).overhead) 1152 30 = true ∧
    5 = beAt (padTo 3200 (frameOf 8 [record 1152 1 5 9 1 (List.replicate 6 0)]).overhead) 1153 1 ∧
    5 ≤ 63 ∧
    9 = beAt (padTo 3200 (frameOf 8 [record 1152 1 5 9 1 (List.replicate 6 0)]).overhead) 1154 6 ∧
    beAt (padTo 3200 (frameOf 8 [record 1152 1 5 9 1 (List.replicate 6 0)]).overhead) 1160 2 < 128 ∧
    allZero (bytesAt (padTo 3200 (frameOf 8 [record 1152 1 5 9 1 (List.replicate 6 0)]).overhead) 1176 6) = true ∧
    (crcOk (padTo 3200 (frameOf 8 [record 1152 1 5 9 1 (List.replicate 6 0)]).overhead) 1184 30 = false ∨
  beAt (padTo 3200 (frameOf 8 [record 1152 1 5 9 1 (List.replicate 6 0)]).overhead) 1184 1 = 0) ∧
    beAt (padTo 3200 (frameOf 8 [record 1152 1 5 9 1 (List.replicate 6 0)]).overhead) 1152 1 = 1 ∧
    (∀ (a : Announcement), a ∈ ((inFrame 7).mstPath Path.a).announced → a.handle ≠ 5 ∨ a.target ≠ 9) ∧
    frameLe 9 8 = false :=
  by decide +kernel

theorem witness_recordLate :
    (inFrame 7).pwr.inReset = false ∧
    (inFrame 7).pathUp Path.a = true ∧
    (inFrame 7).locked Path.a = true ∧
    ((inFrame 7).path Path.a).rxd.chain.eqd = [] ∧
    ((inFrame 7).lfr Path.a).inFrame = true ∧
    alignErrors (padTo 3200 (frameOf 8 [record 1152 1 5 8 1 (List.replicate 6 0)]).overhead) ≤ 3 ∧
    (frameOf 8 [record 1152 1 5 8 1 (List.replicate 6 0)]).uncorr = [] ∧
    ((inFrame 7).lfr Path.a).inSf = true ∧
    8 = (((inFrame 7).lfr Path.a).expected + 1) % 2 ^ 48 ∧
    readCounter (padTo 3200 (frameOf 8 [record 1152 1 5 8 1 (List.replicate 6 0)]).overhead) = some 8 ∧
    crcOk (padTo 3200 (frameOf 8 [record 1152 1 5 8 1 (List.replicate 6 0)]).overhead) 1152 30 = true ∧
    5 = beAt (padTo 3200 (frameOf 8 [record 1152 1 5 8 1 (List.replicate 6 0)]).overhead) 1153 1 ∧
    5 ≤ 63 ∧
    8 = beAt (padTo 3200 (frameOf 8 [record 1152 1 5 8 1 (List.replicate 6 0)]).overhead) 1154 6 ∧
    beAt (padTo 3200 (frameOf 8 [record 1152 1 5 8 1 (List.replicate 6 0)]).overhead) 1160 2 < 128 ∧
    allZero (bytesAt (padTo 3200 (frameOf 8 [record 1152 1 5 8 1 (List.replicate 6 0)]).overhead) 1176 6) = true ∧
    (crcOk (padTo 3200 (frameOf 8 [record 1152 1 5 8 1 (List.replicate 6 0)]).overhead) 1184 30 = false ∨
  beAt (padTo 3200 (frameOf 8 [record 1152 1 5 8 1 (List.replicate 6 0)]).overhead) 1184 1 = 0) ∧
    beAt (padTo 3200 (frameOf 8 [record 1152 1 5 8 1 (List.replicate 6 0)]).overhead) 1152 1 = 1 ∧
    (∀ (a : Announcement), a ∈ ((inFrame 7).mstPath Path.a).announced → a.handle ≠ 5 ∨ a.target ≠ 8) ∧
    frameLe 8 8 = true :=
  by decide +kernel

theorem witness_recordGone :
    announcedOne.pwr.inReset = false ∧
    announcedOne.pathUp Path.a = true ∧
    announcedOne.locked Path.a = true ∧
    (announcedOne.path Path.a).rxd.chain.eqd = [] ∧
    (announcedOne.lfr Path.a).inFrame = true ∧
    alignErrors (padTo 3200 (frameOf 8 [record 1152 2 5 900 1 (List.replicate 6 0)]).overhead) ≤ 3 ∧
    (frameOf 8 [record 1152 2 5 900 1 (List.replicate 6 0)]).uncorr = [] ∧
    (announcedOne.lfr Path.a).inSf = true ∧
    8 = ((announcedOne.lfr Path.a).expected + 1) % 2 ^ 48 ∧
    readCounter (padTo 3200 (frameOf 8 [record 1152 2 5 900 1 (List.replicate 6 0)]).overhead) = some 8 ∧
    crcOk (padTo 3200 (frameOf 8 [record 1152 2 5 900 1 (List.replicate 6 0)]).overhead) 1152 30 = true ∧
    5 = beAt (padTo 3200 (frameOf 8 [record 1152 2 5 900 1 (List.replicate 6 0)]).overhead) 1153 1 ∧
    5 ≤ 63 ∧
    900 = beAt (padTo 3200 (frameOf 8 [record 1152 2 5 900 1 (List.replicate 6 0)]).overhead) 1154 6 ∧
    beAt (padTo 3200 (frameOf 8 [record 1152 2 5 900 1 (List.replicate 6 0)]).overhead) 1160 2 < 128 ∧
    allZero (bytesAt (padTo 3200 (frameOf 8 [record 1152 2 5 900 1 (List.replicate 6 0)]).overhead) 1176 6) = true ∧
    (crcOk (padTo 3200 (frameOf 8 [record 1152 2 5 900 1 (List.replicate 6 0)]).overhead) 1184 30 = false ∨
  beAt (padTo 3200 (frameOf 8 [record 1152 2 5 900 1 (List.replicate 6 0)]).overhead) 1184 1 = 0) ∧
    beAt (padTo 3200 (frameOf 8 [record 1152 2 5 900 1 (List.replicate 6 0)]).overhead) 1152 1 = 2 :=
  by decide +kernel

theorem witness_reservedHead :
    (inFrame 7).pwr.inReset = false ∧
    (inFrame 7).pathUp Path.a = true ∧
    (inFrame 7).locked Path.a = true ∧
    ((inFrame 7).path Path.a).rxd.chain.eqd = [] ∧
    ((inFrame 7).lfr Path.a).inFrame = true ∧
    alignErrors (padTo 3200 (frameOf 8 [(24, closed ([1] ++ List.replicate 13 0))]).overhead) ≤ 3 ∧
    (frameOf 8 [(24, closed ([1] ++ List.replicate 13 0))]).uncorr = [] ∧
    ((inFrame 7).lfr Path.a).inSf = true ∧
    8 = (((inFrame 7).lfr Path.a).expected + 1) % 2 ^ 48 ∧
    readCounter (padTo 3200 (frameOf 8 [(24, closed ([1] ++ List.replicate 13 0))]).overhead) = some 8 ∧
    crcOk (padTo 3200 (frameOf 8 [(24, closed ([1] ++ List.replicate 13 0))]).overhead) 24 14 = true ∧
    beAt (padTo 3200 (frameOf 8 [(24, closed ([1] ++ List.replicate 13 0))]).overhead) 24 1 % 8 ≠ 0 :=
  by decide +kernel

theorem witness_reservedStatus :
    (inFrame 7).pwr.inReset = false ∧
    (inFrame 7).pathUp Path.a = true ∧
    (inFrame 7).locked Path.a = true ∧
    ((inFrame 7).path Path.a).rxd.chain.eqd = [] ∧
    ((inFrame 7).lfr Path.a).inFrame = true ∧
    alignErrors
    (padTo 3200 (frameOf 8 [(64, closed (List.replicate 5 0 ++ [64] ++ List.replicate 56 0))]).overhead) ≤
  3 ∧
    (frameOf 8 [(64, closed (List.replicate 5 0 ++ [64] ++ List.replicate 56 0))]).uncorr = [] ∧
    ((inFrame 7).lfr Path.a).inSf = true ∧
    8 = (((inFrame 7).lfr Path.a).expected + 1) % 2 ^ 48 ∧
    readCounter
    (padTo 3200 (frameOf 8 [(64, closed (List.replicate 5 0 ++ [64] ++ List.replicate 56 0))]).overhead) =
  some 8 ∧
    crcOk (padTo 3200 (frameOf 8 [(64, closed (List.replicate 5 0 ++ [64] ++ List.replicate 56 0))]).overhead) 64
    62 =
  true ∧
    bitsOf
    (beAt (padTo 3200 (frameOf 8 [(64, closed (List.replicate 5 0 ++ [64] ++ List.replicate 56 0))]).overhead)
      69 1)
    6 0 ≠
  0 :=
  by decide +kernel

set_option maxRecDepth 20000 in
theorem witness_chanIdle :
    (channelWith id).pwr.inReset = false ∧
    (channelWith id).pathUp Path.a = true ∧
    (channelWith id).locked Path.a = true ∧
    ((channelWith id).path Path.a).rxd.chain.eqd = [] ∧
    ((channelWith id).lfr Path.a).inFrame = true ∧
    alignErrors (padTo 3200 (frameOf 8 [chunk 0 0]).overhead) ≤ 3 ∧
    (frameOf 8 [chunk 0 0]).uncorr = [] ∧
    ((channelWith id).lfr Path.a).inSf = true ∧
    8 = (((channelWith id).lfr Path.a).expected + 1) % 2 ^ 48 ∧
    readCounter (padTo 3200 (frameOf 8 [chunk 0 0]).overhead) = some 8 ∧
    3 < 8 ∧
    (channelWith id).gccEn Path.a 3 = true ∧
    ((channelWith id).lfr Path.a).gcc.length = 8 ∧
    crcOk (bytesAt (padTo 3200 (frameOf 8 [chunk 0 0]).overhead) (1280 + 128 * 3) 128) 0 126 = true ∧
    (beAt (bytesAt (padTo 3200 (frameOf 8 [chunk 0 0]).overhead) (1280 + 128 * 3) 128) 0 1).testBit 7 = false :=
  by decide +kernel

set_option maxRecDepth 20000 in
theorem witness_chanBroken :
    (channelWith fun x => Chan.mk x.txRd x.rxWr x.discard x.overflow x.txErr x.txMsg (some [1])).pwr.inReset = false ∧
    (channelWith fun x => Chan.mk x.txRd x.rxWr x.discard x.overflow x.txErr x.txMsg (some [1])).pathUp Path.a =
  true ∧
    (channelWith fun x => Chan.mk x.txRd x.rxWr x.discard x.overflow x.txErr x.txMsg (some [1])).locked Path.a =
  true ∧
    ((channelWith fun x => Chan.mk x.txRd x.rxWr x.discard x.overflow x.txErr x.txMsg (some [1])).path
          Path.a).rxd.chain.eqd =
  [] ∧
    ((channelWith fun x => Chan.mk x.txRd x.rxWr x.discard x.overflow x.txErr x.txMsg (some [1])).lfr
      Path.a).inFrame =
  true ∧
    alignErrors (padTo 3200 (frameOf 8 []).overhead) ≤ 3 ∧
    (frameOf 8 []).uncorr = [] ∧
    ((channelWith fun x => Chan.mk x.txRd x.rxWr x.discard x.overflow x.txErr x.txMsg (some [1])).lfr Path.a).inSf =
  true ∧
    8 =
  (((channelWith fun x => Chan.mk x.txRd x.rxWr x.discard x.overflow x.txErr x.txMsg (some [1])).lfr
          Path.a).expected +
      1) %
    2 ^ 48 ∧
    readCounter (padTo 3200 (frameOf 8 []).overhead) = some 8 ∧
    3 < 8 ∧
    (channelWith fun x => Chan.mk x.txRd x.rxWr x.discard x.overflow x.txErr x.txMsg (some [1])).gccEn Path.a 3 =
  true ∧
    ((channelWith fun x => Chan.mk x.txRd x.rxWr x.discard x.overflow x.txErr x.txMsg (some [1])).lfr
        Path.a).gcc.length =
  8 ∧
    (crcOk (bytesAt (padTo 3200 (frameOf 8 []).overhead) (1280 + 128 * 3) 128) 0 126 = false ∨
  (beAt (bytesAt (padTo 3200 (frameOf 8 []).overhead) (1280 + 128 * 3) 128) 0 1).testBit 7 = true ∧
    (beAt (bytesAt (padTo 3200 (frameOf 8 []).overhead) (1280 + 128 * 3) 128) 1 1 = 0 ∨
      124 < beAt (bytesAt (padTo 3200 (frameOf 8 []).overhead) (1280 + 128 * 3) 128) 1 1)) ∧
    ((channelWith fun x => Chan.mk x.txRd x.rxWr x.discard x.overflow x.txErr x.txMsg (some [1])).chan Path.a
      3).rxMsg ≠
  none :=
  by decide +kernel

set_option maxRecDepth 20000 in
theorem witness_chanBadLen :
    (channelWith fun x => Chan.mk x.txRd x.rxWr x.discard x.overflow x.txErr x.txMsg (some [1])).pwr.inReset = false ∧
    (channelWith fun x => Chan.mk x.txRd x.rxWr x.discard x.overflow x.txErr x.txMsg (some [1])).pathUp Path.a =
  true ∧
    (channelWith fun x => Chan.mk x.txRd x.rxWr x.discard x.overflow x.txErr x.txMsg (some [1])).locked Path.a =
  true ∧
    ((channelWith fun x => Chan.mk x.txRd x.rxWr x.discard x.overflow x.txErr x.txMsg (some [1])).path
          Path.a).rxd.chain.eqd =
  [] ∧
    ((channelWith fun x => Chan.mk x.txRd x.rxWr x.discard x.overflow x.txErr x.txMsg (some [1])).lfr
      Path.a).inFrame =
  true ∧
    alignErrors (padTo 3200 (frameOf 8 [chunk 128 125]).overhead) ≤ 3 ∧
    (frameOf 8 [chunk 128 125]).uncorr = [] ∧
    ((channelWith fun x => Chan.mk x.txRd x.rxWr x.discard x.overflow x.txErr x.txMsg (some [1])).lfr Path.a).inSf =
  true ∧
    8 =
  (((channelWith fun x => Chan.mk x.txRd x.rxWr x.discard x.overflow x.txErr x.txMsg (some [1])).lfr
          Path.a).expected +
      1) %
    2 ^ 48 ∧
    readCounter (padTo 3200 (frameOf 8 [chunk 128 125]).overhead) = some 8 ∧
    3 < 8 ∧
    (channelWith fun x => Chan.mk x.txRd x.rxWr x.discard x.overflow x.txErr x.txMsg (some [1])).gccEn Path.a 3 =
  true ∧
    ((channelWith fun x => Chan.mk x.txRd x.rxWr x.discard x.overflow x.txErr x.txMsg (some [1])).lfr
        Path.a).gcc.length =
  8 ∧
    (crcOk (bytesAt (padTo 3200 (frameOf 8 [chunk 128 125]).overhead) (1280 + 128 * 3) 128) 0 126 = false ∨
  (beAt (bytesAt (padTo 3200 (frameOf 8 [chunk 128 125]).overhead) (1280 + 128 * 3) 128) 0 1).testBit 7 = true ∧
    (beAt (bytesAt (padTo 3200 (frameOf 8 [chunk 128 125]).overhead) (1280 + 128 * 3) 128) 1 1 = 0 ∨
      124 < beAt (bytesAt (padTo 3200 (frameOf 8 [chunk 128 125]).overhead) (1280 + 128 * 3) 128) 1 1)) ∧
    ((channelWith fun x => Chan.mk x.txRd x.rxWr x.discard x.overflow x.txErr x.txMsg (some [1])).chan Path.a
      3).rxMsg ≠
  none :=
  by decide +kernel

set_option maxRecDepth 20000 in
theorem witness_chanBadQuiet :
    (channelWith id).pwr.inReset = false ∧
    (channelWith id).pathUp Path.a = true ∧
    (channelWith id).locked Path.a = true ∧
    ((channelWith id).path Path.a).rxd.chain.eqd = [] ∧
    ((channelWith id).lfr Path.a).inFrame = true ∧
    alignErrors (padTo 3200 (frameOf 8 [chunk 128 0]).overhead) ≤ 3 ∧
    (frameOf 8 [chunk 128 0]).uncorr = [] ∧
    ((channelWith id).lfr Path.a).inSf = true ∧
    8 = (((channelWith id).lfr Path.a).expected + 1) % 2 ^ 48 ∧
    readCounter (padTo 3200 (frameOf 8 [chunk 128 0]).overhead) = some 8 ∧
    3 < 8 ∧
    (channelWith id).gccEn Path.a 3 = true ∧
    ((channelWith id).lfr Path.a).gcc.length = 8 ∧
    (crcOk (bytesAt (padTo 3200 (frameOf 8 [chunk 128 0]).overhead) (1280 + 128 * 3) 128) 0 126 = false ∨
  (beAt (bytesAt (padTo 3200 (frameOf 8 [chunk 128 0]).overhead) (1280 + 128 * 3) 128) 0 1).testBit 7 = true ∧
    (beAt (bytesAt (padTo 3200 (frameOf 8 [chunk 128 0]).overhead) (1280 + 128 * 3) 128) 1 1 = 0 ∨
      124 < beAt (bytesAt (padTo 3200 (frameOf 8 [chunk 128 0]).overhead) (1280 + 128 * 3) 128) 1 1)) ∧
    ((channelWith id).chan Path.a 3).rxMsg = none :=
  by decide +kernel

set_option maxRecDepth 20000 in
theorem witness_chanFirst :
    (channelWith id).pwr.inReset = false ∧
    (channelWith id).pathUp Path.a = true ∧
    (channelWith id).locked Path.a = true ∧
    ((channelWith id).path Path.a).rxd.chain.eqd = [] ∧
    ((channelWith id).lfr Path.a).inFrame = true ∧
    alignErrors (padTo 3200 (frameOf 8 [chunk 192 124]).overhead) ≤ 3 ∧
    (frameOf 8 [chunk 192 124]).uncorr = [] ∧
    ((channelWith id).lfr Path.a).inSf = true ∧
    8 = (((channelWith id).lfr Path.a).expected + 1) % 2 ^ 48 ∧
    readCounter (padTo 3200 (frameOf 8 [chunk 192 124]).overhead) = some 8 ∧
    3 < 8 ∧
    (channelWith id).gccEn Path.a 3 = true ∧
    ((channelWith id).lfr Path.a).gcc.length = 8 ∧
    crcOk (bytesAt (padTo 3200 (frameOf 8 [chunk 192 124]).overhead) (1280 + 128 * 3) 128) 0 126 = true ∧
    (beAt (bytesAt (padTo 3200 (frameOf 8 [chunk 192 124]).overhead) (1280 + 128 * 3) 128) 0 1).testBit 7 = true ∧
    0 < beAt (bytesAt (padTo 3200 (frameOf 8 [chunk 192 124]).overhead) (1280 + 128 * 3) 128) 1 1 ∧
    beAt (bytesAt (padTo 3200 (frameOf 8 [chunk 192 124]).overhead) (1280 + 128 * 3) 128) 1 1 ≤ 124 ∧
    ((beAt (bytesAt (padTo 3200 (frameOf 8 [chunk 192 124]).overhead) (1280 + 128 * 3) 128) 0 1).testBit 6 = true ∧
    ((channelWith id).chan Path.a 3).rxMsg = none ∧
    List.replicate 124 6 =
        bytesAt (bytesAt (padTo 3200 (frameOf 8 [chunk 192 124]).overhead) (1280 + 128 * 3) 128) 2
          (beAt (bytesAt (padTo 3200 (frameOf 8 [chunk 192 124]).overhead) (1280 + 128 * 3) 128) 1 1) ∨
  (beAt (bytesAt (padTo 3200 (frameOf 8 [chunk 192 124]).overhead) (1280 + 128 * 3) 128) 0 1).testBit 6 =
      false ∧
    (List.replicate 124 6).length ≤ 16384 ∧
    ∃ old,
        ((channelWith id).chan Path.a 3).rxMsg = some old ∧
    List.replicate 124 6 =
            old ++
              bytesAt (bytesAt (padTo 3200 (frameOf 8 [chunk 192 124]).overhead) (1280 + 128 * 3) 128) 2
                (beAt (bytesAt (padTo 3200 (frameOf 8 [chunk 192 124]).overhead) (1280 + 128 * 3) 128) 1 1)) ∧
    (beAt (bytesAt (padTo 3200 (frameOf 8 [chunk 192 124]).overhead) (1280 + 128 * 3) 128) 0 1).testBit 5 = false :=
  by decide +kernel

set_option maxRecDepth 20000 in
theorem witness_chanWhole :
    (channelWith id).pwr.inReset = false ∧
    (channelWith id).pathUp Path.a = true ∧
    (channelWith id).locked Path.a = true ∧
    ((channelWith id).path Path.a).rxd.chain.eqd = [] ∧
    ((channelWith id).lfr Path.a).inFrame = true ∧
    alignErrors (padTo 3200 (frameOf 8 [chunk 224 124]).overhead) ≤ 3 ∧
    (frameOf 8 [chunk 224 124]).uncorr = [] ∧
    ((channelWith id).lfr Path.a).inSf = true ∧
    8 = (((channelWith id).lfr Path.a).expected + 1) % 2 ^ 48 ∧
    readCounter (padTo 3200 (frameOf 8 [chunk 224 124]).overhead) = some 8 ∧
    3 < 8 ∧
    (channelWith id).gccEn Path.a 3 = true ∧
    ((channelWith id).lfr Path.a).gcc.length = 8 ∧
    crcOk (bytesAt (padTo 3200 (frameOf 8 [chunk 224 124]).overhead) (1280 + 128 * 3) 128) 0 126 = true ∧
    (beAt (bytesAt (padTo 3200 (frameOf 8 [chunk 224 124]).overhead) (1280 + 128 * 3) 128) 0 1).testBit 7 = true ∧
    0 < beAt (bytesAt (padTo 3200 (frameOf 8 [chunk 224 124]).overhead) (1280 + 128 * 3) 128) 1 1 ∧
    beAt (bytesAt (padTo 3200 (frameOf 8 [chunk 224 124]).overhead) (1280 + 128 * 3) 128) 1 1 ≤ 124 ∧
    ((beAt (bytesAt (padTo 3200 (frameOf 8 [chunk 224 124]).overhead) (1280 + 128 * 3) 128) 0 1).testBit 6 = true ∧
    ((channelWith id).chan Path.a 3).rxMsg = none ∧
    List.replicate 124 6 =
        bytesAt (bytesAt (padTo 3200 (frameOf 8 [chunk 224 124]).overhead) (1280 + 128 * 3) 128) 2
          (beAt (bytesAt (padTo 3200 (frameOf 8 [chunk 224 124]).overhead) (1280 + 128 * 3) 128) 1 1) ∨
  (beAt (bytesAt (padTo 3200 (frameOf 8 [chunk 224 124]).overhead) (1280 + 128 * 3) 128) 0 1).testBit 6 =
      false ∧
    (List.replicate 124 6).length ≤ 16384 ∧
    ∃ old,
        ((channelWith id).chan Path.a 3).rxMsg = some old ∧
    List.replicate 124 6 =
            old ++
              bytesAt (bytesAt (padTo 3200 (frameOf 8 [chunk 224 124]).overhead) (1280 + 128 * 3) 128) 2
                (beAt (bytesAt (padTo 3200 (frameOf 8 [chunk 224 124]).overhead) (1280 + 128 * 3) 128) 1 1)) ∧
    (beAt (bytesAt (padTo 3200 (frameOf 8 [chunk 224 124]).overhead) (1280 + 128 * 3) 128) 0 1).testBit 5 = true ∧
    entryLen (List.replicate 124 6).length ≤
  (fieldOf ((channelWith id).regI (pathReg Path.a Reg.PA_LFR_GCC_RX) 3) 15 0 + 65536 -
        ((channelWith id).chan Path.a 3).rxWr -
      4) %
    65536 :=
  by decide +kernel

set_option maxRecDepth 20000 in
theorem witness_chanLast :
    (channelWith fun x => Chan.mk x.txRd x.rxWr x.discard x.overflow x.txErr x.txMsg (some [1])).pwr.inReset = false ∧
    (channelWith fun x => Chan.mk x.txRd x.rxWr x.discard x.overflow x.txErr x.txMsg (some [1])).pathUp Path.a =
  true ∧
    (channelWith fun x => Chan.mk x.txRd x.rxWr x.discard x.overflow x.txErr x.txMsg (some [1])).locked Path.a =
  true ∧
    ((channelWith fun x => Chan.mk x.txRd x.rxWr x.discard x.overflow x.txErr x.txMsg (some [1])).path
          Path.a).rxd.chain.eqd =
  [] ∧
    ((channelWith fun x => Chan.mk x.txRd x.rxWr x.discard x.overflow x.txErr x.txMsg (some [1])).lfr
      Path.a).inFrame =
  true ∧
    alignErrors (padTo 3200 (frameOf 8 [chunk 160 2]).overhead) ≤ 3 ∧
    (frameOf 8 [chunk 160 2]).uncorr = [] ∧
    ((channelWith fun x => Chan.mk x.txRd x.rxWr x.discard x.overflow x.txErr x.txMsg (some [1])).lfr Path.a).inSf =
  true ∧
    8 =
  (((channelWith fun x => Chan.mk x.txRd x.rxWr x.discard x.overflow x.txErr x.txMsg (some [1])).lfr
          Path.a).expected +
      1) %
    2 ^ 48 ∧
    readCounter (padTo 3200 (frameOf 8 [chunk 160 2]).overhead) = some 8 ∧
    3 < 8 ∧
    (channelWith fun x => Chan.mk x.txRd x.rxWr x.discard x.overflow x.txErr x.txMsg (some [1])).gccEn Path.a 3 =
  true ∧
    ((channelWith fun x => Chan.mk x.txRd x.rxWr x.discard x.overflow x.txErr x.txMsg (some [1])).lfr
        Path.a).gcc.length =
  8 ∧
    crcOk (bytesAt (padTo 3200 (frameOf 8 [chunk 160 2]).overhead) (1280 + 128 * 3) 128) 0 126 = true ∧
    (beAt (bytesAt (padTo 3200 (frameOf 8 [chunk 160 2]).overhead) (1280 + 128 * 3) 128) 0 1).testBit 7 = true ∧
    0 < beAt (bytesAt (padTo 3200 (frameOf 8 [chunk 160 2]).overhead) (1280 + 128 * 3) 128) 1 1 ∧
    beAt (bytesAt (padTo 3200 (frameOf 8 [chunk 160 2]).overhead) (1280 + 128 * 3) 128) 1 1 ≤ 124 ∧
    ((beAt (bytesAt (padTo 3200 (frameOf 8 [chunk 160 2]).overhead) (1280 + 128 * 3) 128) 0 1).testBit 6 = true ∧
    ((channelWith fun x => Chan.mk x.txRd x.rxWr x.discard x.overflow x.txErr x.txMsg (some [1])).chan Path.a
            3).rxMsg =
        none ∧
    [1, 6, 6] =
        bytesAt (bytesAt (padTo 3200 (frameOf 8 [chunk 160 2]).overhead) (1280 + 128 * 3) 128) 2
          (beAt (bytesAt (padTo 3200 (frameOf 8 [chunk 160 2]).overhead) (1280 + 128 * 3) 128) 1 1) ∨
  (beAt (bytesAt (padTo 3200 (frameOf 8 [chunk 160 2]).overhead) (1280 + 128 * 3) 128) 0 1).testBit 6 = false ∧
    [1, 6, 6].length ≤ 16384 ∧
    ∃ old,
        ((channelWith fun x => Chan.mk x.txRd x.rxWr x.discard x.overflow x.txErr x.txMsg (some [1])).chan
                Path.a 3).rxMsg =
            some old ∧
    [1, 6, 6] =
            old ++
              bytesAt (bytesAt (padTo 3200 (frameOf 8 [chunk 160 2]).overhead) (1280 + 128 * 3) 128) 2
                (beAt (bytesAt (padTo 3200 (frameOf 8 [chunk 160 2]).overhead) (1280 + 128 * 3) 128) 1 1)) ∧
    (beAt (bytesAt (padTo 3200 (frameOf 8 [chunk 160 2]).overhead) (1280 + 128 * 3) 128) 0 1).testBit 5 = true ∧
    entryLen [1, 6, 6].length ≤
  (fieldOf
            ((channelWith fun x => Chan.mk x.txRd x.rxWr x.discard x.overflow x.txErr x.txMsg (some [1])).regI
              (pathReg Path.a Reg.PA_LFR_GCC_RX) 3)
            15 0 +
          65536 -
        ((channelWith fun x => Chan.mk x.txRd x.rxWr x.discard x.overflow x.txErr x.txMsg (some [1])).chan
            Path.a 3).rxWr -
      4) %
    65536 :=
  by decide +kernel

set_option maxRecDepth 20000 in
theorem witness_chanFull :
    (channelWith fun x => Chan.mk x.txRd 65533 x.discard x.overflow x.txErr x.txMsg x.rxMsg).pwr.inReset = false ∧
    (channelWith fun x => Chan.mk x.txRd 65533 x.discard x.overflow x.txErr x.txMsg x.rxMsg).pathUp Path.a = true ∧
    (channelWith fun x => Chan.mk x.txRd 65533 x.discard x.overflow x.txErr x.txMsg x.rxMsg).locked Path.a = true ∧
    ((channelWith fun x => Chan.mk x.txRd 65533 x.discard x.overflow x.txErr x.txMsg x.rxMsg).path
          Path.a).rxd.chain.eqd =
  [] ∧
    ((channelWith fun x => Chan.mk x.txRd 65533 x.discard x.overflow x.txErr x.txMsg x.rxMsg).lfr Path.a).inFrame =
  true ∧
    alignErrors (padTo 3200 (frameOf 8 [chunk 224 1]).overhead) ≤ 3 ∧
    (frameOf 8 [chunk 224 1]).uncorr = [] ∧
    ((channelWith fun x => Chan.mk x.txRd 65533 x.discard x.overflow x.txErr x.txMsg x.rxMsg).lfr Path.a).inSf =
  true ∧
    8 =
  (((channelWith fun x => Chan.mk x.txRd 65533 x.discard x.overflow x.txErr x.txMsg x.rxMsg).lfr
          Path.a).expected +
      1) %
    2 ^ 48 ∧
    readCounter (padTo 3200 (frameOf 8 [chunk 224 1]).overhead) = some 8 ∧
    3 < 8 ∧
    (channelWith fun x => Chan.mk x.txRd 65533 x.discard x.overflow x.txErr x.txMsg x.rxMsg).gccEn Path.a 3 = true ∧
    ((channelWith fun x => Chan.mk x.txRd 65533 x.discard x.overflow x.txErr x.txMsg x.rxMsg).lfr
        Path.a).gcc.length =
  8 ∧
    crcOk (bytesAt (padTo 3200 (frameOf 8 [chunk 224 1]).overhead) (1280 + 128 * 3) 128) 0 126 = true ∧
    (beAt (bytesAt (padTo 3200 (frameOf 8 [chunk 224 1]).overhead) (1280 + 128 * 3) 128) 0 1).testBit 7 = true ∧
    0 < beAt (bytesAt (padTo 3200 (frameOf 8 [chunk 224 1]).overhead) (1280 + 128 * 3) 128) 1 1 ∧
    beAt (bytesAt (padTo 3200 (frameOf 8 [chunk 224 1]).overhead) (1280 + 128 * 3) 128) 1 1 ≤ 124 ∧
    ((beAt (bytesAt (padTo 3200 (frameOf 8 [chunk 224 1]).overhead) (1280 + 128 * 3) 128) 0 1).testBit 6 = true ∧
    ((channelWith fun x => Chan.mk x.txRd 65533 x.discard x.overflow x.txErr x.txMsg x.rxMsg).chan Path.a
            3).rxMsg =
        none ∧
    [6] =
        bytesAt (bytesAt (padTo 3200 (frameOf 8 [chunk 224 1]).overhead) (1280 + 128 * 3) 128) 2
          (beAt (bytesAt (padTo 3200 (frameOf 8 [chunk 224 1]).overhead) (1280 + 128 * 3) 128) 1 1) ∨
  (beAt (bytesAt (padTo 3200 (frameOf 8 [chunk 224 1]).overhead) (1280 + 128 * 3) 128) 0 1).testBit 6 = false ∧
    [6].length ≤ 16384 ∧
    ∃ old,
        ((channelWith fun x => Chan.mk x.txRd 65533 x.discard x.overflow x.txErr x.txMsg x.rxMsg).chan Path.a
                3).rxMsg =
            some old ∧
    [6] =
            old ++
              bytesAt (bytesAt (padTo 3200 (frameOf 8 [chunk 224 1]).overhead) (1280 + 128 * 3) 128) 2
                (beAt (bytesAt (padTo 3200 (frameOf 8 [chunk 224 1]).overhead) (1280 + 128 * 3) 128) 1 1)) ∧
    (beAt (bytesAt (padTo 3200 (frameOf 8 [chunk 224 1]).overhead) (1280 + 128 * 3) 128) 0 1).testBit 5 = true ∧
    (fieldOf
            ((channelWith fun x => Chan.mk x.txRd 65533 x.discard x.overflow x.txErr x.txMsg x.rxMsg).regI
              (pathReg Path.a Reg.PA_LFR_GCC_RX) 3)
            15 0 +
          65536 -
        ((channelWith fun x => Chan.mk x.txRd 65533 x.discard x.overflow x.txErr x.txMsg x.rxMsg).chan Path.a
            3).rxWr -
      4) %
    65536 <
  entryLen [6].length :=
  by decide +kernel

set_option maxRecDepth 20000 in
theorem witness_jwBad :
    (inFrame 7).pwr.inReset = false ∧
    (inFrame 7).pathUp Path.a = true ∧
    (inFrame 7).locked Path.a = true ∧
    ((inFrame 7).path Path.a).rxd.chain.eqd = [] ∧
    ((inFrame 7).lfr Path.a).inFrame = true ∧
    alignErrors (padTo 3200 (frameOf 8 [(128, [31, 255])]).overhead) ≤ 3 ∧
    (frameOf 8 [(128, [31, 255])]).uncorr = [] ∧
    ((inFrame 7).lfr Path.a).inSf = true ∧
    8 = (((inFrame 7).lfr Path.a).expected + 1) % 2 ^ 48 ∧
    readCounter (padTo 3200 (frameOf 8 [(128, [31, 255])]).overhead) = some 8 ∧
    List.count 0 ((inFrame 7).contsOf Path.a) = 1 ∧
    (inFrame 7).bonded Path.a 0 = false ∧
    (beAt (padTo 3200 (frameOf 8 [(128, [31, 255])]).overhead) (128 + 2 * 0) 2 / 8192 = 0 ∧
  (beAt (padTo 3200 (frameOf 8 [(128, [31, 255])]).overhead) (128 + 2 * 0) 2 % 8192 <
      sMin
        ((nextOf (Instr.rxFrame Path.a (frameOf 8 [(128, [31, 255])])) (inFrame 7)).rxSlots Path.a
            0).length ∨
    sMax
        ((nextOf (Instr.rxFrame Path.a (frameOf 8 [(128, [31, 255])])) (inFrame 7)).rxSlots Path.a
            0).length <
      beAt (padTo 3200 (frameOf 8 [(128, [31, 255])]).overhead) (128 + 2 * 0) 2 % 8192)) :=
  by decide +kernel

set_option maxRecDepth 20000 in
theorem witness_jwData :
    (inFrame 7).pwr.inReset = false ∧
    (inFrame 7).pathUp Path.a = true ∧
    (inFrame 7).locked Path.a = true ∧
    ((inFrame 7).path Path.a).rxd.chain.eqd = [] ∧
    ((inFrame 7).lfr Path.a).inFrame = true ∧
    alignErrors (padTo 3200 (frameOf 8 [(128, [0, 4])]).overhead) ≤ 3 ∧
    (frameOf 8 [(128, [0, 4])]).uncorr = [] ∧
    ((inFrame 7).lfr Path.a).inSf = true ∧
    8 = (((inFrame 7).lfr Path.a).expected + 1) % 2 ^ 48 ∧
    readCounter (padTo 3200 (frameOf 8 [(128, [0, 4])]).overhead) = some 8 ∧
    List.count 0 ((inFrame 7).contsOf Path.a) = 1 ∧
    (inFrame 7).bonded Path.a 0 = false ∧
    (beAt (padTo 3200 (frameOf 8 [(128, [0, 4])]).overhead) (128 + 2 * 0) 2 / 8192 ≠ 0 ∨
  sMin ((nextOf (Instr.rxFrame Path.a (frameOf 8 [(128, [0, 4])])) (inFrame 7)).rxSlots Path.a 0).length ≤
      beAt (padTo 3200 (frameOf 8 [(128, [0, 4])]).overhead) (128 + 2 * 0) 2 % 8192 ∧
    beAt (padTo 3200 (frameOf 8 [(128, [0, 4])]).overhead) (128 + 2 * 0) 2 % 8192 ≤
      sMax ((nextOf (Instr.rxFrame Path.a (frameOf 8 [(128, [0, 4])])) (inFrame 7)).rxSlots Path.a 0).length) :=
  by decide +kernel

set_option maxRecDepth 20000 in
theorem witness_jwAis :
    caisNear.pwr.inReset = false ∧
    caisNear.pathUp Path.a = true ∧
    caisNear.locked Path.a = true ∧
    (caisNear.path Path.a).rxd.chain.eqd = [] ∧
    (caisNear.lfr Path.a).inFrame = true ∧
    alignErrors (padTo 3200 (frameOf 8 [(128, [32, 0])]).overhead) ≤ 3 ∧
    (frameOf 8 [(128, [32, 0])]).uncorr = [] ∧
    (caisNear.lfr Path.a).inSf = true ∧
    8 = ((caisNear.lfr Path.a).expected + 1) % 2 ^ 48 ∧
    readCounter (padTo 3200 (frameOf 8 [(128, [32, 0])]).overhead) = some 8 ∧
    List.count 0 (caisNear.contsOf Path.a) = 1 ∧
    caisNear.bonded Path.a 0 = false ∧
    (beAt (padTo 3200 (frameOf 8 [(128, [32, 0])]).overhead) (128 + 2 * 0) 2 / 8192 ≠ 0 ∨
  sMin ((nextOf (Instr.rxFrame Path.a (frameOf 8 [(128, [32, 0])])) caisNear).rxSlots Path.a 0).length ≤
      beAt (padTo 3200 (frameOf 8 [(128, [32, 0])]).overhead) (128 + 2 * 0) 2 % 8192 ∧
    beAt (padTo 3200 (frameOf 8 [(128, [32, 0])]).overhead) (128 + 2 * 0) 2 % 8192 ≤
      sMax ((nextOf (Instr.rxFrame Path.a (frameOf 8 [(128, [32, 0])])) caisNear).rxSlots Path.a 0).length) :=
  by decide +kernel

set_option maxRecDepth 20000 in
theorem witness_jwReserved :
    caisNear.pwr.inReset = false ∧
    caisNear.pathUp Path.a = true ∧
    caisNear.locked Path.a = true ∧
    (caisNear.path Path.a).rxd.chain.eqd = [] ∧
    (caisNear.lfr Path.a).inFrame = true ∧
    alignErrors (padTo 3200 (frameOf 8 [(128, [224, 0])]).overhead) ≤ 3 ∧
    (frameOf 8 [(128, [224, 0])]).uncorr = [] ∧
    (caisNear.lfr Path.a).inSf = true ∧
    8 = ((caisNear.lfr Path.a).expected + 1) % 2 ^ 48 ∧
    readCounter (padTo 3200 (frameOf 8 [(128, [224, 0])]).overhead) = some 8 ∧
    List.count 0 (caisNear.contsOf Path.a) = 1 ∧
    caisNear.bonded Path.a 0 = false ∧
    (beAt (padTo 3200 (frameOf 8 [(128, [224, 0])]).overhead) (128 + 2 * 0) 2 / 8192 ≠ 0 ∨
  sMin ((nextOf (Instr.rxFrame Path.a (frameOf 8 [(128, [224, 0])])) caisNear).rxSlots Path.a 0).length ≤
      beAt (padTo 3200 (frameOf 8 [(128, [224, 0])]).overhead) (128 + 2 * 0) 2 % 8192 ∧
    beAt (padTo 3200 (frameOf 8 [(128, [224, 0])]).overhead) (128 + 2 * 0) 2 % 8192 ≤
      sMax ((nextOf (Instr.rxFrame Path.a (frameOf 8 [(128, [224, 0])])) caisNear).rxSlots Path.a 0).length) :=
  by decide +kernel

set_option maxRecDepth 20000 in
theorem witness_tagGood (h : segment.tag 0 = List.replicate 16 5) :
    awaitingTag.pwr.inReset = false ∧
    awaitingTag.pathUp Path.a = true ∧
    awaitingTag.locked Path.a = true ∧
    (awaitingTag.path Path.a).rxd.chain.eqd = [] ∧
    (awaitingTag.lfr Path.a).inFrame = true ∧
    alignErrors (padTo 3200 (frameOf 16 [(640, List.replicate 16 5)]).overhead) ≤ 3 ∧
    (frameOf 16 [(640, List.replicate 16 5)]).uncorr = [] ∧
    (awaitingTag.lfr Path.a).inSf = true ∧
    16 = ((awaitingTag.lfr Path.a).expected + 1) % 2 ^ 48 ∧
    readCounter (padTo 3200 (frameOf 16 [(640, List.replicate 16 5)]).overhead) = some 16 ∧
    List.count 0 (awaitingTag.contsOf Path.a) = 1 ∧
    awaitingTag.bonded Path.a 0 = false ∧
    awaitingTag.encrypted Path.a = true ∧
    16 % 16 = 0 / 16 ∧
    ((if 16 % 16 = 0 ∨ (awaitingTag.cont Path.a 0).otherSuperframe 16 = true then (awaitingTag.cont Path.a 0).rxSegs
  else (awaitingTag.cont Path.a 0).rxPrev) =
  [segment]) ∧
    segment.ok = true ∧
    (awaitingTag.mstPath Path.a).mismatch.getLsbD 1 = false ∧
    (segment.fc / 16 + 1) % 2 ^ 44 = 16 / 16 ∧
    (crcOk (padTo 3200 (frameOf 16 [(640, List.replicate 16 5)]).overhead) 40 22 = true →
  (readGens (padTo 3200 (frameOf 16 [(640, List.replicate 16 5)]).overhead) 40).get 1 =
      (awaitingTag.mstPath Path.a).rx.get 1 ∨
    awaitingTag.rxStagedGen Path.a 1 =
      some ((readGens (padTo 3200 (frameOf 16 [(640, List.replicate 16 5)]).overhead) 40).get 1)) ∧
    bytesAt (padTo 3200 (frameOf 16 [(640, List.replicate 16 5)]).overhead) (640 + 16 * (0 % 16)) 16 = segment.tag 0 :=
  ⟨by decide +kernel, by decide +kernel, by decide +kernel, by decide +kernel, by decide +kernel, by decide +kernel, by decide +kernel, by decide +kernel, by decide +kernel, by decide +kernel, by decide +kernel, by decide +kernel, by decide +kernel, by decide +kernel, by decide +kernel, by decide +kernel, by decide +kernel, by decide +kernel, by decide +kernel, by rw [h]; decide +kernel⟩

set_option maxRecDepth 20000 in
theorem witness_tagBad (h : segment.tag 0 = List.replicate 16 4) :
    awaitingTag.pwr.inReset = false ∧
    awaitingTag.pathUp Path.a = true ∧
    awaitingTag.locked Path.a = true ∧
    (awaitingTag.path Path.a).rxd.chain.eqd = [] ∧
    (awaitingTag.lfr Path.a).inFrame = true ∧
    alignErrors (padTo 3200 (frameOf 16 [(640, List.replicate 16 5)]).overhead) ≤ 3 ∧
    (frameOf 16 [(640, List.replicate 16 5)]).uncorr = [] ∧
    (awaitingTag.lfr Path.a).inSf = true ∧
    16 = ((awaitingTag.lfr Path.a).expected + 1) % 2 ^ 48 ∧
    readCounter (padTo 3200 (frameOf 16 [(640, List.replicate 16 5)]).overhead) = some 16 ∧
    List.count 0 (awaitingTag.contsOf Path.a) = 1 ∧
    awaitingTag.bonded Path.a 0 = false ∧
    awaitingTag.encrypted Path.a = true ∧
    16 % 16 = 0 / 16 ∧
    ((if 16 % 16 = 0 ∨ (awaitingTag.cont Path.a 0).otherSuperframe 16 = true then (awaitingTag.cont Path.a 0).rxSegs
  else (awaitingTag.cont Path.a 0).rxPrev) =
  [segment]) ∧
    segment.ok = true ∧
    (awaitingTag.mstPath Path.a).mismatch.getLsbD 1 = false ∧
    (segment.fc / 16 + 1) % 2 ^ 44 = 16 / 16 ∧
    (crcOk (padTo 3200 (frameOf 16 [(640, List.replicate 16 5)]).overhead) 40 22 = true →
  (readGens (padTo 3200 (frameOf 16 [(640, List.replicate 16 5)]).overhead) 40).get 1 =
      (awaitingTag.mstPath Path.a).rx.get 1 ∨
    awaitingTag.rxStagedGen Path.a 1 =
      some ((readGens (padTo 3200 (frameOf 16 [(640, List.replicate 16 5)]).overhead) 40).get 1)) ∧
    bytesAt (padTo 3200 (frameOf 16 [(640, List.replicate 16 5)]).overhead) (640 + 16 * (0 % 16)) 16 ≠ segment.tag 0 :=
  ⟨by decide +kernel, by decide +kernel, by decide +kernel, by decide +kernel, by decide +kernel, by decide +kernel, by decide +kernel, by decide +kernel, by decide +kernel, by decide +kernel, by decide +kernel, by decide +kernel, by decide +kernel, by decide +kernel, by decide +kernel, by decide +kernel, by decide +kernel, by decide +kernel, by decide +kernel, by rw [h]; decide +kernel⟩

theorem witness_defectLos :
    defective.pwr.inReset = false ∧
    defective.pathUp Path.a = true ∧
    (defective.lfr Path.a).monitored = true ∧
    true ≠ (defective.lfr Path.a).raw.getLsbD (0#2).toNat ∧
    (if (0#2).toNat ≤ 1 then 64 else 2930) ≤ (defective.lfr Path.a).runs.getD (0#2).toNat 0 :=
  by decide +kernel

theorem witness_defectClr :
    defective.pwr.inReset = false ∧
    defective.pathUp Path.a = true ∧
    (defective.lfr Path.a).monitored = true ∧
    false ≠ (defective.lfr Path.a).raw.getLsbD (1#2).toNat ∧
    (if (1#2).toNat ≤ 1 then 64 else 2930) ≤ (defective.lfr Path.a).runs.getD (1#2).toNat 0 :=
  by decide +kernel

theorem witness_defectOof :
    defective.pwr.inReset = false ∧
    defective.pathUp Path.a = true ∧
    (defective.lfr Path.a).monitored = true ∧
    true ≠ (defective.lfr Path.a).raw.getLsbD (2#2).toNat ∧
    (if (2#2).toNat ≤ 1 then 64 else 2930) ≤ (defective.lfr Path.a).runs.getD (2#2).toNat 0 :=
  by decide +kernel

theorem witness_defectDeg :
    defective.pwr.inReset = false ∧
    defective.pathUp Path.a = true ∧
    (defective.lfr Path.a).monitored = true ∧
    true ≠ (defective.lfr Path.a).raw.getLsbD (3#2).toNat ∧
    (if (3#2).toNat ≤ 1 then 64 else 2930) ≤ (defective.lfr Path.a).runs.getD (3#2).toNat 0 :=
  by decide +kernel

theorem witness_quarantineNone :
    live.pwr.inReset = false ∧
    (live.lfr Path.a).quarantine = false :=
  by decide +kernel

theorem witness_quarantine :
    quarantined.pwr.inReset = false ∧
    quarantined.pathUp Path.a = true ∧
    (quarantined.lfr Path.a).quarantine = true :=
  by decide +kernel

theorem witness_wrongType :
    (agree 1 id).pwr.inReset = false ∧
    (1, Instr.hello Path.a nakMsg) ∈
  [(1, Instr.hello Path.a nakMsg), (2, Instr.cert Path.a nakMsg), (3, Instr.kexInit Path.a nakMsg),
    (4, Instr.kexResp Path.a nakMsg), (5, Instr.auth Path.a nakMsg), (6, Instr.done Path.a nakMsg),
    (7, Instr.nak Path.a nakMsg), (8, Instr.quarantine Path.a nakMsg)] ∧
    vType nakMsg ≠ (1, Instr.hello Path.a nakMsg).fst :=
  by decide +kernel

theorem witness_malformed :
    (agree 2 id).pwr.inReset = false ∧
    (2, Instr.cert Path.a [2, 1, 0, 1, 0, 0, 0, 5]) ∈
  [(1, Instr.hello Path.a [2, 1, 0, 1, 0, 0, 0, 5]), (2, Instr.cert Path.a [2, 1, 0, 1, 0, 0, 0, 5]),
    (3, Instr.kexInit Path.a [2, 1, 0, 1, 0, 0, 0, 5]), (4, Instr.kexResp Path.a [2, 1, 0, 1, 0, 0, 0, 5]),
    (5, Instr.auth Path.a [2, 1, 0, 1, 0, 0, 0, 5]), (6, Instr.done Path.a [2, 1, 0, 1, 0, 0, 0, 5]),
    (7, Instr.nak Path.a [2, 1, 0, 1, 0, 0, 0, 5]), (8, Instr.quarantine Path.a [2, 1, 0, 1, 0, 0, 0, 5])] ∧
    vType [2, 1, 0, 1, 0, 0, 0, 5] = (2, Instr.cert Path.a [2, 1, 0, 1, 0, 0, 0, 5]).fst ∧
    (agree 2 id).vUp Path.a = true ∧
    ((agree 2 id).lfr Path.a).quarantine = false ∧
    1 ≤ ((agree 2 id).cry Path.a).state ∧
    ((agree 2 id).cry Path.a).state ≤ 7 ∧
    beAt [2, 1, 0, 1, 0, 0, 0, 5] 1 1 = 1 ∧
    vFormOk [2, 1, 0, 1, 0, 0, 0, 5] = false :=
  by decide +kernel

theorem witness_outOfOrder :
    (agree 1 id).pwr.inReset = false ∧
    (2, Instr.cert Path.a (certMsg 9)) ∈
  [(1, Instr.hello Path.a (certMsg 9)), (2, Instr.cert Path.a (certMsg 9)),
    (3, Instr.kexInit Path.a (certMsg 9)), (4, Instr.kexResp Path.a (certMsg 9)),
    (5, Instr.auth Path.a (certMsg 9)), (6, Instr.done Path.a (certMsg 9)), (7, Instr.nak Path.a (certMsg 9)),
    (8, Instr.quarantine Path.a (certMsg 9))] ∧
    vType (certMsg 9) = (2, Instr.cert Path.a (certMsg 9)).fst ∧
    (agree 1 id).vUp Path.a = true ∧
    ((agree 1 id).lfr Path.a).quarantine = false ∧
    1 ≤ ((agree 1 id).cry Path.a).state ∧
    ((agree 1 id).cry Path.a).state ≤ 7 ∧
    beAt (certMsg 9) 1 1 = 1 ∧
    vFormOk (certMsg 9) = true ∧
    ((agree 1 id).cry Path.a).state = 1 ∧
    2 ≤ (2, Instr.cert Path.a (certMsg 9)).fst ∧
    (2, Instr.cert Path.a (certMsg 9)).fst ≤ 6 :=
  by decide +kernel

theorem witness_version :
    (attempt 2 1).pwr.inReset = false ∧
    (1, Instr.hello Path.a helloNew) ∈
  [(1, Instr.hello Path.a helloNew), (2, Instr.cert Path.a helloNew), (3, Instr.kexInit Path.a helloNew),
    (4, Instr.kexResp Path.a helloNew), (5, Instr.auth Path.a helloNew), (6, Instr.done Path.a helloNew),
    (7, Instr.nak Path.a helloNew), (8, Instr.quarantine Path.a helloNew)] ∧
    vType helloNew = (1, Instr.hello Path.a helloNew).fst ∧
    (attempt 2 1).vUp Path.a = true ∧
    ((attempt 2 1).lfr Path.a).quarantine = false ∧
    1 ≤ ((attempt 2 1).cry Path.a).state ∧
    ((attempt 2 1).cry Path.a).state ≤ 7 ∧
    beAt helloNew 1 1 ≠ 1 ∧
    (1, Instr.hello Path.a helloNew).fst = 1 ∧
    ((attempt 2 1).cry Path.a).state ≤ 6 :=
  by decide +kernel

theorem witness_helloSeen :
    seenPeer.pwr.inReset = false ∧
    seenPeer.vUp Path.a = true ∧
    (seenPeer.lfr Path.a).quarantine = false ∧
    beAt helloPlain 1 1 = 1 ∧
    vFormOk helloPlain = true ∧
    vType helloPlain = 1 ∧
    vSeq helloPlain = 0 ∧
    (seenPeer.cry Path.a).state = 1 ∧
    (seenPeer.cry Path.a).reply = none ∧
    helloId helloPlain = (seenPeer.cry Path.a).peerSeen ∧
    (seenPeer.nextFree Path.a = false ∨ (beAt helloPlain 8 1).testBit 0 = false ∧ seenPeer.vAgree Path.a = false) :=
  by decide +kernel

theorem witness_hello :
    (agree 1 id).pwr.inReset = false ∧
    (agree 1 id).vUp Path.a = true ∧
    ((agree 1 id).lfr Path.a).quarantine = false ∧
    beAt (helloFrom 9) 1 1 = 1 ∧
    vFormOk (helloFrom 9) = true ∧
    vType (helloFrom 9) = 1 ∧
    vSeq (helloFrom 9) = 0 ∧
    ((agree 1 id).cry Path.a).state = 1 ∧
    ((agree 1 id).cry Path.a).reply = none ∧
    (agree 1 id).nextFree Path.a = true ∧
    (beAt (helloFrom 9) 8 1).testBit 0 = true ∧
    (agree 1 id).grantOf (rowIdx Path.a) = 0 ∧
    ((agree 1 id).cry Path.a).rowWait = false ∧
    (agree 1 id).tru.rngFail = false ∧
    (agree 1 id).pwr.queue = [] ∧
    (agree 1 id).alloc + 150 ≤ (agree 1 id).effCeiling ∧
    beNat (agree 1 id).tru.ident ≠ beNat (helloId (helloFrom 9)) :=
  by decide +kernel

theorem witness_cert (h : chainValid (vBody (certMsg 9))
    (match ((attempt 2 1).cry Path.a).peerHello with
    | some h => helloId h
    | none => []) = true) :
    (attempt 2 1).pwr.inReset = false ∧
    (attempt 2 1).vUp Path.a = true ∧
    ((attempt 2 1).lfr Path.a).quarantine = false ∧
    beAt (certMsg 9) 1 1 = 1 ∧
    vFormOk (certMsg 9) = true ∧
    vType (certMsg 9) = 2 ∧
    vSeq (certMsg 9) = 1 ∧
    (((attempt 2 1).cry Path.a).state = 2 ∨ ((attempt 2 1).cry Path.a).state = 4) ∧
    ((attempt 2 1).cry Path.a).rxNext = 1 ∧
    ((attempt 2 1).cry Path.a).reply = none ∧
    chainValid (vBody (certMsg 9))
    (match ((attempt 2 1).cry Path.a).peerHello with
    | some h => helloId h
    | none => []) =
  true ∧
    ((attempt 2 1).cry Path.a).pin = false :=
  ⟨by decide +kernel, by decide +kernel, by decide +kernel, by decide +kernel, by decide +kernel, by decide +kernel, by decide +kernel, by decide +kernel, by decide +kernel, by decide +kernel, h, by decide +kernel⟩

theorem witness_kexInit (h : Config.ecdh ((attempt 4 2).begin.draw 48).snd (bytesAt (kexInitMsg 41) 12 97) = some (List.replicate 48 1)) :
    (attempt 4 2).pwr.inReset = false ∧
    (attempt 4 2).vUp Path.a = true ∧
    ((attempt 4 2).lfr Path.a).quarantine = false ∧
    beAt (kexInitMsg 41) 1 1 = 1 ∧
    vFormOk (kexInitMsg 41) = true ∧
    vType (kexInitMsg 41) = 3 ∧
    vSeq (kexInitMsg 41) = 2 ∧
    ((attempt 4 2).cry Path.a).state = 4 ∧
    ((attempt 4 2).cry Path.a).rxNext = 2 ∧
    ((attempt 4 2).cry Path.a).reply = none ∧
    ((attempt 4 2).cry Path.a).peerHello = some (helloFrom 9) ∧
    beAt (kexInitMsg 41) 8 2 = nextEpoch ((attempt 4 2).mstPath Path.a).tx.key.toNat (beAt (helloFrom 9) 60 2) ∧
    beAt (kexInitMsg 41) 8 2 ≠ 0 ∧
    Config.ecdh ((attempt 4 2).begin.draw 48).snd (bytesAt (kexInitMsg 41) 12 97) = some (List.replicate 48 1) :=
  ⟨by decide +kernel, by decide +kernel, by decide +kernel, by decide +kernel, by decide +kernel, by decide +kernel, by decide +kernel, by decide +kernel, by decide +kernel, by decide +kernel, by decide +kernel, by decide +kernel, by decide +kernel, h⟩

theorem witness_kexResp (h : Config.ecdh ((attempt 2 2).cry Path.a).ecdhKey (bytesAt (kexRespMsg 41) 12 97) =
      some (List.replicate 48 1)) :
    (attempt 2 2).pwr.inReset = false ∧
    (attempt 2 2).vUp Path.a = true ∧
    ((attempt 2 2).lfr Path.a).quarantine = false ∧
    beAt (kexRespMsg 41) 1 1 = 1 ∧
    vFormOk (kexRespMsg 41) = true ∧
    vType (kexRespMsg 41) = 4 ∧
    vSeq (kexRespMsg 41) = 2 ∧
    ((attempt 2 2).cry Path.a).state = 2 ∧
    ((attempt 2 2).cry Path.a).rxNext = 2 ∧
    ((attempt 2 2).cry Path.a).reply = none ∧
    beAt (kexRespMsg 41) 8 2 = ((attempt 2 2).cry Path.a).epoch ∧
    Config.ecdh ((attempt 2 2).cry Path.a).ecdhKey (bytesAt (kexRespMsg 41) 12 97) = some (List.replicate 48 1) :=
  ⟨by decide +kernel, by decide +kernel, by decide +kernel, by decide +kernel, by decide +kernel, by decide +kernel, by decide +kernel, by decide +kernel, by decide +kernel, by decide +kernel, by decide +kernel, h⟩

theorem witness_authR (h : ((authWaits true).cry Path.a).authBadness (vBody authMsg) = 0) :
    (authWaits true).pwr.inReset = false ∧
    (authWaits true).vUp Path.a = true ∧
    ((authWaits true).lfr Path.a).quarantine = false ∧
    beAt authMsg 1 1 = 1 ∧
    vFormOk authMsg = true ∧
    vType authMsg = 5 ∧
    vSeq authMsg = 3 ∧
    (((authWaits true).cry Path.a).state = 3 ∨ ((authWaits true).cry Path.a).state = 5) ∧
    ((authWaits true).cry Path.a).rxNext = 3 ∧
    ((authWaits true).cry Path.a).reply = none ∧
    ((authWaits true).cry Path.a).authBadness (vBody authMsg) = 0 ∧
    (authWaits true).nextFree Path.a = true :=
  ⟨by decide +kernel, by decide +kernel, by decide +kernel, by decide +kernel, by decide +kernel, by decide +kernel, by decide +kernel, by decide +kernel, by decide +kernel, by decide +kernel, h, by decide +kernel⟩

theorem witness_authI (h : ((authWaits false).cry Path.a).authBadness (vBody authMsg) = 0) :
    (authWaits false).pwr.inReset = false ∧
    (authWaits false).vUp Path.a = true ∧
    ((authWaits false).lfr Path.a).quarantine = false ∧
    beAt authMsg 1 1 = 1 ∧
    vFormOk authMsg = true ∧
    vType authMsg = 5 ∧
    vSeq authMsg = 3 ∧
    (((authWaits false).cry Path.a).state = 3 ∨ ((authWaits false).cry Path.a).state = 5) ∧
    ((authWaits false).cry Path.a).rxNext = 3 ∧
    ((authWaits false).cry Path.a).reply = none ∧
    ((authWaits false).cry Path.a).authBadness (vBody authMsg) = 0 ∧
    (authWaits false).nextFree Path.a = true :=
  ⟨by decide +kernel, by decide +kernel, by decide +kernel, by decide +kernel, by decide +kernel, by decide +kernel, by decide +kernel, by decide +kernel, by decide +kernel, by decide +kernel, h, by decide +kernel⟩

theorem witness_authBusy :
    authBusy.pwr.inReset = false ∧
    authBusy.vUp Path.a = true ∧
    (authBusy.lfr Path.a).quarantine = false ∧
    beAt authMsg 1 1 = 1 ∧
    vFormOk authMsg = true ∧
    vType authMsg = 5 ∧
    vSeq authMsg = 3 ∧
    ((authBusy.cry Path.a).state = 3 ∨ (authBusy.cry Path.a).state = 5) ∧
    (authBusy.cry Path.a).rxNext = 3 ∧
    (authBusy.cry Path.a).reply = none ∧
    ((authBusy.cry Path.a).authBadness (vBody authMsg) ≠ 0 ∨ authBusy.nextFree Path.a = false) :=
  ⟨by decide +kernel, by decide +kernel, by decide +kernel, by decide +kernel, by decide +kernel, by decide +kernel, by decide +kernel, by decide +kernel, by decide +kernel, by decide +kernel, .inr (by decide +kernel)⟩

theorem witness_done :
    (attempt 6 4).pwr.inReset = false ∧
    (attempt 6 4).vUp Path.a = true ∧
    ((attempt 6 4).lfr Path.a).quarantine = false ∧
    beAt (doneMsg 41) 1 1 = 1 ∧
    vFormOk (doneMsg 41) = true ∧
    vType (doneMsg 41) = 6 ∧
    vSeq (doneMsg 41) = 4 ∧
    ((attempt 6 4).cry Path.a).state = 6 ∧
    ((attempt 6 4).cry Path.a).rxNext = 4 ∧
    ((attempt 6 4).cry Path.a).reply = none ∧
    beAt (doneMsg 41) 8 2 = ((attempt 6 4).cry Path.a).epoch :=
  by decide +kernel

theorem witness_nak :
    (attempt 3 3).pwr.inReset = false ∧
    (attempt 3 3).vUp Path.a = true ∧
    ((attempt 3 3).lfr Path.a).quarantine = false ∧
    beAt nakMsg 1 1 = 1 ∧
    vFormOk nakMsg = true ∧
    vType nakMsg = 7 ∧
    2 ≤ ((attempt 3 3).cry Path.a).state ∧
    ((attempt 3 3).cry Path.a).state ≤ 6 ∧
    3 ≤ beAt nakMsg 8 1 :=
  by decide +kernel

theorem witness_nakSent :
    sentBefore.pwr.inReset = false ∧
    sentBefore.vUp Path.a = true ∧
    (sentBefore.lfr Path.a).quarantine = false ∧
    beAt nakSent 1 1 = 1 ∧
    vFormOk nakSent = true ∧
    vType nakSent = 7 ∧
    1 ≤ (sentBefore.cry Path.a).state ∧
    (sentBefore.cry Path.a).state ≤ 7 ∧
    (beAt nakSent 8 1 = 1 ∨ beAt nakSent 8 1 = 2) :=
  by decide +kernel

theorem witness_quarIdle :
    (agree 7 id).pwr.inReset = false ∧
    (agree 7 id).vUp Path.a = true ∧
    ((agree 7 id).lfr Path.a).quarantine = false ∧
    beAt quarMsg 1 1 = 1 ∧
    vFormOk quarMsg = true ∧
    vType quarMsg = 8 ∧
    ((agree 7 id).cry Path.a).state = 7 ∧
    (agree 7 id).attempting Path.a = false :=
  by decide +kernel

theorem witness_quar :
    (attempt 3 3).pwr.inReset = false ∧
    (attempt 3 3).vUp Path.a = true ∧
    ((attempt 3 3).lfr Path.a).quarantine = false ∧
    beAt quarMsg 1 1 = 1 ∧
    vFormOk quarMsg = true ∧
    vType quarMsg = 8 ∧
    2 ≤ ((attempt 3 3).cry Path.a).state ∧
    ((attempt 3 3).cry Path.a).state ≤ 6 :=
  by decide +kernel

theorem witness_reply :
    (replyWaits 5).pwr.inReset = false ∧
    (replyWaits 5).vUp Path.a = true ∧
    ((replyWaits 5).lfr Path.a).quarantine = false ∧
    ((replyWaits 5).cry Path.a).state ≠ 0 ∧
    ((replyWaits 5).cry Path.a).state ≠ 9 ∧
    ((replyWaits 5).cry Path.a).reply = some ([doneMsg 41], 5) ∧
    5 ≠ 7 :=
  by decide +kernel

theorem witness_replyDone :
    (replyWaits 7).pwr.inReset = false ∧
    (replyWaits 7).vUp Path.a = true ∧
    ((replyWaits 7).lfr Path.a).quarantine = false ∧
    ((replyWaits 7).cry Path.a).state ≠ 0 ∧
    ((replyWaits 7).cry Path.a).state ≠ 9 ∧
    ((replyWaits 7).cry Path.a).reply = some ([doneMsg 41], 7) ∧
    7 = 7 :=
  by decide +kernel

theorem witness_replyNone :
    (attempt 4 3).pwr.inReset = false ∧
    (attempt 4 3).vUp Path.a = true ∧
    ((attempt 4 3).lfr Path.a).quarantine = false ∧
    ((attempt 4 3).cry Path.a).state ≠ 0 ∧
    ((attempt 4 3).cry Path.a).state ≠ 9 ∧
    ((attempt 4 3).cry Path.a).reply = none :=
  by decide +kernel

theorem witness_helloQuiet :
    (attempt 4 3).pwr.inReset = false ∧
    (attempt 4 3).vUp Path.a = true ∧
    ((attempt 4 3).lfr Path.a).quarantine = false ∧
    ((attempt 4 3).cry Path.a).state ≠ 0 ∧
    ((attempt 4 3).cry Path.a).state ≠ 9 ∧
    (((attempt 4 3).cry Path.a).state ≠ 1 ∧ ((attempt 4 3).cry Path.a).state ≠ 7 ∨
  ((attempt 4 3).cry Path.a).state = 1 ∧ ((attempt 4 3).cry Path.a).reply ≠ none) :=
  by decide +kernel

theorem witness_respQuiet :
    (replyWaits 5).pwr.inReset = false ∧
    (replyWaits 5).vUp Path.a = true ∧
    ((replyWaits 5).lfr Path.a).quarantine = false ∧
    ((replyWaits 5).cry Path.a).state ≠ 0 ∧
    ((replyWaits 5).cry Path.a).state ≠ 9 ∧
    (((replyWaits 5).cry Path.a).state < 2 ∨
  6 < ((replyWaits 5).cry Path.a).state ∨ ((replyWaits 5).cry Path.a).reply ≠ none) :=
  by decide +kernel

theorem witness_backoffNot :
    (attempt 4 3).pwr.inReset = false ∧
    (attempt 4 3).vUp Path.a = true ∧
    ((attempt 4 3).lfr Path.a).quarantine = false ∧
    ((attempt 4 3).cry Path.a).state ≠ 0 ∧
    ((attempt 4 3).cry Path.a).state ≠ 9 ∧
    ((attempt 4 3).cry Path.a).state ≠ 8 :=
  by decide +kernel

theorem witness_helloAgain :
    (agree 1 id).pwr.inReset = false ∧
    (agree 1 id).vUp Path.a = true ∧
    ((agree 1 id).lfr Path.a).quarantine = false ∧
    ((agree 1 id).cry Path.a).peerHello = none ∧
    ((agree 1 id).cry Path.a).state = 1 ∧
    ((agree 1 id).cry Path.a).reply = none :=
  by decide +kernel

theorem witness_helloWait :
    keyed.pwr.inReset = false ∧
    keyed.vUp Path.a = true ∧
    (keyed.lfr Path.a).quarantine = false ∧
    (keyed.cry Path.a).peerHello = none ∧
    (keyed.cry Path.a).state = 7 ∧
    (keyed.vAgree Path.a = false ∨ keyed.nextFree Path.a = false) :=
  by decide +kernel

theorem witness_resend :
    (attempt 6 4).pwr.inReset = false ∧
    (attempt 6 4).vUp Path.a = true ∧
    ((attempt 6 4).lfr Path.a).quarantine = false ∧
    2 ≤ ((attempt 6 4).cry Path.a).state ∧
    ((attempt 6 4).cry Path.a).state ≤ 6 ∧
    ((attempt 6 4).cry Path.a).reply = none ∧
    ((attempt 6 4).cry Path.a).resends < 3 :=
  by decide +kernel

theorem witness_noAnswer :
    resent.pwr.inReset = false ∧
    resent.vUp Path.a = true ∧
    (resent.lfr Path.a).quarantine = false ∧
    2 ≤ (resent.cry Path.a).state ∧
    (resent.cry Path.a).state ≤ 6 ∧
    (resent.cry Path.a).reply = none ∧
    3 ≤ (resent.cry Path.a).resends :=
  by decide +kernel

theorem witness_backoff :
    (agree 8 id).pwr.inReset = false ∧
    (agree 8 id).vUp Path.a = true ∧
    ((agree 8 id).lfr Path.a).quarantine = false ∧
    ((agree 8 id).cry Path.a).state = 8 :=
  by decide +kernel

theorem witness_rekeyDue :
    (policy keyed).pwr.inReset = false ∧
    (policy keyed).vUp Path.a = true ∧
    ((policy keyed).lfr Path.a).quarantine = false ∧
    ((policy keyed).cry Path.a).state = 7 ∧
    (policy keyed).keyed Path.a = true ∧
    (policy keyed).nextFree Path.a = true ∧
    ((policy keyed).cry Path.a).want = false ∧
    (policy keyed).dueDistance Path.a ≤ 2 ^ 22 ∧
    (policy keyed).tru.rngFail = false ∧
    (policy keyed).grantOf (rowIdx Path.a) = 0 ∧
    (policy keyed).pwr.queue = [] ∧
    (policy keyed).alloc + 150 ≤ (policy keyed).effCeiling :=
  by decide +kernel

theorem witness_rekeyNot :
    (agree 7 id).pwr.inReset = false ∧
    (agree 7 id).vUp Path.a = true ∧
    ((agree 7 id).lfr Path.a).quarantine = false ∧
    ((agree 7 id).keyed Path.a = false ∨
  (agree 7 id).nextFree Path.a = false ∨
    ((agree 7 id).cry Path.a).want = true ∨ 2 ^ 22 < (agree 7 id).dueDistance Path.a) :=
  by decide +kernel

theorem witness_rekeyExp :
    Path.a = pathOf ((policy keyed).fld Reg.CRY_PATH_SEL 0 0) ∧
    Accepted (policy keyed) Session.pcie Reg.CRY_POLICY ((policy keyed).withField Reg.CRY_POLICY 5 0 (30#6).toNat) :=
  ⟨by decide +kernel, accepted_of (by decide +kernel)⟩

theorem witness_rekeyLater :
    Path.a = pathOf ((rekeyWanted.setRegI Reg.CRY_POLICY 0 32772126).fld Reg.CRY_PATH_SEL 0 0) ∧
    Accepted (rekeyWanted.setRegI Reg.CRY_POLICY 0 32772126) Session.pcie Reg.CRY_POLICY
  ((rekeyWanted.setRegI Reg.CRY_POLICY 0 32772126).withField Reg.CRY_POLICY 5 0 (32#6).toNat) :=
  ⟨by decide +kernel, accepted_of (by decide +kernel)⟩

theorem witness_rekeyPostponed :
    Path.a = pathOf ((agedWanted.setRegI Reg.CRY_POLICY 0 32772126).fld Reg.CRY_PATH_SEL 0 0) ∧
    Accepted (agedWanted.setRegI Reg.CRY_POLICY 0 32772126) Session.pcie Reg.CRY_POLICY
  ((agedWanted.setRegI Reg.CRY_POLICY 0 32772126).withField Reg.CRY_POLICY 5 0 (32#6).toNat) :=
  ⟨by decide +kernel, accepted_of (by decide +kernel)⟩

theorem witness_rekeyNow :
    Path.a = pathOf ((policy keyed).fld Reg.CRY_PATH_SEL 0 0) ∧
    Accepted (policy keyed) Session.pcie Reg.CRY_CMD ((policy keyed).withField Reg.CRY_CMD 31 31 1) :=
  ⟨by decide +kernel, accepted_of (by decide +kernel)⟩

theorem witness_erase :
    Path.a = pathOf (bothKeyed.fld Reg.CRY_PATH_SEL 0 0) ∧
    5 = bothKeyed.fld Reg.CRY_CMD 7 0 ∧
    Accepted bothKeyed Session.pcie Reg.CRY_CMD (bothKeyed.withField Reg.CRY_CMD 30 30 1) ∧
    bothKeyed.fld Reg.CRY_CMD 9 9 = 0 :=
  ⟨by decide +kernel, by decide +kernel, accepted_of (by decide +kernel), by decide +kernel⟩

theorem witness_eraseNext :
    Path.a = pathOf (nextSel.fld Reg.CRY_PATH_SEL 0 0) ∧
    5 = nextSel.fld Reg.CRY_CMD 7 0 ∧
    Accepted nextSel Session.pcie Reg.CRY_CMD (nextSel.withField Reg.CRY_CMD 30 30 1) ∧
    nextSel.fld Reg.CRY_CMD 9 9 = 1 :=
  ⟨by decide +kernel, by decide +kernel, accepted_of (by decide +kernel), by decide +kernel⟩

theorem witness_eraseAll :
    Path.a = pathOf (bothKeyed.fld Reg.CRY_PATH_SEL 0 0) ∧
    Accepted bothKeyed Session.pcie Reg.CRY_CMD (bothKeyed.withField Reg.CRY_CMD 29 29 1) :=
  ⟨by decide +kernel, accepted_of (by decide +kernel)⟩

theorem witness_otpRelease :
    unreleased.pwr.inReset = false ∧
    unreleased.tru.ready = false :=
  by decide +kernel

theorem witness_rngPassed :
    (starting up).pwr.inReset = false ∧
    (starting up).tru.testing = true ∧
    (starting up).tru.rngFail = false ∧
    (starting up).tru.ready = true ∧
    (starting up).tru.br = none ∧
    (starting up).tru.fault = false :=
  by decide +kernel

theorem witness_rngAgain :
    tested.pwr.inReset = false ∧
    (tested.tru.testing = false ∨ tested.tru.rngFail = true) :=
  by decide +kernel

theorem witness_rngTimeout :
    up.pwr.inReset = false ∧
    up.tru.ready = true ∧
    up.tru.br = none ∧
    up.tru.fault = false :=
  by decide +kernel

theorem witness_rngHealth :
    up.pwr.inReset = false :=
  by decide +kernel

theorem witness_otpCommit :
    (committing (lifecycleCommit 1 2)).pwr.inReset = false ∧
    (committing (lifecycleCommit 1 2)).tru.busy = some (lifecycleCommit 1 2) ∧
    (lifecycleCommit 1 2).waiting = false :=
  by decide +kernel

theorem witness_otpCommitShort :
    (committing (lifecycleCommit 1 2)).pwr.inReset = false ∧
    (committing (lifecycleCommit 1 2)).tru.busy = some (lifecycleCommit 1 2) ∧
    (lifecycleCommit 1 2).waiting = false :=
  by decide +kernel

theorem witness_transferRefused :
    (2, Instr.transfer Session.pcie) ∈
  [(1, Instr.provision Session.pcie), (2, Instr.transfer Session.pcie), (3, Instr.decommission Session.pcie),
    (4, Instr.bootProfile Session.pcie), (5, Instr.certLoad Session.pcie)] ∧
    Accepted up Session.pcie Reg.TRU_CMD (BitVec.ofNat 32 (2 ^ 31 + 2)) ∧
    truAccepts up.lifecycle 2 = false :=
  ⟨by decide +kernel, accepted_of (by decide +kernel), by decide +kernel⟩

theorem witness_provisionRefused :
    (1, Instr.provision Session.pcie) ∈
  [(1, Instr.provision Session.pcie), (2, Instr.transfer Session.pcie), (3, Instr.decommission Session.pcie),
    (4, Instr.bootProfile Session.pcie), (5, Instr.certLoad Session.pcie)] ∧
    Accepted owned Session.pcie Reg.TRU_CMD (BitVec.ofNat 32 (2 ^ 31 + 1)) ∧
    truAccepts owned.lifecycle 1 = false :=
  ⟨by decide +kernel, accepted_of (by decide +kernel), by decide +kernel⟩

theorem witness_bootProfile :
    (4, Instr.bootProfile Session.pcie) ∈
  [(1, Instr.provision Session.pcie), (2, Instr.transfer Session.pcie), (3, Instr.decommission Session.pcie),
    (4, Instr.bootProfile Session.pcie), (5, Instr.certLoad Session.pcie)] ∧
    Accepted owned Session.pcie Reg.TRU_CMD (BitVec.ofNat 32 (2 ^ 31 + 4)) ∧
    truAccepts owned.lifecycle 4 = true ∧
    owned.pwr.queue = [] ∧
    owned.alloc + 250 ≤ owned.effCeiling ∧
    ((4 = 1 ∧
    (List.length owned.truInput = 97 ∨ List.length owned.truInput = 2049) ∧
    owned.tru.inForce ownerRegion = none ∧
    ∃ g, owned.tru.unused ownerRegion = some g ∧ bootCommit = ownerCommit 1 g owned.truInput true) ∨
  4 = 1 ∧
    (List.length owned.truInput = 97 ∨ List.length owned.truInput = 2049) ∧
    (∃ g, owned.tru.inForce ownerRegion = some g ∧ sha384 owned.truInput = owned.tru.ownerHash g) ∧
    bootCommit = lifecycleCommit 1 2 ∨
    4 = 2 ∧
    owned.blobCheck owned.truInput 1 = 0 ∧
    bootCommit =
            ownerCommit 2 (beAt owned.truInput 7 1) (bytesAt owned.truInput 32 (beAt owned.truInput 28 4))
              false ∨
      4 = 3 ∧
    owned.blobCheck owned.truInput 2 = 0 ∧ owned.rte.active = false ∧ bootCommit = lifecycleCommit 3 3 ∨
        4 = 4 ∧
    ∃ g,
            owned.tru.unused bootRegion = some g ∧
    bootCommit.words = slotWords (bootRegion.slot g) 8 [45057 * 2 ^ 48, owned.bootWord] ∧
    bootCommit.asker = 0 ∧
    bootCommit.op = 4 ∧ bootCommit.region = 314 ∧ bootCommit.aim = g ∧ bootCommit.next = false) :=
  ⟨by decide +kernel, accepted_of (by decide +kernel), by decide +kernel⟩

theorem witness_certBad :
    (5, Instr.certLoad Session.pcie) ∈
  [(1, Instr.provision Session.pcie), (2, Instr.transfer Session.pcie), (3, Instr.decommission Session.pcie),
    (4, Instr.bootProfile Session.pcie), (5, Instr.certLoad Session.pcie)] ∧
    Accepted up Session.pcie Reg.TRU_CMD (BitVec.ofNat 32 (2 ^ 31 + 5)) ∧
    5 = 5 ∧
    truAccepts up.lifecycle 5 = true ∧
    chainValid up.truInput up.tru.ident = false :=
  ⟨by decide +kernel, accepted_of (by decide +kernel), by decide +kernel⟩

theorem witness_gcmSealRefused :
    (tenant 1 5 64 0 0).pwr.inReset = false ∧
    3 = (3#5).toNat ∧
    (1, Instr.gcmSeal 3 [] []) ∈
  [(1, Instr.gcmSeal 3#5 [] []), (2, Instr.gcmOpen 3#5 [] []), (3, Instr.cbcEnc 3#5 []),
    (4, Instr.cbcDec 3#5 []), (5, Instr.cmacGen 3#5 []), (6, Instr.cmacVer 3#5 []), (7, Instr.hmacGen 3#5 []),
    (8, Instr.hmacVer 3#5 []), (9, Instr.xtsEnc 3#5 []), (10, Instr.xtsDec 3#5 []), (16, Instr.derive 3#5),
    (17, Instr.jobErase 3#5)] ∧
    (tenant 1 5 64 0 0).jobReady 3 = true ∧
    (((tenant 1 5 64 0 0).page 3).desc ((tenant 1 5 64 0 0).page 3).sqHead).op = 1 ∧
    (tenant 1 5 64 0 0).jobCheck 3 (((tenant 1 5 64 0 0).page 3).desc ((tenant 1 5 64 0 0).page 3).sqHead) ≠ 0 :=
  by decide +kernel

theorem witness_gcmOpenRefused :
    (tenant 2 1 64 0 0).pwr.inReset = false ∧
    3 = (3#5).toNat ∧
    (2, Instr.gcmOpen 3 [] []) ∈
  [(1, Instr.gcmSeal 3#5 [] []), (2, Instr.gcmOpen 3#5 [] []), (3, Instr.cbcEnc 3#5 []),
    (4, Instr.cbcDec 3#5 []), (5, Instr.cmacGen 3#5 []), (6, Instr.cmacVer 3#5 []), (7, Instr.hmacGen 3#5 []),
    (8, Instr.hmacVer 3#5 []), (9, Instr.xtsEnc 3#5 []), (10, Instr.xtsDec 3#5 []), (16, Instr.derive 3#5),
    (17, Instr.jobErase 3#5)] ∧
    (tenant 2 1 64 0 0).jobReady 3 = true ∧
    (((tenant 2 1 64 0 0).page 3).desc ((tenant 2 1 64 0 0).page 3).sqHead).op = 2 ∧
    (tenant 2 1 64 0 0).jobCheck 3 (((tenant 2 1 64 0 0).page 3).desc ((tenant 2 1 64 0 0).page 3).sqHead) ≠ 0 :=
  by decide +kernel

theorem witness_cbcEncRefused :
    (tenant 3 1 262129 0 0).pwr.inReset = false ∧
    3 = (3#5).toNat ∧
    (3, Instr.cbcEnc 3 []) ∈
  [(1, Instr.gcmSeal 3#5 [] []), (2, Instr.gcmOpen 3#5 [] []), (3, Instr.cbcEnc 3#5 []),
    (4, Instr.cbcDec 3#5 []), (5, Instr.cmacGen 3#5 []), (6, Instr.cmacVer 3#5 []), (7, Instr.hmacGen 3#5 []),
    (8, Instr.hmacVer 3#5 []), (9, Instr.xtsEnc 3#5 []), (10, Instr.xtsDec 3#5 []), (16, Instr.derive 3#5),
    (17, Instr.jobErase 3#5)] ∧
    (tenant 3 1 262129 0 0).jobReady 3 = true ∧
    (((tenant 3 1 262129 0 0).page 3).desc ((tenant 3 1 262129 0 0).page 3).sqHead).op = 3 ∧
    (tenant 3 1 262129 0 0).jobCheck 3
    (((tenant 3 1 262129 0 0).page 3).desc ((tenant 3 1 262129 0 0).page 3).sqHead) ≠
  0 :=
  by decide +kernel

theorem witness_cbcDecRefused :
    (tenant 4 1 17 0 0).pwr.inReset = false ∧
    3 = (3#5).toNat ∧
    (4, Instr.cbcDec 3 []) ∈
  [(1, Instr.gcmSeal 3#5 [] []), (2, Instr.gcmOpen 3#5 [] []), (3, Instr.cbcEnc 3#5 []),
    (4, Instr.cbcDec 3#5 []), (5, Instr.cmacGen 3#5 []), (6, Instr.cmacVer 3#5 []), (7, Instr.hmacGen 3#5 []),
    (8, Instr.hmacVer 3#5 []), (9, Instr.xtsEnc 3#5 []), (10, Instr.xtsDec 3#5 []), (16, Instr.derive 3#5),
    (17, Instr.jobErase 3#5)] ∧
    (tenant 4 1 17 0 0).jobReady 3 = true ∧
    (((tenant 4 1 17 0 0).page 3).desc ((tenant 4 1 17 0 0).page 3).sqHead).op = 4 ∧
    (tenant 4 1 17 0 0).jobCheck 3 (((tenant 4 1 17 0 0).page 3).desc ((tenant 4 1 17 0 0).page 3).sqHead) ≠ 0 :=
  by decide +kernel

theorem witness_cmacGenRefused :
    (tenant 5 1 64 0 7).pwr.inReset = false ∧
    3 = (3#5).toNat ∧
    (5, Instr.cmacGen 3 []) ∈
  [(1, Instr.gcmSeal 3#5 [] []), (2, Instr.gcmOpen 3#5 [] []), (3, Instr.cbcEnc 3#5 []),
    (4, Instr.cbcDec 3#5 []), (5, Instr.cmacGen 3#5 []), (6, Instr.cmacVer 3#5 []), (7, Instr.hmacGen 3#5 []),
    (8, Instr.hmacVer 3#5 []), (9, Instr.xtsEnc 3#5 []), (10, Instr.xtsDec 3#5 []), (16, Instr.derive 3#5),
    (17, Instr.jobErase 3#5)] ∧
    (tenant 5 1 64 0 7).jobReady 3 = true ∧
    (((tenant 5 1 64 0 7).page 3).desc ((tenant 5 1 64 0 7).page 3).sqHead).op = 5 ∧
    (tenant 5 1 64 0 7).jobCheck 3 (((tenant 5 1 64 0 7).page 3).desc ((tenant 5 1 64 0 7).page 3).sqHead) ≠ 0 :=
  by decide +kernel

theorem witness_cmacVerRefused :
    (tenant 6 2 15 0 0).pwr.inReset = false ∧
    3 = (3#5).toNat ∧
    (6, Instr.cmacVer 3 []) ∈
  [(1, Instr.gcmSeal 3#5 [] []), (2, Instr.gcmOpen 3#5 [] []), (3, Instr.cbcEnc 3#5 []),
    (4, Instr.cbcDec 3#5 []), (5, Instr.cmacGen 3#5 []), (6, Instr.cmacVer 3#5 []), (7, Instr.hmacGen 3#5 []),
    (8, Instr.hmacVer 3#5 []), (9, Instr.xtsEnc 3#5 []), (10, Instr.xtsDec 3#5 []), (16, Instr.derive 3#5),
    (17, Instr.jobErase 3#5)] ∧
    (tenant 6 2 15 0 0).jobReady 3 = true ∧
    (((tenant 6 2 15 0 0).page 3).desc ((tenant 6 2 15 0 0).page 3).sqHead).op = 6 ∧
    (tenant 6 2 15 0 0).jobCheck 3 (((tenant 6 2 15 0 0).page 3).desc ((tenant 6 2 15 0 0).page 3).sqHead) ≠ 0 :=
  by decide +kernel

theorem witness_hmacGenRefused :
    (tenant 7 3 64 1 0).pwr.inReset = false ∧
    3 = (3#5).toNat ∧
    (7, Instr.hmacGen 3 []) ∈
  [(1, Instr.gcmSeal 3#5 [] []), (2, Instr.gcmOpen 3#5 [] []), (3, Instr.cbcEnc 3#5 []),
    (4, Instr.cbcDec 3#5 []), (5, Instr.cmacGen 3#5 []), (6, Instr.cmacVer 3#5 []), (7, Instr.hmacGen 3#5 []),
    (8, Instr.hmacVer 3#5 []), (9, Instr.xtsEnc 3#5 []), (10, Instr.xtsDec 3#5 []), (16, Instr.derive 3#5),
    (17, Instr.jobErase 3#5)] ∧
    (tenant 7 3 64 1 0).jobReady 3 = true ∧
    (((tenant 7 3 64 1 0).page 3).desc ((tenant 7 3 64 1 0).page 3).sqHead).op = 7 ∧
    (tenant 7 3 64 1 0).jobCheck 3 (((tenant 7 3 64 1 0).page 3).desc ((tenant 7 3 64 1 0).page 3).sqHead) ≠ 0 :=
  by decide +kernel

theorem witness_hmacVerRefused :
    (tenant 8 3 47 0 0).pwr.inReset = false ∧
    3 = (3#5).toNat ∧
    (8, Instr.hmacVer 3 []) ∈
  [(1, Instr.gcmSeal 3#5 [] []), (2, Instr.gcmOpen 3#5 [] []), (3, Instr.cbcEnc 3#5 []),
    (4, Instr.cbcDec 3#5 []), (5, Instr.cmacGen 3#5 []), (6, Instr.cmacVer 3#5 []), (7, Instr.hmacGen 3#5 []),
    (8, Instr.hmacVer 3#5 []), (9, Instr.xtsEnc 3#5 []), (10, Instr.xtsDec 3#5 []), (16, Instr.derive 3#5),
    (17, Instr.jobErase 3#5)] ∧
    (tenant 8 3 47 0 0).jobReady 3 = true ∧
    (((tenant 8 3 47 0 0).page 3).desc ((tenant 8 3 47 0 0).page 3).sqHead).op = 8 ∧
    (tenant 8 3 47 0 0).jobCheck 3 (((tenant 8 3 47 0 0).page 3).desc ((tenant 8 3 47 0 0).page 3).sqHead) ≠ 0 :=
  by decide +kernel

theorem witness_xtsEncRefused :
    (tenant 9 4 262144 0 0).pwr.inReset = false ∧
    3 = (3#5).toNat ∧
    (9, Instr.xtsEnc 3 []) ∈
  [(1, Instr.gcmSeal 3#5 [] []), (2, Instr.gcmOpen 3#5 [] []), (3, Instr.cbcEnc 3#5 []),
    (4, Instr.cbcDec 3#5 []), (5, Instr.cmacGen 3#5 []), (6, Instr.cmacVer 3#5 []), (7, Instr.hmacGen 3#5 []),
    (8, Instr.hmacVer 3#5 []), (9, Instr.xtsEnc 3#5 []), (10, Instr.xtsDec 3#5 []), (16, Instr.derive 3#5),
    (17, Instr.jobErase 3#5)] ∧
    (tenant 9 4 262144 0 0).jobReady 3 = true ∧
    (((tenant 9 4 262144 0 0).page 3).desc ((tenant 9 4 262144 0 0).page 3).sqHead).op = 9 ∧
    (tenant 9 4 262144 0 0).jobCheck 3
    (((tenant 9 4 262144 0 0).page 3).desc ((tenant 9 4 262144 0 0).page 3).sqHead) ≠
  0 :=
  by decide +kernel

theorem witness_xtsDecRefused :
    (tenant 10 0 64 0 0).pwr.inReset = false ∧
    3 = (3#5).toNat ∧
    (10, Instr.xtsDec 3 []) ∈
  [(1, Instr.gcmSeal 3#5 [] []), (2, Instr.gcmOpen 3#5 [] []), (3, Instr.cbcEnc 3#5 []),
    (4, Instr.cbcDec 3#5 []), (5, Instr.cmacGen 3#5 []), (6, Instr.cmacVer 3#5 []), (7, Instr.hmacGen 3#5 []),
    (8, Instr.hmacVer 3#5 []), (9, Instr.xtsEnc 3#5 []), (10, Instr.xtsDec 3#5 []), (16, Instr.derive 3#5),
    (17, Instr.jobErase 3#5)] ∧
    (tenant 10 0 64 0 0).jobReady 3 = true ∧
    (((tenant 10 0 64 0 0).page 3).desc ((tenant 10 0 64 0 0).page 3).sqHead).op = 10 ∧
    (tenant 10 0 64 0 0).jobCheck 3 (((tenant 10 0 64 0 0).page 3).desc ((tenant 10 0 64 0 0).page 3).sqHead) ≠ 0 :=
  by decide +kernel

theorem witness_deriveRefused :
    (tenant 16 5 6 0 0).pwr.inReset = false ∧
    3 = (3#5).toNat ∧
    (16, Instr.derive 3) ∈
  [(1, Instr.gcmSeal 3#5 [] []), (2, Instr.gcmOpen 3#5 [] []), (3, Instr.cbcEnc 3#5 []),
    (4, Instr.cbcDec 3#5 []), (5, Instr.cmacGen 3#5 []), (6, Instr.cmacVer 3#5 []), (7, Instr.hmacGen 3#5 []),
    (8, Instr.hmacVer 3#5 []), (9, Instr.xtsEnc 3#5 []), (10, Instr.xtsDec 3#5 []), (16, Instr.derive 3#5),
    (17, Instr.jobErase 3#5)] ∧
    (tenant 16 5 6 0 0).jobReady 3 = true ∧
    (((tenant 16 5 6 0 0).page 3).desc ((tenant 16 5 6 0 0).page 3).sqHead).op = 16 ∧
    (tenant 16 5 6 0 0).jobCheck 3 (((tenant 16 5 6 0 0).page 3).desc ((tenant 16 5 6 0 0).page 3).sqHead) ≠ 0 :=
  by decide +kernel

theorem witness_jobEraseRefused :
    (tenant 17 0 1 0 0).pwr.inReset = false ∧
    3 = (3#5).toNat ∧
    (17, Instr.jobErase 3) ∈
  [(1, Instr.gcmSeal 3#5 [] []), (2, Instr.gcmOpen 3#5 [] []), (3, Instr.cbcEnc 3#5 []),
    (4, Instr.cbcDec 3#5 []), (5, Instr.cmacGen 3#5 []), (6, Instr.cmacVer 3#5 []), (7, Instr.hmacGen 3#5 []),
    (8, Instr.hmacVer 3#5 []), (9, Instr.xtsEnc 3#5 []), (10, Instr.xtsDec 3#5 []), (16, Instr.derive 3#5),
    (17, Instr.jobErase 3#5)] ∧
    (tenant 17 0 1 0 0).jobReady 3 = true ∧
    (((tenant 17 0 1 0 0).page 3).desc ((tenant 17 0 1 0 0).page 3).sqHead).op = 17 ∧
    (tenant 17 0 1 0 0).jobCheck 3 (((tenant 17 0 1 0 0).page 3).desc ((tenant 17 0 1 0 0).page 3).sqHead) ≠ 0 :=
  by decide +kernel

theorem witness_gcmSeal :
    (tenant 1 0 64 5 0).pwr.inReset = false ∧
    3 = (3#5).toNat ∧
    (tenant 1 0 64 5 0).jobReady 3 = true ∧
    (tenant 1 0 64 5 0).jobCheck 3 (((tenant 1 0 64 5 0).page 3).desc ((tenant 1 0 64 5 0).page 3).sqHead) = 0 ∧
    ((tenant 1 0 64 5 0).page 3).keys.getD
    (((tenant 1 0 64 5 0).page 3).desc ((tenant 1 0 64 5 0).page 3).sqHead).slot none =
  some (1, List.replicate 32 1) ∧
    (((tenant 1 0 64 5 0).page 3).desc ((tenant 1 0 64 5 0).page 3).sqHead).op = 1 :=
  by decide +kernel

theorem witness_gcmOpen :
    (tenant 2 0 64 5 9).pwr.inReset = false ∧
    3 = (3#5).toNat ∧
    (tenant 2 0 64 5 9).jobReady 3 = true ∧
    (tenant 2 0 64 5 9).jobCheck 3 (((tenant 2 0 64 5 9).page 3).desc ((tenant 2 0 64 5 9).page 3).sqHead) = 0 ∧
    ((tenant 2 0 64 5 9).page 3).keys.getD
    (((tenant 2 0 64 5 9).page 3).desc ((tenant 2 0 64 5 9).page 3).sqHead).slot none =
  some (1, List.replicate 32 1) ∧
    (((tenant 2 0 64 5 9).page 3).desc ((tenant 2 0 64 5 9).page 3).sqHead).op = 2 :=
  by decide +kernel

theorem witness_cbcEnc :
    (tenant 3 1 20 0 0).pwr.inReset = false ∧
    3 = (3#5).toNat ∧
    (tenant 3 1 20 0 0).jobReady 3 = true ∧
    (tenant 3 1 20 0 0).jobCheck 3 (((tenant 3 1 20 0 0).page 3).desc ((tenant 3 1 20 0 0).page 3).sqHead) = 0 ∧
    ((tenant 3 1 20 0 0).page 3).keys.getD
    (((tenant 3 1 20 0 0).page 3).desc ((tenant 3 1 20 0 0).page 3).sqHead).slot none =
  some (2, List.replicate 32 2) ∧
    (((tenant 3 1 20 0 0).page 3).desc ((tenant 3 1 20 0 0).page 3).sqHead).op = 3 :=
  by decide +kernel

theorem witness_cbcDec :
    (tenant 4 1 32 0 9).pwr.inReset = false ∧
    3 = (3#5).toNat ∧
    (tenant 4 1 32 0 9).jobReady 3 = true ∧
    (tenant 4 1 32 0 9).jobCheck 3 (((tenant 4 1 32 0 9).page 3).desc ((tenant 4 1 32 0 9).page 3).sqHead) = 0 ∧
    ((tenant 4 1 32 0 9).page 3).keys.getD
    (((tenant 4 1 32 0 9).page 3).desc ((tenant 4 1 32 0 9).page 3).sqHead).slot none =
  some (2, List.replicate 32 2) ∧
    (((tenant 4 1 32 0 9).page 3).desc ((tenant 4 1 32 0 9).page 3).sqHead).op = 4 :=
  by decide +kernel

theorem witness_cmacGen :
    (tenant 5 2 0 0 0).pwr.inReset = false ∧
    3 = (3#5).toNat ∧
    (tenant 5 2 0 0 0).jobReady 3 = true ∧
    (tenant 5 2 0 0 0).jobCheck 3 (((tenant 5 2 0 0 0).page 3).desc ((tenant 5 2 0 0 0).page 3).sqHead) = 0 ∧
    ((tenant 5 2 0 0 0).page 3).keys.getD (((tenant 5 2 0 0 0).page 3).desc ((tenant 5 2 0 0 0).page 3).sqHead).slot
    none =
  some (3, List.replicate 32 3) ∧
    (((tenant 5 2 0 0 0).page 3).desc ((tenant 5 2 0 0 0).page 3).sqHead).op = 5 :=
  by decide +kernel

theorem witness_cmacVer :
    (tenant 6 2 16 0 0).pwr.inReset = false ∧
    3 = (3#5).toNat ∧
    (tenant 6 2 16 0 0).jobReady 3 = true ∧
    (tenant 6 2 16 0 0).jobCheck 3 (((tenant 6 2 16 0 0).page 3).desc ((tenant 6 2 16 0 0).page 3).sqHead) = 0 ∧
    ((tenant 6 2 16 0 0).page 3).keys.getD
    (((tenant 6 2 16 0 0).page 3).desc ((tenant 6 2 16 0 0).page 3).sqHead).slot none =
  some (3, List.replicate 32 3) ∧
    (((tenant 6 2 16 0 0).page 3).desc ((tenant 6 2 16 0 0).page 3).sqHead).op = 6 :=
  by decide +kernel

theorem witness_hmacGen :
    (tenant 7 3 64 0 0).pwr.inReset = false ∧
    3 = (3#5).toNat ∧
    (tenant 7 3 64 0 0).jobReady 3 = true ∧
    (tenant 7 3 64 0 0).jobCheck 3 (((tenant 7 3 64 0 0).page 3).desc ((tenant 7 3 64 0 0).page 3).sqHead) = 0 ∧
    ((tenant 7 3 64 0 0).page 3).keys.getD
    (((tenant 7 3 64 0 0).page 3).desc ((tenant 7 3 64 0 0).page 3).sqHead).slot none =
  some (4, List.replicate 48 4) ∧
    (((tenant 7 3 64 0 0).page 3).desc ((tenant 7 3 64 0 0).page 3).sqHead).op = 7 :=
  by decide +kernel

theorem witness_hmacVer :
    (tenant 8 3 48 0 0).pwr.inReset = false ∧
    3 = (3#5).toNat ∧
    (tenant 8 3 48 0 0).jobReady 3 = true ∧
    (tenant 8 3 48 0 0).jobCheck 3 (((tenant 8 3 48 0 0).page 3).desc ((tenant 8 3 48 0 0).page 3).sqHead) = 0 ∧
    ((tenant 8 3 48 0 0).page 3).keys.getD
    (((tenant 8 3 48 0 0).page 3).desc ((tenant 8 3 48 0 0).page 3).sqHead).slot none =
  some (4, List.replicate 48 4) ∧
    (((tenant 8 3 48 0 0).page 3).desc ((tenant 8 3 48 0 0).page 3).sqHead).op = 8 :=
  by decide +kernel

theorem witness_xtsEnc :
    (tenant 9 4 16 0 9).pwr.inReset = false ∧
    3 = (3#5).toNat ∧
    (tenant 9 4 16 0 9).jobReady 3 = true ∧
    (tenant 9 4 16 0 9).jobCheck 3 (((tenant 9 4 16 0 9).page 3).desc ((tenant 9 4 16 0 9).page 3).sqHead) = 0 ∧
    ((tenant 9 4 16 0 9).page 3).keys.getD
    (((tenant 9 4 16 0 9).page 3).desc ((tenant 9 4 16 0 9).page 3).sqHead).slot none =
  some (5, List.replicate 64 5) ∧
    (((tenant 9 4 16 0 9).page 3).desc ((tenant 9 4 16 0 9).page 3).sqHead).op = 9 :=
  by decide +kernel

theorem witness_xtsDec :
    (tenant 10 4 17 0 9).pwr.inReset = false ∧
    3 = (3#5).toNat ∧
    (tenant 10 4 17 0 9).jobReady 3 = true ∧
    (tenant 10 4 17 0 9).jobCheck 3 (((tenant 10 4 17 0 9).page 3).desc ((tenant 10 4 17 0 9).page 3).sqHead) = 0 ∧
    ((tenant 10 4 17 0 9).page 3).keys.getD
    (((tenant 10 4 17 0 9).page 3).desc ((tenant 10 4 17 0 9).page 3).sqHead).slot none =
  some (5, List.replicate 64 5) ∧
    (((tenant 10 4 17 0 9).page 3).desc ((tenant 10 4 17 0 9).page 3).sqHead).op = 10 :=
  by decide +kernel

theorem witness_derive :
    (tenant 16 5 5 0 9).pwr.inReset = false ∧
    3 = (3#5).toNat ∧
    (tenant 16 5 5 0 9).jobReady 3 = true ∧
    (tenant 16 5 5 0 9).jobCheck 3 (((tenant 16 5 5 0 9).page 3).desc ((tenant 16 5 5 0 9).page 3).sqHead) = 0 ∧
    (((tenant 16 5 5 0 9).page 3).desc ((tenant 16 5 5 0 9).page 3).sqHead).op = 16 :=
  by decide +kernel

theorem witness_jobErase :
    (tenant 17 0 0 0 0).pwr.inReset = false ∧
    3 = (3#5).toNat ∧
    (tenant 17 0 0 0 0).jobReady 3 = true ∧
    (tenant 17 0 0 0 0).jobCheck 3 (((tenant 17 0 0 0 0).page 3).desc ((tenant 17 0 0 0 0).page 3).sqHead) = 0 ∧
    (((tenant 17 0 0 0 0).page 3).desc ((tenant 17 0 0 0 0).page 3).sqHead).op = 17 :=
  by decide +kernel

theorem witness_jobComplete :
    (jobRuns 9 4 16 0 [1, 2] false).pwr.inReset = false ∧
    3 = (3#5).toNat ∧
    ((jobRuns 9 4 16 0 [1, 2] false).page 3).run = some (jobOf (jobRuns 9 4 16 0 [1, 2] false)) :=
  by decide +kernel

theorem witness_jobDmaError :
    (jobRuns 4 1 16 2 [1, 2] false).pwr.inReset = false ∧
    3 = (3#5).toNat ∧
    ((jobRuns 4 1 16 2 [1, 2] false).page 3).run = some (jobOf (jobRuns 4 1 16 2 [1, 2] false)) ∧
    (jobOf (jobRuns 4 1 16 2 [1, 2] false)).status ≤ 2 ∧
    (jobOf (jobRuns 4 1 16 2 [1, 2] false)).op ≠ 16 ∧
    (jobOf (jobRuns 4 1 16 2 [1, 2] false)).op ≠ 17 :=
  by decide +kernel

theorem witness_jobErased :
    (jobRuns 10 4 16 0 [1, 2] true).pwr.inReset = false ∧
    3 = (3#5).toNat ∧
    ((jobRuns 10 4 16 0 [1, 2] true).page 3).run = some (jobOf (jobRuns 10 4 16 0 [1, 2] true)) ∧
    (jobOf (jobRuns 10 4 16 0 [1, 2] true)).erased = true :=
  by decide +kernel

theorem witness_sqTail :
    (tenant 9 4 16 0 9).pwr.inReset = false ∧
    3 = (3#5).toNat ∧
    (tenant 9 4 16 0 9).pageEn 3 = true :=
  by decide +kernel

theorem witness_sqTailOff :
    up.pwr.inReset = false ∧
    31 = (31#5).toNat ∧
    up.pageEn 31 = false :=
  by decide +kernel

theorem witness_pageReset :
    (pageSelected (jobRuns 9 4 16 0 [1, 2] false)).pwr.inReset = false ∧
    3 = (3#5).toNat ∧
    3 = (pageSelected (jobRuns 9 4 16 0 [1, 2] false)).fld Reg.TRU_PAGE_SEL 4 0 ∧
    Accepted (pageSelected (jobRuns 9 4 16 0 [1, 2] false)) Session.pcie Reg.TRU_PAGE_CTRL
  (if false = true then (pageSelected (jobRuns 9 4 16 0 [1, 2] false)).withField Reg.TRU_PAGE_CTRL 0 0 0
  else (pageSelected (jobRuns 9 4 16 0 [1, 2] false)).withField Reg.TRU_PAGE_CTRL 31 31 1) ∧
    (false = true → (pageSelected (jobRuns 9 4 16 0 [1, 2] false)).pageEn 3 = true) :=
  ⟨by decide +kernel, by decide +kernel, by decide +kernel, accepted_of (by decide +kernel), by decide +kernel⟩

theorem witness_pageDisable :
    (pageSelected (jobRuns 9 4 16 0 [1, 2] false)).pwr.inReset = false ∧
    3 = (3#5).toNat ∧
    3 = (pageSelected (jobRuns 9 4 16 0 [1, 2] false)).fld Reg.TRU_PAGE_SEL 4 0 ∧
    Accepted (pageSelected (jobRuns 9 4 16 0 [1, 2] false)) Session.pcie Reg.TRU_PAGE_CTRL
  (if true = true then (pageSelected (jobRuns 9 4 16 0 [1, 2] false)).withField Reg.TRU_PAGE_CTRL 0 0 0
  else (pageSelected (jobRuns 9 4 16 0 [1, 2] false)).withField Reg.TRU_PAGE_CTRL 31 31 1) ∧
    (true = true → (pageSelected (jobRuns 9 4 16 0 [1, 2] false)).pageEn 3 = true) :=
  ⟨by decide +kernel, by decide +kernel, by decide +kernel, accepted_of (by decide +kernel), by decide +kernel⟩

theorem witness_released :
    up.pwr.inReset = false ∧
    up.tru.ready = true :=
  by decide +kernel

theorem witness_rngEarly :
    (starting unreleased).pwr.inReset = false ∧
    (starting unreleased).tru.testing = true ∧
    (starting unreleased).tru.rngFail = false ∧
    ((starting unreleased).tru.ready = false ∨
  (starting unreleased).tru.br ≠ none ∨ (starting unreleased).tru.fault = true) :=
  by decide +kernel

theorem witness_rngSeeded :
    (starting (seeded up)).pwr.inReset = false ∧
    (starting (seeded up)).tru.testing = true ∧
    (starting (seeded up)).tru.rngFail = false ∧
    ((starting (seeded up)).tru.ready = false ∨
  (starting (seeded up)).tru.br ≠ none ∨ (starting (seeded up)).tru.fault = true) :=
  by decide +kernel

theorem witness_rngTimeoutNot :
    (seeded up).pwr.inReset = false ∧
    ((seeded up).tru.ready = false ∨ (seeded up).tru.br ≠ none ∨ (seeded up).tru.fault = true) :=
  by decide +kernel

theorem witness_otpNone :
    up.pwr.inReset = false ∧
    (∀ (c : OtpCommit), up.tru.busy = some c → c.waiting = true) :=
  by decide +kernel

theorem witness_otpReleaseBoot :
    (starting unreleased).pwr.inReset = false ∧
    (starting unreleased).tru.ready = false :=
  by decide +kernel

theorem witness_rngFails :
    failedTwice.pwr.inReset = false :=
  by decide +kernel

theorem witness_notReady :
    up.pwr.inReset = false ∧
    3 = (3#5).toNat ∧
    (1, Instr.gcmSeal 3 [] []) ∈
  [(1, Instr.gcmSeal 3#5 [] []), (2, Instr.gcmOpen 3#5 [] []), (3, Instr.cbcEnc 3#5 []),
    (4, Instr.cbcDec 3#5 []), (5, Instr.cmacGen 3#5 []), (6, Instr.cmacVer 3#5 []), (7, Instr.hmacGen 3#5 []),
    (8, Instr.hmacVer 3#5 []), (9, Instr.xtsEnc 3#5 []), (10, Instr.xtsDec 3#5 []), (16, Instr.derive 3#5),
    (17, Instr.jobErase 3#5)] ∧
    (up.jobReady 3 = false ∨ ((up.page 3).desc (up.page 3).sqHead).op ≠ 1) :=
  by decide +kernel

theorem witness_badDesc :
    (tenant 11 0 16 0 0).pwr.inReset = false ∧
    3 = (3#5).toNat ∧
    ((tenant 11 0 16 0 0).page 3).run = none ∧
    (tenant 11 0 16 0 0).jobReady 3 = true ∧
    knownOp (((tenant 11 0 16 0 0).page 3).desc ((tenant 11 0 16 0 0).page 3).sqHead).op = false :=
  by decide +kernel

theorem witness_descWaits :
    (tenant 9 4 16 0 0).pwr.inReset = false ∧
    3 = (3#5).toNat ∧
    ((tenant 9 4 16 0 0).page 3).run = none ∧
    ((tenant 9 4 16 0 0).jobReady 3 = false ∨
  knownOp (((tenant 9 4 16 0 0).page 3).desc ((tenant 9 4 16 0 0).page 3).sqHead).op = true) :=
  by decide +kernel

theorem witness_noErased :
    (tenant 9 4 16 0 0).pwr.inReset = false ∧
    3 = (3#5).toNat ∧
    ((tenant 9 4 16 0 0).page 3).run = none :=
  by decide +kernel

theorem witness_jobKept :
    (jobRuns 9 4 16 0 [1, 2] false).pwr.inReset = false ∧
    3 = (3#5).toNat ∧
    ((jobRuns 9 4 16 0 [1, 2] false).page 3).run = some (jobOf (jobRuns 9 4 16 0 [1, 2] false)) ∧
    (jobOf (jobRuns 9 4 16 0 [1, 2] false)).erased = false :=
  by decide +kernel

theorem witness_runAddsOther :
    (engineAt (ins 1 2 3 4 7) id).pwr.inReset = false ∧
    (engineAt (ins 1 2 3 4 7) id).engine (2#6).toNat = some freshPass ∧
    freshPass.cycles < (engineAt (ins 1 2 3 4 7) id).cycMax ∧
    opOf ((engineAt (ins 1 2 3 4 7) id).fetch freshPass) ≠ 8 :=
  by decide +kernel

theorem witness_runAddsOne :
    (engineAt (ins 1 2 3 4 7) id).pwr.inReset = false ∧
    (engineAt (ins 1 2 3 4 7) id).engine (2#6).toNat = some freshPass ∧
    freshPass.cycles < (engineAt (ins 1 2 3 4 7) id).cycMax ∧
    opOf ((engineAt (ins 1 2 3 4 7) id).fetch secondIns) = 8 ∧
    secondIns.cycles < (engineAt (ins 1 2 3 4 7) id).cycMax :=
  by decide +kernel

theorem witness_loadLdf :
    (engineAt (ins 2 3 0 0 764) id).pwr.inReset = false ∧
    (engineAt (ins 2 3 0 0 764) id).engine (2#6).toNat = some freshPass ∧
    freshPass.cycles < (engineAt (ins 2 3 0 0 764) id).cycMax ∧
    (opOf ((engineAt (ins 2 3 0 0 764) id).fetch freshPass), Instr.ldf 2#6, 252, 4) ∈
  [(2, Instr.ldf 2#6,
      BitVec.toNat
        (freshPass.cursor + BitVec.ofNat 32 (fieldOf ((engineAt (ins 2 3 0 0 764) id).fetch freshPass) 7 0)),
      2 ^ fieldOf ((engineAt (ins 2 3 0 0 764) id).fetch freshPass) 9 8),
    (3, Instr.ldr 2#6,
      BitVec.toNat
        (freshPass.cursor + freshPass.g (fieldOf ((engineAt (ins 2 3 0 0 764) id).fetch freshPass) 21 18)),
      2 ^ fieldOf ((engineAt (ins 2 3 0 0 764) id).fetch freshPass) 9 8),
    (36, Instr.key 2#6,
      BitVec.toNat
        (freshPass.cursor + BitVec.ofNat 32 (fieldOf ((engineAt (ins 2 3 0 0 764) id).fetch freshPass) 7 0)),
      fieldOf ((engineAt (ins 2 3 0 0 764) id).fetch freshPass) 12 8)] ∧
    (252 + 4 ≤ 256 ∨ List.length freshPass.pkt.frame < 252) :=
  by decide +kernel

theorem witness_loadLdr :
    (engineAt (ins 3 3 1 0 512) atStart).pwr.inReset = false ∧
    (engineAt (ins 3 3 1 0 512) atStart).engine (2#6).toNat = some (atStart freshPass) ∧
    (atStart freshPass).cycles < (engineAt (ins 3 3 1 0 512) atStart).cycMax ∧
    (opOf ((engineAt (ins 3 3 1 0 512) atStart).fetch (atStart freshPass)), Instr.ldr 2#6, 252, 4) ∈
  [(2, Instr.ldf 2#6,
      BitVec.toNat
        ((atStart freshPass).cursor +
          BitVec.ofNat 32 (fieldOf ((engineAt (ins 3 3 1 0 512) atStart).fetch (atStart freshPass)) 7 0)),
      2 ^ fieldOf ((engineAt (ins 3 3 1 0 512) atStart).fetch (atStart freshPass)) 9 8),
    (3, Instr.ldr 2#6,
      BitVec.toNat
        ((atStart freshPass).cursor +
          (atStart freshPass).g
            (fieldOf ((engineAt (ins 3 3 1 0 512) atStart).fetch (atStart freshPass)) 21 18)),
      2 ^ fieldOf ((engineAt (ins 3 3 1 0 512) atStart).fetch (atStart freshPass)) 9 8),
    (36, Instr.key 2#6,
      BitVec.toNat
        ((atStart freshPass).cursor +
          BitVec.ofNat 32 (fieldOf ((engineAt (ins 3 3 1 0 512) atStart).fetch (atStart freshPass)) 7 0)),
      fieldOf ((engineAt (ins 3 3 1 0 512) atStart).fetch (atStart freshPass)) 12 8)] ∧
    (252 + 4 ≤ 256 ∨ List.length (atStart freshPass).pkt.frame < 252) :=
  by decide +kernel

theorem witness_loadKey :
    (engineAt (ins 36 2 0 0 511) id).pwr.inReset = false ∧
    (engineAt (ins 36 2 0 0 511) id).engine (2#6).toNat = some freshPass ∧
    freshPass.cycles < (engineAt (ins 36 2 0 0 511) id).cycMax ∧
    (opOf ((engineAt (ins 36 2 0 0 511) id).fetch freshPass), Instr.key 2#6, 255, 1) ∈
  [(2, Instr.ldf 2#6,
      BitVec.toNat
        (freshPass.cursor + BitVec.ofNat 32 (fieldOf ((engineAt (ins 36 2 0 0 511) id).fetch freshPass) 7 0)),
      2 ^ fieldOf ((engineAt (ins 36 2 0 0 511) id).fetch freshPass) 9 8),
    (3, Instr.ldr 2#6,
      BitVec.toNat
        (freshPass.cursor + freshPass.g (fieldOf ((engineAt (ins 36 2 0 0 511) id).fetch freshPass) 21 18)),
      2 ^ fieldOf ((engineAt (ins 36 2 0 0 511) id).fetch freshPass) 9 8),
    (36, Instr.key 2#6,
      BitVec.toNat
        (freshPass.cursor + BitVec.ofNat 32 (fieldOf ((engineAt (ins 36 2 0 0 511) id).fetch freshPass) 7 0)),
      fieldOf ((engineAt (ins 36 2 0 0 511) id).fetch freshPass) 12 8)] ∧
    (255 + 1 ≤ 256 ∨ List.length freshPass.pkt.frame < 252) :=
  by decide +kernel

theorem witness_loadShort :
    (engineAt (ins 2 3 0 0 765) shortPass).pwr.inReset = false ∧
    (engineAt (ins 2 3 0 0 765) shortPass).engine (2#6).toNat = some (shortPass freshPass) ∧
    (shortPass freshPass).cycles < (engineAt (ins 2 3 0 0 765) shortPass).cycMax ∧
    (opOf ((engineAt (ins 2 3 0 0 765) shortPass).fetch (shortPass freshPass)), Instr.ldf 2#6, 253, 4) ∈
  [(2, Instr.ldf 2#6,
      BitVec.toNat
        ((shortPass freshPass).cursor +
          BitVec.ofNat 32 (fieldOf ((engineAt (ins 2 3 0 0 765) shortPass).fetch (shortPass freshPass)) 7 0)),
      2 ^ fieldOf ((engineAt (ins 2 3 0 0 765) shortPass).fetch (shortPass freshPass)) 9 8),
    (3, Instr.ldr 2#6,
      BitVec.toNat
        ((shortPass freshPass).cursor +
          (shortPass freshPass).g
            (fieldOf ((engineAt (ins 2 3 0 0 765) shortPass).fetch (shortPass freshPass)) 21 18)),
      2 ^ fieldOf ((engineAt (ins 2 3 0 0 765) shortPass).fetch (shortPass freshPass)) 9 8),
    (36, Instr.key 2#6,
      BitVec.toNat
        ((shortPass freshPass).cursor +
          BitVec.ofNat 32 (fieldOf ((engineAt (ins 2 3 0 0 765) shortPass).fetch (shortPass freshPass)) 7 0)),
      fieldOf ((engineAt (ins 2 3 0 0 765) shortPass).fetch (shortPass freshPass)) 12 8)] ∧
    (253 + 4 ≤ 256 ∨ List.length (shortPass freshPass).pkt.frame < 252) :=
  by decide +kernel

theorem witness_loadBeyond :
    (engineAt (ins 2 3 0 0 765) id).pwr.inReset = false ∧
    (engineAt (ins 2 3 0 0 765) id).engine (2#6).toNat = some freshPass ∧
    freshPass.cycles < (engineAt (ins 2 3 0 0 765) id).cycMax ∧
    (opOf ((engineAt (ins 2 3 0 0 765) id).fetch freshPass), Instr.ldf 2#6, 253, 4) ∈
  [(2, Instr.ldf 2#6,
      BitVec.toNat
        (freshPass.cursor + BitVec.ofNat 32 (fieldOf ((engineAt (ins 2 3 0 0 765) id).fetch freshPass) 7 0)),
      2 ^ fieldOf ((engineAt (ins 2 3 0 0 765) id).fetch freshPass) 9 8),
    (3, Instr.ldr 2#6,
      BitVec.toNat
        (freshPass.cursor + freshPass.g (fieldOf ((engineAt (ins 2 3 0 0 765) id).fetch freshPass) 21 18)),
      2 ^ fieldOf ((engineAt (ins 2 3 0 0 765) id).fetch freshPass) 9 8),
    (36, Instr.key 2#6,
      BitVec.toNat
        (freshPass.cursor + BitVec.ofNat 32 (fieldOf ((engineAt (ins 2 3 0 0 765) id).fetch freshPass) 7 0)),
      fieldOf ((engineAt (ins 2 3 0 0 765) id).fetch freshPass) 12 8)] ∧
    256 < 253 + 4 ∧
    252 ≤ List.length freshPass.pkt.frame :=
  by decide +kernel

theorem witness_loadDeep :
    (engineAt (ins 3 3 5 0 0) id).pwr.inReset = false ∧
    (engineAt (ins 3 3 5 0 0) id).engine (2#6).toNat = some freshPass ∧
    freshPass.cycles < (engineAt (ins 3 3 5 0 0) id).cycMax ∧
    (opOf ((engineAt (ins 3 3 5 0 0) id).fetch freshPass), Instr.ldr 2#6, 2147483653, 1) ∈
  [(2, Instr.ldf 2#6,
      BitVec.toNat
        (freshPass.cursor + BitVec.ofNat 32 (fieldOf ((engineAt (ins 3 3 5 0 0) id).fetch freshPass) 7 0)),
      2 ^ fieldOf ((engineAt (ins 3 3 5 0 0) id).fetch freshPass) 9 8),
    (3, Instr.ldr 2#6,
      BitVec.toNat
        (freshPass.cursor + freshPass.g (fieldOf ((engineAt (ins 3 3 5 0 0) id).fetch freshPass) 21 18)),
      2 ^ fieldOf ((engineAt (ins 3 3 5 0 0) id).fetch freshPass) 9 8),
    (36, Instr.key 2#6,
      BitVec.toNat
        (freshPass.cursor + BitVec.ofNat 32 (fieldOf ((engineAt (ins 3 3 5 0 0) id).fetch freshPass) 7 0)),
      fieldOf ((engineAt (ins 3 3 5 0 0) id).fetch freshPass) 12 8)] ∧
    256 < 2147483653 + 1 ∧
    252 ≤ List.length freshPass.pkt.frame :=
  by decide +kernel

theorem witness_loadDeepKey :
    (engineAt (ins 36 2 0 0 767) id).pwr.inReset = false ∧
    (engineAt (ins 36 2 0 0 767) id).engine (2#6).toNat = some freshPass ∧
    freshPass.cycles < (engineAt (ins 36 2 0 0 767) id).cycMax ∧
    (opOf ((engineAt (ins 36 2 0 0 767) id).fetch freshPass), Instr.key 2#6, 255, 2) ∈
  [(2, Instr.ldf 2#6,
      BitVec.toNat
        (freshPass.cursor + BitVec.ofNat 32 (fieldOf ((engineAt (ins 36 2 0 0 767) id).fetch freshPass) 7 0)),
      2 ^ fieldOf ((engineAt (ins 36 2 0 0 767) id).fetch freshPass) 9 8),
    (3, Instr.ldr 2#6,
      BitVec.toNat
        (freshPass.cursor + freshPass.g (fieldOf ((engineAt (ins 36 2 0 0 767) id).fetch freshPass) 21 18)),
      2 ^ fieldOf ((engineAt (ins 36 2 0 0 767) id).fetch freshPass) 9 8),
    (36, Instr.key 2#6,
      BitVec.toNat
        (freshPass.cursor + BitVec.ofNat 32 (fieldOf ((engineAt (ins 36 2 0 0 767) id).fetch freshPass) 7 0)),
      fieldOf ((engineAt (ins 36 2 0 0 767) id).fetch freshPass) 12 8)] ∧
    256 < 255 + 2 ∧
    252 ≤ List.length freshPass.pkt.frame :=
  by decide +kernel

theorem witness_adv :
    (engineAt (ins 32 0 3 0 20) id).pwr.inReset = false ∧
    (engineAt (ins 32 0 3 0 20) id).engine (2#6).toNat = some freshPass ∧
    freshPass.cycles < (engineAt (ins 32 0 3 0 20) id).cycMax ∧
    opOf ((engineAt (ins 32 0 3 0 20) id).fetch freshPass) = 32 ∧
    freshPass.headers < 16 :=
  by decide +kernel

theorem witness_advDeep :
    (engineAt (ins 32 0 3 0 20) deepPass).pwr.inReset = false ∧
    (engineAt (ins 32 0 3 0 20) deepPass).engine (2#6).toNat = some (deepPass freshPass) ∧
    (deepPass freshPass).cycles < (engineAt (ins 32 0 3 0 20) deepPass).cycMax ∧
    opOf ((engineAt (ins 32 0 3 0 20) deepPass).fetch (deepPass freshPass)) = 32 ∧
    16 ≤ (deepPass freshPass).headers :=
  by decide +kernel

theorem witness_macRxNone :
    live.pwr.inReset = false ∧
    (live.inst 2 = false ∨ live.rte.cfg.packetPort (0#5).toNat = false ∨ (live.port (0#5).toNat).state ≠ 5) :=
  by decide +kernel

theorem witness_macTxNone :
    live.pwr.inReset = false ∧
    ((live.port (0#5).toNat).boundQ = [] ∨ (live.port (0#5).toNat).state ≠ 5) :=
  by decide +kernel

theorem witness_macRx :
    packetOn.pwr.inReset = false ∧
    packetOn.inst 2 = true ∧
    packetOn.rte.cfg.packetPort (0#5).toNat = true ∧
    (packetOn.port (0#5).toNat).state = 5 ∧
    60 ≤ List.length frame60 ∧
    List.length frame60 ≤ 16379 ∧
    beAt frame60 12 2 ≠ 34824 ∧
    (packetOn.portEntry (0#5).toNat).fst = true ∧
    (List.filter (fun w => w.fst.port == (0#5).toNat && w.fst.num == 0) packetOn.pkt.waiting).length < 256 :=
  by decide +kernel

theorem witness_macRxBad :
    packetOn.pwr.inReset = false ∧
    packetOn.inst 2 = true ∧
    packetOn.rte.cfg.packetPort (0#5).toNat = true ∧
    (packetOn.port (0#5).toNat).state = 5 ∧
    (true = true ∨ List.length frame60 < 60 ∨ 16379 < List.length frame60 ∨ beAt frame60 12 2 = 34824) :=
  by decide +kernel

theorem witness_macRxShort :
    packetOn.pwr.inReset = false ∧
    packetOn.inst 2 = true ∧
    packetOn.rte.cfg.packetPort (0#5).toNat = true ∧
    (packetOn.port (0#5).toNat).state = 5 ∧
    (false = true ∨
  (List.take 59 frame60).length < 60 ∨
    16379 < (List.take 59 frame60).length ∨ beAt (List.take 59 frame60) 12 2 = 34824) :=
  by decide +kernel

theorem witness_macTx :
    packetOn.pwr.inReset = false ∧
    packetOn.inst 2 = true ∧
    packetOn.rte.cfg.packetPort (0#5).toNat = true ∧
    (packetOn.port (0#5).toNat).state = 5 ∧
    (packetOn.port (0#5).toNat).boundQ = [(0, [1, 2]), (3, [3])] :=
  by decide +kernel

theorem witness_passStart :
    passWaits.pwr.inReset = false ∧
    passWaits.engine (2#6).toNat = none ∧
    passWaits.pkt.waiting = [(packet, 5)] :=
  by decide +kernel

theorem witness_passNone :
    live.pwr.inReset = false ∧
    (live.engine (2#6).toNat ≠ none ∨ live.pkt.waiting = []) :=
  by decide +kernel

theorem witness_cycleNone :
    live.pwr.inReset = false ∧
    (∀ (x : Pass), live.engine (2#6).toNat = some x → x.cycles < live.cycMax) :=
  by decide +kernel

theorem witness_cycleNot :
    (engineAt 0 id).pwr.inReset = false ∧
    (∀ (x : Pass), (engineAt 0 id).engine (2#6).toNat = some x → x.cycles < (engineAt 0 id).cycMax) :=
  by decide +kernel

theorem witness_cycleLimit :
    (engineAt 0 spent).pwr.inReset = false ∧
    (engineAt 0 spent).engine (2#6).toNat = some (spent freshPass) ∧
    (engineAt 0 spent).cycMax ≤ (spent freshPass).cycles ∧
    (engineAt 0 spent).inst 2 = true :=
  by decide +kernel

theorem witness_drop :
    (engineAt 0 id).pwr.inReset = false ∧
    (engineAt 0 id).engine (2#6).toNat = some freshPass ∧
    freshPass.cycles < (engineAt 0 id).cycMax ∧
    opOf ((engineAt 0 id).fetch freshPass) = 0 :=
  by decide +kernel

theorem witness_dropConflict :
    (engineAt 0 conflicting).pwr.inReset = false ∧
    (engineAt 0 conflicting).engine (2#6).toNat = some (conflicting freshPass) ∧
    (conflicting freshPass).cycles < (engineAt 0 conflicting).cycMax ∧
    opOf ((engineAt 0 conflicting).fetch (conflicting freshPass)) = 0 :=
  by decide +kernel

theorem witness_lookup :
    (engineAt (ins 48 0 0 0 0) id).pwr.inReset = false ∧
    (engineAt (ins 48 0 0 0 0) id).engine (2#6).toNat = some freshPass ∧
    freshPass.cycles < (engineAt (ins 48 0 0 0 0) id).cycMax ∧
    opOf ((engineAt (ins 48 0 0 0 0) id).fetch freshPass) = 48 ∧
    freshPass.conflict = false :=
  by decide +kernel

theorem witness_flowInsert :
    live.inst 2 = true ∧
    (1, Instr.insert Session.pcie) ∈
  [(1, Instr.insert Session.pcie), (2, Instr.delete Session.pcie), (3, Instr.read Session.pcie),
    (4, Instr.update Session.pcie), (5, Instr.clear Session.pcie)] ∧
    Accepted live Session.pcie Reg.PKT_FLOW_CMD (BitVec.ofNat 32 (2 ^ 31 + 1)) :=
  ⟨by decide +kernel, by decide +kernel, accepted_of (by decide +kernel)⟩

theorem witness_flowDelete :
    live.inst 2 = true ∧
    (2, Instr.delete Session.pcie) ∈
  [(1, Instr.insert Session.pcie), (2, Instr.delete Session.pcie), (3, Instr.read Session.pcie),
    (4, Instr.update Session.pcie), (5, Instr.clear Session.pcie)] ∧
    Accepted live Session.pcie Reg.PKT_FLOW_CMD (BitVec.ofNat 32 (2 ^ 31 + 2)) :=
  ⟨by decide +kernel, by decide +kernel, accepted_of (by decide +kernel)⟩

theorem witness_flowRead :
    live.inst 2 = true ∧
    (3, Instr.read Session.maint) ∈
  [(1, Instr.insert Session.maint), (2, Instr.delete Session.maint), (3, Instr.read Session.maint),
    (4, Instr.update Session.maint), (5, Instr.clear Session.maint)] ∧
    Accepted live Session.maint Reg.PKT_FLOW_CMD (BitVec.ofNat 32 (2 ^ 31 + 3)) :=
  ⟨by decide +kernel, by decide +kernel, accepted_of (by decide +kernel)⟩

theorem witness_flowUpdate :
    live.inst 2 = true ∧
    (4, Instr.update Session.pcie) ∈
  [(1, Instr.insert Session.pcie), (2, Instr.delete Session.pcie), (3, Instr.read Session.pcie),
    (4, Instr.update Session.pcie), (5, Instr.clear Session.pcie)] ∧
    Accepted live Session.pcie Reg.PKT_FLOW_CMD (BitVec.ofNat 32 (2 ^ 31 + 4)) :=
  ⟨by decide +kernel, by decide +kernel, accepted_of (by decide +kernel)⟩

theorem witness_flowClear :
    live.inst 2 = true ∧
    (5, Instr.clear Session.pcie) ∈
  [(1, Instr.insert Session.pcie), (2, Instr.delete Session.pcie), (3, Instr.read Session.pcie),
    (4, Instr.update Session.pcie), (5, Instr.clear Session.pcie)] ∧
    Accepted live Session.pcie Reg.PKT_FLOW_CMD (BitVec.ofNat 32 (2 ^ 31 + 5)) :=
  ⟨by decide +kernel, by decide +kernel, accepted_of (by decide +kernel)⟩

theorem witness_inserted :
    (flowOp 1).pwr.inReset = false ∧
    (flowOp 1).inst 2 = true ∧
    (flowOp 1).pkt.cmd = some 1 :=
  by decide +kernel

theorem witness_insertBad :
    (badResult 1).pwr.inReset = false ∧
    (badResult 1).inst 2 = true ∧
    (badResult 1).pkt.cmd = some 1 :=
  by decide +kernel

theorem witness_updateBad :
    (badResult 4).pwr.inReset = false ∧
    (badResult 4).inst 2 = true ∧
    (badResult 4).pkt.cmd = some 4 :=
  by decide +kernel

theorem witness_insertTwice :
    (flowHeld 1).pwr.inReset = false ∧
    (flowHeld 1).inst 2 = true ∧
    (flowHeld 1).pkt.cmd = some 1 :=
  by decide +kernel

theorem witness_deleted :
    (flowHeld 2).pwr.inReset = false ∧
    (flowHeld 2).inst 2 = true ∧
    (flowHeld 2).pkt.cmd = some 2 :=
  by decide +kernel

theorem witness_readOut :
    (flowHeld 3).pwr.inReset = false ∧
    (flowHeld 3).inst 2 = true ∧
    (flowHeld 3).pkt.cmd = some 3 :=
  by decide +kernel

theorem witness_updated :
    (flowHeld 4).pwr.inReset = false ∧
    (flowHeld 4).inst 2 = true ∧
    (flowHeld 4).pkt.cmd = some 4 :=
  by decide +kernel

theorem witness_cleared :
    (flowHeld 5).pwr.inReset = false ∧
    (flowHeld 5).inst 2 = true ∧
    (flowHeld 5).pkt.cmd = some 5 :=
  by decide +kernel

theorem witness_notFound :
    (flowOp 2).pwr.inReset = false ∧
    (flowOp 2).inst 2 = true ∧
    (flowOp 2).pkt.cmd = some 2 :=
  by decide +kernel

theorem witness_flowNone :
    live.pwr.inReset = false ∧
    live.pkt.cmd = none ∧
    live.pkt.tenantQ = [] :=
  by decide +kernel

theorem witness_learnNone :
    live.pwr.inReset = false ∧
    (live.pkt.cmd ≠ none ∨ live.pkt.learn = []) :=
  by decide +kernel

theorem witness_learnInsert :
    learning.pwr.inReset = false ∧
    learning.pkt.cmd = none ∧
    learning.pkt.learn = [(List.replicate 40 1, List.replicate 8 0)] :=
  by decide +kernel

theorem witness_unitNone :
    live.pwr.inReset = false ∧
    (live.inst 3 = false ∨
  live.client Path.a (0#8).toNat ≠ Client.packet ∨
    live.txSlots Path.a (0#8).toNat = [] ∨
      8 * packetWords (live.txSlots Path.a (0#8).toNat).length ≤ List.length (live.cont Path.a (0#8).toNat).buf) :=
  by decide +kernel

theorem witness_idleUnit :
    queueEmpty.pwr.inReset = false ∧
    queueEmpty.inst 3 = true ∧
    queueEmpty.client Path.a (0#8).toNat = Client.packet ∧
    queueEmpty.txSlots Path.a (0#8).toNat ≠ [] ∧
    List.length (queueEmpty.cont Path.a (0#8).toNat).buf <
  8 * packetWords (queueEmpty.txSlots Path.a (0#8).toNat).length ∧
    (((match (none : Option (BitVec 23)) with
              | some w =>
                if queueEmpty.mem.sramWritten w.toNat = true then queueEmpty.begin.setSramErr 0 w.toNat 2
                else queueEmpty.begin
              | none => queueEmpty.begin).schedAt
            9).noteGates
        Path.a (0#8).toNat).pick
    Path.a (0#8).toNat (packetWords (queueEmpty.txSlots Path.a (0#8).toNat).length) 4 0 =
  none :=
  by decide +kernel

theorem witness_idleUnitBad :
    queueEmpty.pwr.inReset = false ∧
    queueEmpty.inst 3 = true ∧
    queueEmpty.client Path.a (0#8).toNat = Client.packet ∧
    queueEmpty.txSlots Path.a (0#8).toNat ≠ [] ∧
    List.length (queueEmpty.cont Path.a (0#8).toNat).buf <
  8 * packetWords (queueEmpty.txSlots Path.a (0#8).toNat).length ∧
    (((match some 5#23 with
              | some w =>
                if queueEmpty.mem.sramWritten w.toNat = true then queueEmpty.begin.setSramErr 0 w.toNat 2
                else queueEmpty.begin
              | none => queueEmpty.begin).schedAt
            9).noteGates
        Path.a (0#8).toNat).pick
    Path.a (0#8).toNat (packetWords (queueEmpty.txSlots Path.a (0#8).toNat).length) 4 0 =
  none :=
  by decide +kernel

theorem witness_unit :
    queued2.pwr.inReset = false ∧
    queued2.inst 3 = true ∧
    queued2.client Path.a (0#8).toNat = Client.packet ∧
    queued2.txSlots Path.a (0#8).toNat ≠ [] ∧
    List.length (queued2.cont Path.a (0#8).toNat).buf < 8 * packetWords (queued2.txSlots Path.a (0#8).toNat).length ∧
    (((match (none : Option (BitVec 23)) with
              | some w =>
                if queued2.mem.sramWritten w.toNat = true then queued2.begin.setSramErr 0 w.toNat 2
                else queued2.begin
              | none => queued2.begin).schedAt
            9).noteGates
        Path.a (0#8).toNat).pick
    Path.a (0#8).toNat (packetWords (queued2.txSlots Path.a (0#8).toNat).length) 4 0 =
  some 2 ∧
    (queued2.queue 2).pkts = [QPkt.mk frame60 7 [0], QPkt.mk frame60 8 [1]] :=
  by decide +kernel

theorem witness_unitBad :
    queuedWritten.pwr.inReset = false ∧
    queuedWritten.inst 3 = true ∧
    queuedWritten.client Path.a (0#8).toNat = Client.packet ∧
    queuedWritten.txSlots Path.a (0#8).toNat ≠ [] ∧
    List.length (queuedWritten.cont Path.a (0#8).toNat).buf <
  8 * packetWords (queuedWritten.txSlots Path.a (0#8).toNat).length ∧
    (((match some 5#23 with
              | some w =>
                if queuedWritten.mem.sramWritten w.toNat = true then queuedWritten.begin.setSramErr 0 w.toNat 2
                else queuedWritten.begin
              | none => queuedWritten.begin).schedAt
            9).noteGates
        Path.a (0#8).toNat).pick
    Path.a (0#8).toNat (packetWords (queuedWritten.txSlots Path.a (0#8).toNat).length) 4 0 =
  some 2 ∧
    (queuedWritten.queue 2).pkts = [QPkt.mk frame60 7 [0], QPkt.mk frame60 8 [1]] :=
  by decide +kernel

theorem witness_calendarBin :
    calendar.pwr.inReset = false ∧
    calendar.inst 3 = true ∧
    (List.map (fun x => x.queue) calendar.sch.cal).Nodup :=
  by decide +kernel

theorem witness_calendarNone :
    up.pwr.inReset = false ∧
    up.inst 3 = false :=
  by decide +kernel

theorem witness_sampleNone :
    up.pwr.inReset = false ∧
    up.inst 3 = false :=
  by decide +kernel

theorem witness_queueSample :
    queued2.pwr.inReset = false ∧
    queued2.inst 3 = true :=
  by decide +kernel

theorem witness_policeFourier :
    policerFourier.fleam = false :=
  by decide +kernel

theorem witness_policeFleam :
    policerFleam.fleam = true ∧
    fullBucket.lastTick = 100 / tickTime :=
  by decide +kernel

theorem witness_calendarLate :
    calendarLate.pwr.inReset = false ∧
    calendarLate.inst 3 = true ∧
    (List.map (fun x => x.queue) calendarLate.sch.cal).Nodup :=
  by decide +kernel

theorem witness_windowLocked :
    live.pwr.inReset = false ∧
    live.ctl.pcieUp = true ∧
    [1] ≠ [] ∧
    (67108863#27).toNat % 32 + [1].length ≤ 32 ∧
    live.windowLocked (67108863#27).toNat = true :=
  by decide +kernel

theorem witness_windowWrite :
    merging.pwr.inReset = false ∧
    merging.ctl.pcieUp = true ∧
    [1] ≠ [] ∧
    (67108927#27).toNat % 32 + [1].length ≤ 32 ∧
    merging.windowLocked (67108927#27).toNat = false ∧
    merging.mem.stalled = [] ∧
    ((merging.mem.mergeOf ((67108927#27).toNat / 32)).isSome = true ∨ merging.mem.merge.length < 16) :=
  by decide +kernel

theorem witness_windowWord :
    twoWords.pwr.inReset = false ∧
    twoWords.ctl.pcieUp = true ∧
    List.replicate 32 5 ≠ [] ∧
    (67108896#27).toNat % 32 + (List.replicate 32 5).length ≤ 32 ∧
    twoWords.windowLocked (67108896#27).toNat = false ∧
    twoWords.mem.stalled = [] ∧
    ((twoWords.mem.mergeOf ((67108896#27).toNat / 32)).isSome = true ∨ twoWords.mem.merge.length < 16) :=
  by decide +kernel

theorem witness_windowRead :
    twoWords.pwr.inReset = false ∧
    twoWords.ctl.pcieUp = true ∧
    (67108869#27).toNat + (27#12).toNat ≤ 134217728 ∧
    twoWords.mem.stalled = [] ∧
    (∀ (w : Nat),
  w ∈
      List.filter (fun w => !twoWords.windowBlind (32 * w))
        (List.map (fun x => x + (67108869#27).toNat / 32)
          (List.range (((67108869#27).toNat + (27#12).toNat + 31) / 32 - (67108869#27).toNat / 32))) →
    twoWords.mem.outcome twoWords.begin.freeCtr w = ReadOutcome.clean) :=
  by decide +kernel

theorem witness_windowBlind :
    live.pwr.inReset = false ∧
    live.ctl.pcieUp = true ∧
    (67108848#27).toNat + (16#12).toNat ≤ 134217728 ∧
    live.mem.stalled = [] ∧
    (∀ (w : Nat),
  w ∈
      List.filter (fun w => !live.windowBlind (32 * w))
        (List.map (fun x => x + (67108848#27).toNat / 32)
          (List.range (((67108848#27).toNat + (16#12).toNat + 31) / 32 - (67108848#27).toNat / 32))) →
    live.mem.outcome live.begin.freeCtr w = ReadOutcome.clean) :=
  by decide +kernel

theorem witness_windowBad :
    twoWords.pwr.inReset = false ∧
    twoWords.ctl.pcieUp = true ∧
    (67108928#27).toNat + (1#12).toNat ≤ 134217728 ∧
    twoWords.mem.stalled = [] ∧
    (∃ w,
  w ∈
      List.filter (fun w => !twoWords.windowBlind (32 * w))
        (List.map (fun x => x + (67108928#27).toNat / 32)
          (List.range (((67108928#27).toNat + (1#12).toNat + 31) / 32 - (67108928#27).toNat / 32))) ∧
    twoWords.mem.outcome twoWords.begin.freeCtr w = ReadOutcome.uncorrectable) :=
  by decide +kernel

theorem witness_mergeNone :
    twoWords.pwr.inReset = false ∧
    twoWords.mem.merge = [] :=
  by decide +kernel

theorem witness_mergeClean :
    (writeBack 0).pwr.inReset = false ∧
    (writeBack 0).mem.merge = [wroteBack] ∧
    (writeBack 0).mem.stalled = [] ∧
    (∀ (x : Nat × Byte), x ∈ wroteBack.patch → x.fst < 32) ∧
    ¬inJournal wroteBack.word ∧
    (∀ (f : MergeEntry), f ∈ [] → f.word ≠ wroteBack.word ∧ ¬inJournal f.word) ∧
    wroteBack.scrub ≠ none ∧
    wroteBack.patch = [] ∧
    (writeBack 0).mem.outcome (writeBack 0).begin.freeCtr wroteBack.word = ReadOutcome.clean :=
  ⟨by decide +kernel, by decide +kernel, by decide +kernel, by decide +kernel, by unfold inJournal; decide +kernel, by simp, by decide +kernel⟩

theorem witness_mergeScrub :
    (writeBack 1).pwr.inReset = false ∧
    (writeBack 1).mem.merge = [wroteBack] ∧
    (writeBack 1).mem.stalled = [] ∧
    (∀ (x : Nat × Byte), x ∈ wroteBack.patch → x.fst < 32) ∧
    ¬inJournal wroteBack.word ∧
    (∀ (f : MergeEntry), f ∈ [] → f.word ≠ wroteBack.word ∧ ¬inJournal f.word) ∧
    (wroteBack.scrub = none ∨
  wroteBack.patch ≠ [] ∨
    (writeBack 1).mem.outcome (writeBack 1).begin.freeCtr wroteBack.word ≠ ReadOutcome.clean) :=
  ⟨by decide +kernel, by decide +kernel, by decide +kernel, by decide +kernel, by unfold inJournal; decide +kernel, by simp, by decide +kernel⟩

theorem witness_mergeDone :
    merging.pwr.inReset = false ∧
    merging.mem.merge = [mergeEntry] ∧
    merging.mem.stalled = [] ∧
    (∀ (x : Nat × Byte), x ∈ mergeEntry.patch → x.fst < 32) ∧
    ¬inJournal mergeEntry.word ∧
    (∀ (f : MergeEntry), f ∈ [] → f.word ≠ mergeEntry.word ∧ ¬inJournal f.word) ∧
    (mergeEntry.scrub = none ∨
  mergeEntry.patch ≠ [] ∨ merging.mem.outcome merging.begin.freeCtr mergeEntry.word ≠ ReadOutcome.clean) :=
  ⟨by decide +kernel, by decide +kernel, by decide +kernel, by decide +kernel, by unfold inJournal; decide +kernel, by simp, by decide +kernel⟩

theorem witness_windowDown :
    (let __src := live;
      State.mk __src.pending __src.out __src.batch __src.freeCtr __src.upNs __src.phase __src.txFc
        __src.fcLoaded __src.cfg __src.shadow __src.custom __src.mst __src.evt
        (let __src := live.ctl;
        CtlState.mk __src.sessions __src.locks __src.mismatch __src.mntRead false __src.restarts)
        __src.pmc __src.mem __src.pwr __src.rte __src.rails __src.pa __src.pb __src.cnt __src.tables
        __src.tblShadow __src.hbDrop __src.tru __src.sch __src.pkt __src.hsf __src.hsl __src.mon).pwr.inReset =
  false ∧
    (let __src := live;
      State.mk __src.pending __src.out __src.batch __src.freeCtr __src.upNs __src.phase __src.txFc
        __src.fcLoaded __src.cfg __src.shadow __src.custom __src.mst __src.evt
        (let __src := live.ctl;
        CtlState.mk __src.sessions __src.locks __src.mismatch __src.mntRead false __src.restarts)
        __src.pmc __src.mem __src.pwr __src.rte __src.rails __src.pa __src.pb __src.cnt __src.tables
        __src.tblShadow __src.hbDrop __src.tru __src.sch __src.pkt __src.hsf __src.hsl __src.mon).ctl.pcieUp =
  false :=
  by decide +kernel

theorem witness_readDown :
    (let __src := live;
      State.mk __src.pending __src.out __src.batch __src.freeCtr __src.upNs __src.phase __src.txFc
        __src.fcLoaded __src.cfg __src.shadow __src.custom __src.mst __src.evt
        (let __src := live.ctl;
        CtlState.mk __src.sessions __src.locks __src.mismatch __src.mntRead false __src.restarts)
        __src.pmc __src.mem __src.pwr __src.rte __src.rails __src.pa __src.pb __src.cnt __src.tables
        __src.tblShadow __src.hbDrop __src.tru __src.sch __src.pkt __src.hsf __src.hsl __src.mon).pwr.inReset =
  false ∧
    (let __src := live;
      State.mk __src.pending __src.out __src.batch __src.freeCtr __src.upNs __src.phase __src.txFc
        __src.fcLoaded __src.cfg __src.shadow __src.custom __src.mst __src.evt
        (let __src := live.ctl;
        CtlState.mk __src.sessions __src.locks __src.mismatch __src.mntRead false __src.restarts)
        __src.pmc __src.mem __src.pwr __src.rte __src.rails __src.pa __src.pb __src.cnt __src.tables
        __src.tblShadow __src.hbDrop __src.tru __src.sch __src.pkt __src.hsf __src.hsl __src.mon).ctl.pcieUp =
  false :=
  by decide +kernel

theorem witness_sramClean :
    up.pwr.inReset = false ∧
    up.mem.sramUpset = [] :=
  by decide +kernel

theorem witness_sramWalk :
    (sramOne 1).pwr.inReset = false ∧
    (sramOne 1).mem.sramUpset = [(sramKey 2 9, 1)] :=
  by decide +kernel

theorem witness_sramUnwritten :
    up.pwr.inReset = false ∧
    up.sramHolds 0 64 = false :=
  by decide +kernel

theorem witness_sramBad :
    sramWrote.pwr.inReset = false ∧
    sramWrote.sramHolds 0 63 = true ∧
    63 < 2 ^ 40 ∧
    sramWrote.mem.sramUpset = [] :=
  by decide +kernel

theorem witness_scrubWaits :
    (withScrub scrubbing).pwr.inReset = false ∧
    (flagOf ((withScrub scrubbing).reg Reg.MEM_SCRUB_CTRL) 31 = false ∨
  (withScrub scrubbing).mem.scrub.running = true ∨
    (withScrub scrubbing).mem.scrub.pass ≠ 0 ∧
    (withScrub scrubbing).mem.scrub.elapsed < (withScrub scrubbing).mem.scrub.period) :=
  by decide +kernel

theorem witness_scrubStart :
    twoWords.pwr.inReset = false ∧
    flagOf (twoWords.reg Reg.MEM_SCRUB_CTRL) 31 = true ∧
    twoWords.mem.scrub.running = false ∧
    (twoWords.mem.scrub.pass = 0 ∨ twoWords.mem.scrub.period ≤ twoWords.mem.scrub.elapsed) :=
  by decide +kernel

theorem witness_burstNone :
    twoWords.pwr.inReset = false ∧
    (twoWords.mem.scrub.running = false ∨
  twoWords.mem.scrub.quota = 0 ∨ flagOf (twoWords.reg Reg.MEM_SCRUB_CTRL) 31 = false) :=
  by decide +kernel

theorem witness_scrubCorrects :
    eightWords.pwr.inReset = false ∧
    eightWords.mem.scrub.running = true ∧
    0 < eightWords.mem.scrub.quota ∧
    flagOf (eightWords.reg Reg.MEM_SCRUB_CTRL) 31 = true ∧
    eightWords.mem.nextBurst eightWords.mem.scrub.pos = some 262144 ∧
    2097155 / 8 = 262144 ∧
    eightWords.mem.isWritten 2097155 = true ∧
    eightWords.mem.upsets 2097155 = 1 ∧
    (∀ (i : Nat),
  i < 8 →
    eightWords.mem.poisoned (8 * 262144 + i) = false ∧
    (8 * 262144 + i ≠ 2097155 → eightWords.mem.upsets (8 * 262144 + i) = 0)) ∧
    (∀ (i : Nat), i < 8 → eightWords.mem.isWritten (8 * 262144 + i) = true) ∧
    eightWords.mem.merge = [] :=
  by decide +kernel

theorem witness_scrubBurst :
    (withScrub scrubbing).pwr.inReset = false ∧
    (withScrub scrubbing).mem.scrub.running = true ∧
    flagOf ((withScrub scrubbing).reg Reg.MEM_SCRUB_CTRL) 31 = true ∧
    0 < (withScrub scrubbing).mem.scrub.quota ∧
    (withScrub scrubbing).mem.nextBurst (withScrub scrubbing).mem.scrub.pos = some 262144 ∧
    (∀ (i : Nat),
  i < 8 →
    (withScrub scrubbing).mem.isWritten (8 * 262144 + i) = true →
      (withScrub scrubbing).mem.poisoned (8 * 262144 + i) = false ∧
    (withScrub scrubbing).mem.upsets (8 * 262144 + i) = 0) :=
  by decide +kernel

theorem witness_scrubNotEnd :
    eightWords.pwr.inReset = false ∧
    (eightWords.mem.scrub.running = false ∨
  eightWords.mem.nextBurst eightWords.mem.scrub.pos ≠ none ∨ ∃ e, e ∈ eightWords.mem.merge ∧ e.scrub ≠ none) :=
  by decide +kernel

theorem witness_scrubEnd :
    (withScrub lateScrub).pwr.inReset = false ∧
    (withScrub lateScrub).mem.scrub.running = true ∧
    (withScrub lateScrub).mem.nextBurst (withScrub lateScrub).mem.scrub.pos = none ∧
    (∀ (e : MergeEntry), e ∈ (withScrub lateScrub).mem.merge → e.scrub = none) :=
  by decide +kernel

theorem witness_remapCopy :
    (remapped [remapEntry 5 true, remapEntry 6 false]).pwr.inReset = false ∧
    (remapped [remapEntry 5 true, remapEntry 6 false]).mem.remap = [remapEntry 5 true] ++ [remapEntry 6 false] ∧
    (∀ (x : RemapEntry), x ∈ [remapEntry 5 true] → x.copied = true ∨ x.applied = true) ∧
    (remapEntry 6 false).copied = false ∧
    (remapEntry 6 false).applied = false :=
  by decide +kernel

theorem witness_copyNone :
    (remapped [remapEntry 5 true]).pwr.inReset = false ∧
    (∀ (e : RemapEntry), e ∈ (remapped [remapEntry 5 true]).mem.remap → e.copied = true ∨ e.applied = true) :=
  by decide +kernel

theorem witness_remapSwitch :
    (remapped [remapEntry 5 true, dueEntry]).pwr.inReset = false ∧
    (List.map (fun e => (e.bank, e.row)) (remapped [remapEntry 5 true, dueEntry]).mem.remap).Nodup :=
  by decide +kernel

theorem witness_repairLifecycle :
    Accepted unreleasedRepair Session.pcie Reg.MEM_REPAIR_CMD
  (unreleasedRepair.withField Reg.MEM_REPAIR_CMD 31 31 1) ∧
    unreleasedRepair.tru.busy = none ∧
    unreleasedRepair.lifecycle ≠ 1 ∧
    unreleasedRepair.lifecycle ≠ 2 :=
  ⟨accepted_of (by decide +kernel), by decide +kernel⟩

theorem witness_repairNothing :
    Accepted (remapped [remapEntry 6 false]) Session.pcie Reg.MEM_REPAIR_CMD
  ((remapped [remapEntry 6 false]).withField Reg.MEM_REPAIR_CMD 31 31 1) ∧
    (remapped [remapEntry 6 false]).tru.busy = none ∧
    ((remapped [remapEntry 6 false]).lifecycle = 1 ∨ (remapped [remapEntry 6 false]).lifecycle = 2) ∧
    (remapped [remapEntry 6 false]).tru.unused repairRegion = some 0 ∧
    (∀ (e : RemapEntry), e ∈ (remapped [remapEntry 6 false]).mem.remap → e.applied = true → e.persistent = true) :=
  ⟨accepted_of (by decide +kernel), by decide +kernel⟩

theorem witness_repairCommit :
    Accepted (remapped [remapEntry 5 true]) Session.pcie Reg.MEM_REPAIR_CMD
  ((remapped [remapEntry 5 true]).withField Reg.MEM_REPAIR_CMD 31 31 1) ∧
    (remapped [remapEntry 5 true]).tru.busy = none ∧
    ((remapped [remapEntry 5 true]).lifecycle = 1 ∨ (remapped [remapEntry 5 true]).lifecycle = 2) ∧
    (remapped [remapEntry 5 true]).tru.unused repairRegion = some 0 ∧
    (∃ e, e ∈ (remapped [remapEntry 5 true]).mem.remap ∧ e.applied = true ∧ e.persistent = false) ∧
    (remapped [remapEntry 5 true]).pwr.queue = [] ∧
    (remapped [remapEntry 5 true]).alloc + 250 ≤ (remapped [remapEntry 5 true]).effCeiling :=
  ⟨accepted_of (by decide +kernel), by decide +kernel⟩

theorem witness_ledgerClear :
    Accepted ledgered Session.maint Reg.MEM_LEDGER_SEL (ledgered.withField Reg.MEM_LEDGER_SEL 31 31 1) :=
  accepted_of (by decide +kernel)

theorem witness_triggerBusy :
    (((converting.mon.queue ++ converting.mon.running.toList ++ converting.mon.aborted.toList).any fun c =>
      !c.dither && c.num == 5) =
    true ∨
  converting.mon.calRun = true) :=
  by decide +kernel

theorem witness_triggerQueues :
    ((converting.mon.queue ++ converting.mon.running.toList ++ converting.mon.aborted.toList).any fun c =>
    !c.dither && c.num == 2) =
  false ∧
    converting.mon.calRun = false :=
  by decide +kernel

theorem witness_fires :
    2 < 8 ∧
    (∀ (i : Nat),
  i < 8 → i ≠ 2 → converting.fldI Reg.MON_SEQ_CTRL i 30 30 = 0 ∨ converting.fldI Reg.MON_SEQ_CTRL i 18 16 ≠ 0) :=
  by decide +kernel

theorem witness_timer :
    timerOn.pwr.inReset = false :=
  by decide +kernel

theorem witness_noneDue :
    live.pwr.inReset = false ∧
    live.mon.queue = [] ∧
    (live.mon.running ≠ none ∨ live.mon.aborted = none) :=
  by decide +kernel

theorem witness_urgentIdle :
    (queuedConv true none).pwr.inReset = false ∧
    (queuedConv true none).mon.queue = [conv 2 3 true] ∧
    (conv 2 3 true).ready = false ∧
    (queuedConv true none).mon.calRun = false ∧
    (conv 2 3 true).urgent = true ∧
    (queuedConv true none).mon.running = none :=
  by decide +kernel

theorem witness_urgentAborts :
    (queuedConv true (some (conv 5 7 false))).pwr.inReset = false ∧
    (queuedConv true (some (conv 5 7 false))).mon.queue = [conv 2 3 true] ∧
    (conv 2 3 true).ready = false ∧
    (queuedConv true (some (conv 5 7 false))).mon.calRun = false ∧
    (conv 2 3 true).urgent = true ∧
    (queuedConv true (some (conv 5 7 false))).mon.running = some (conv 5 7 false) ∧
    (conv 5 7 false).urgent = false ∧
    (conv 5 7 false).redone = false ∧
    (queuedConv true (some (conv 5 7 false))).twoPath = true :=
  by decide +kernel

theorem witness_convDue :
    (queuedConv false none).pwr.inReset = false ∧
    (queuedConv false none).mon.queue = [conv 2 3 false] ∧
    (conv 2 3 false).ready = false ∧
    (queuedConv false none).mon.calRun = false ∧
    (conv 2 3 false).urgent = false ∧
    (queuedConv false none).mon.running = none ∧
    (queuedConv false none).mon.aborted = none :=
  by decide +kernel

theorem witness_convNone :
    live.pwr.inReset = false ∧
    live.mon.running = none :=
  by decide +kernel

theorem witness_convDone :
    converting.pwr.inReset = false ∧
    converting.mon.running = some (conv 5 7 false) ∧
    (conv 5 7 false).dither = false ∧
    (conv 5 7 false).resEn = true :=
  by decide +kernel

theorem witness_turnSample :
    (sampling 0).pwr.inReset = false ∧
    (sampling 0).mon.running = some (turnConv 0) ∧
    (turnConv 0).dither = true ∧
    (turnConv 0).num = pathNum Path.a ∧
    ((sampling 0).dither Path.a).turn = some (turnOf (sampling 0)) ∧
    (sampling 0).turnHolds Path.a :=
  ⟨by decide +kernel, by decide +kernel, by decide +kernel, by decide +kernel, by decide +kernel, turnHolds_of (by decide +kernel)⟩

theorem witness_turnStale :
    (sampling 1).pwr.inReset = false ∧
    (sampling 1).mon.running = some (turnConv 1) ∧
    (turnConv 1).dither = true ∧
    (turnConv 1).num = pathNum Path.a ∧
    ((sampling 1).dither Path.a).turn = some (turnOf (sampling 1)) ∧
    (sampling 1).turnHolds Path.a :=
  ⟨by decide +kernel, by decide +kernel, by decide +kernel, by decide +kernel, by decide +kernel, turnHolds_of (by decide +kernel)⟩

theorem witness_selfCalNone :
    live.pwr.inReset = false ∧
    live.mon.calRun = false :=
  by decide +kernel

theorem witness_selfCalDone :
    calibrating.pwr.inReset = false ∧
    calibrating.mon.calRun = true :=
  by decide +kernel

theorem witness_sequenceGo :
    2 = seqSelected.fld Reg.MON_SEQ_SEL 2 0 ∧
    Accepted seqSelected Session.pcie Reg.MON_SEQ_CTRL (seqSelected.withField Reg.MON_SEQ_CTRL 31 31 1) :=
  ⟨by decide +kernel, accepted_of (by decide +kernel)⟩

theorem witness_resAck :
    Accepted live Session.pcie Reg.MON_CTRL (live.withField Reg.MON_CTRL 1 1 1) :=
  accepted_of (by decide +kernel)

theorem witness_selfCal :
    Accepted live Session.pcie Reg.MON_CTRL (live.withField Reg.MON_CTRL 0 0 1) ∧
    live.pwr.queue = [] ∧
    live.alloc + 50 ≤ live.effCeiling ∧
    (live.dither Path.a).turn = none ∧
    (live.dither Path.b).turn = none :=
  ⟨accepted_of (by decide +kernel), by decide +kernel⟩

theorem witness_selfCalDenied :
    Accepted noRoom Session.pcie Reg.MON_CTRL (noRoom.withField Reg.MON_CTRL 0 0 1) ∧
    noRoom.effCeiling < noRoom.base + 50 :=
  ⟨accepted_of (by decide +kernel), by decide +kernel⟩

theorem witness_monCalWrite :
    Accepted live Session.pcie Reg.MON_CAL 65538 :=
  accepted_of (by decide +kernel)

theorem witness_ditherStart :
    biased.pwr.inReset = false ∧
    (biased.path Path.a).cnv.dacReady = true ∧
    (biased.dither Path.a).turn = none ∧
    biased.mon.calRun = false ∧
    biased.nextTurn Path.a = some 2 :=
  by decide +kernel

theorem witness_ditherNone :
    noLoops.pwr.inReset = false ∧
    (noLoops.path Path.a).cnv.dacReady = true ∧
    (noLoops.dither Path.a).turn = none ∧
    (noLoops.mon.calRun = true ∨ noLoops.nextTurn Path.a = none) :=
  by decide +kernel

theorem witness_turnEndNone :
    biased.pwr.inReset = false ∧
    (biased.path Path.a).cnv.dacReady = true ∧
    (biased.dither Path.a).turn = none :=
  by decide +kernel

theorem witness_ditherHalf :
    (turning 3 2).pwr.inReset = false ∧
    ((turning 3 2).path Path.a).cnv.dacReady = true ∧
    ((turning 3 2).dither Path.a).turn = some (turnOf (turning 3 2)) ∧
    (turning 3 2).turnHolds Path.a ∧
    (turnOf (turning 3 2)).half < 2 * (turnOf (turning 3 2)).cyc :=
  ⟨by decide +kernel, by decide +kernel, by decide +kernel, turnHolds_of (by decide +kernel), by decide +kernel⟩

theorem witness_ditherEnd :
    (turning 4 4).pwr.inReset = false ∧
    ((turning 4 4).path Path.a).cnv.dacReady = true ∧
    ((turning 4 4).dither Path.a).turn = some (turnOf (turning 4 4)) ∧
    (turning 4 4).turnHolds Path.a ∧
    2 * (turnOf (turning 4 4)).cyc ≤ (turnOf (turning 4 4)).half ∧
    2 * (turnOf (turning 4 4)).cyc ≤ (turnOf (turning 4 4)).taken :=
  ⟨by decide +kernel, by decide +kernel, by decide +kernel, turnHolds_of (by decide +kernel), by decide +kernel⟩

theorem witness_ditherShort :
    (turning 4 3).pwr.inReset = false ∧
    ((turning 4 3).path Path.a).cnv.dacReady = true ∧
    ((turning 4 3).dither Path.a).turn = some (turnOf (turning 4 3)) ∧
    (turning 4 3).turnHolds Path.a ∧
    2 * (turnOf (turning 4 3)).cyc ≤ (turnOf (turning 4 3)).half ∧
    (turnOf (turning 4 3)).taken < 2 * (turnOf (turning 4 3)).cyc :=
  ⟨by decide +kernel, by decide +kernel, by decide +kernel, turnHolds_of (by decide +kernel), by decide +kernel⟩

theorem witness_rxLevelOff :
    live.pwr.inReset = false ∧
    live.optRuns Path.a 7 = false :=
  by decide +kernel

theorem witness_rxLevel :
    biased.pwr.inReset = false ∧
    biased.optRuns Path.a 7 = true :=
  by decide +kernel

theorem witness_chainApply :
    1 = (chainSelected 64).fld Reg.MON_CH_SEL 2 0 ∧
    Accepted (chainSelected 64) Session.pcie Reg.MON_CH_CTRL ((chainSelected 64).withField Reg.MON_CH_CTRL 31 31 1) ∧
    ((chainSelected 64).chainPending 1).ok = true :=
  ⟨by decide +kernel, accepted_of (by decide +kernel), by decide +kernel⟩

theorem witness_chainRefused :
    1 = (chainSelected 65).fld Reg.MON_CH_SEL 2 0 ∧
    Accepted (chainSelected 65) Session.pcie Reg.MON_CH_CTRL ((chainSelected 65).withField Reg.MON_CH_CTRL 31 31 1) ∧
    ((chainSelected 65).chainPending 1).ok = false :=
  ⟨by decide +kernel, accepted_of (by decide +kernel), by decide +kernel⟩

theorem witness_fcalApply :
    Accepted recorded Session.pcie Reg.MON_CTRL (recorded.withField Reg.MON_CTRL 2 2 1) ∧
    fcalOk recorded.fcalPending = true :=
  ⟨accepted_of (by decide +kernel), by decide +kernel⟩

theorem witness_fcalRefused :
    Accepted live Session.pcie Reg.MON_CTRL (live.withField Reg.MON_CTRL 2 2 1) ∧
    fcalOk live.fcalPending = false :=
  ⟨accepted_of (by decide +kernel), by decide +kernel⟩

theorem witness_dacCode :
    Accepted optSelected Session.pcie Reg.MON_DAC_CODE (BitVec.ofNat 32 (65535#16).toNat) :=
  accepted_of (by decide +kernel)

theorem witness_recordUnlimited :
    (occurrence 0).kind = 0 ∧
    ((occurrence 0).limit = 0 ∨ ¬evKey (occurrence 0) ∈ ringEnd.evt.raised) :=
  by decide +kernel

theorem witness_recordFirst :
    (occurrence 3).kind = 0 ∧
    ((occurrence 3).limit = 0 ∨ ¬evKey (occurrence 3) ∈ up.evt.raised) :=
  by decide +kernel

theorem witness_recordTwo :
    (occurrence 0).kind = 0 ∧
    ((occurrence 0).limit = 0 ∨ ¬evKey (occurrence 0) ∈ ringTwo.evt.raised) :=
  by decide +kernel

theorem witness_recordLost :
    (occurrence 0).kind = 0 ∧
    ((occurrence 0).limit = 0 ∨ ¬evKey (occurrence 0) ∈ ringFull.evt.raised) :=
  by decide +kernel

theorem witness_recordSuppressed :
    (occurrence 3).kind = 0 ∧
    (occurrence 3).limit ≠ 0 ∧
    evKey (occurrence 3) ∈ (raisedOnce 3).evt.raised :=
  by decide +kernel

theorem witness_holdoffQuiet :
    (withEvt
        (fun e =>
          EvtState.mk e.pend e.raised e.supp e.seq e.wr e.lost [63] e.held e.pba e.spill e.spillNext
            e.spillFlush e.sectors e.spillRead e.spillDone)
        up).pwr.inReset =
  false ∧
    ¬(63#6).toNat ∈
    (withEvt
          (fun e =>
            EvtState.mk e.pend e.raised e.supp e.seq e.wr e.lost [63] e.held e.pba e.spill e.spillNext
              e.spillFlush e.sectors e.spillRead e.spillDone)
          up).evt.held :=
  by decide +kernel

theorem witness_holdoffHeld :
    (vectorHeld 63).pwr.inReset = false ∧
    (63#6).toNat ∈ (vectorHeld 63).evt.held ∧
    (vectorHeld 63).ctl.pcieUp = true ∧
    (vectorHeld 63).fld Reg.EVT_CTRL 15 0 ≠ 0 ∧
    flagOf ((vectorHeld 63).reg (Reg.MSIX_TABLE + 16 * (63#6).toNat + 12)) 0 = false :=
  by decide +kernel

theorem witness_lossNone :
    up.pwr.inReset = false ∧
    (up.evt.lost = none ∨ up.jrnFree < 2) :=
  by decide +kernel

theorem witness_lossFull :
    lossFullRing.pwr.inReset = false ∧
    (lossFullRing.evt.lost = none ∨ lossFullRing.jrnFree < 2) :=
  by decide +kernel

theorem witness_ringLossMarker :
    lossPending.pwr.inReset = false ∧
    lossPending.evt.lost = some (7, 2) ∧
    3 ≤ lossPending.jrnFree ∧
    ¬evKey (Occ.mk 0 303 1 0 7 2 false 1) ∈ lossPending.evt.raised ∧
    Machine.Inv lossPending :=
  ⟨by decide +kernel, by decide +kernel, by decide +kernel, by decide +kernel, inv_of (by decide +kernel)⟩

theorem witness_lossLast :
    lossTwo.pwr.inReset = false ∧
    lossTwo.evt.lost = some (7, 2) ∧
    lossTwo.jrnFree = 2 ∧
    ¬evKey (Occ.mk 0 303 1 0 7 2 false 1) ∈ lossTwo.evt.raised ∧
    Machine.Inv lossTwo :=
  ⟨by decide +kernel, by decide +kernel, by decide +kernel, by decide +kernel, inv_of (by decide +kernel)⟩

theorem witness_spillNone :
    up.pwr.inReset = false ∧
    (up.lifecycle ≠ 1 ∧ up.lifecycle ≠ 2 ∨
  up.evt.spill = [] ∨ up.fld Reg.EVT_SPILL_CTRL 23 0 = 0 ∨ up.evt.spill.length < 128 ∧ up.evt.spillFlush = false) :=
  by decide +kernel

theorem witness_spillFew :
    spillFewer.pwr.inReset = false ∧
    (spillFewer.lifecycle ≠ 1 ∧ spillFewer.lifecycle ≠ 2 ∨
  spillFewer.evt.spill = [] ∨
    spillFewer.fld Reg.EVT_SPILL_CTRL 23 0 = 0 ∨
      spillFewer.evt.spill.length < 128 ∧ spillFewer.evt.spillFlush = false) :=
  by decide +kernel

theorem witness_spillSector :
    spilling.pwr.inReset = false ∧
    spilling.fld Reg.EVT_SPILL_CTRL 23 0 ≠ 0 ∧
    (spilling.lifecycle = 1 ∨ spilling.lifecycle = 2) ∧
    128 ≤ spilling.evt.spill.length ∧
    (∀ (i : Nat),
  i ∈ List.take 128 spilling.evt.spill →
    spilling.mem.outcome spilling.begin.freeCtr (journalBase / 32 + i) = ReadOutcome.clean) :=
  by decide +kernel

theorem witness_spillBad :
    spillLost.pwr.inReset = false ∧
    spillLost.fld Reg.EVT_SPILL_CTRL 23 0 ≠ 0 ∧
    (spillLost.lifecycle = 1 ∨ spillLost.lifecycle = 2) ∧
    128 ≤ spillLost.evt.spill.length ∧
    3 < 128 ∧
    spillLost.mem.outcome spillLost.begin.freeCtr (journalBase / 32 + spillLost.evt.spill.getD 3 0) =
  ReadOutcome.uncorrectable :=
  by decide +kernel

theorem witness_spillFails :
    spilling.pwr.inReset = false ∧
    spilling.fld Reg.EVT_SPILL_CTRL 23 0 ≠ 0 ∧
    (spilling.lifecycle = 1 ∨ spilling.lifecycle = 2) ∧
    128 ≤ spilling.evt.spill.length :=
  by decide +kernel

theorem witness_spillReadNone :
    up.pwr.inReset = false ∧
    up.evt.spillRead = none :=
  by decide +kernel

theorem witness_spillReadDone :
    spillReading.pwr.inReset = false ∧
    spillReading.evt.spillRead = some 3 ∧
    sparseGet (fun _ => none) spillReading.evt.sectors 3 = some (spillReading.tru.sectorKey, List.replicate 4096 6) ∧
    (List.replicate 4096 6).length = 4096 ∧
    (spillReading.lifecycle = 1 ∨ spillReading.lifecycle = 2) ∧
    Machine.Inv spillReading :=
  ⟨by decide +kernel, by decide +kernel, rfl, List.length_replicate, by decide +kernel, inv_of (by decide +kernel)⟩

theorem witness_dumpNone :
    up.pwr.inReset = false ∧
    up.pmc.job = none :=
  by decide +kernel

theorem witness_dumpWritten :
    dumping.pwr.inReset = false ∧
    dumping.pmc.job = some dumpJob ∧
    flagOf (dumping.reg Reg.PMC_DUMP_VEC) 6 = false :=
  by decide +kernel

theorem witness_waysideIdle :
    waysideRuns.pwr.inReset = false ∧
    waysideRuns.pmc.wstRunning.testBit (1#2).toNat = false :=
  by decide +kernel

theorem witness_waysideDone :
    waysideRuns.pwr.inReset = false ∧
    waysideRuns.pmc.wstRunning.testBit (3#2).toNat = true ∧
    (3#2).toNat ≠ 0 ∧
    (if (3#2).toNat = 3 then waysideRuns.tru.waysideOtp else Option.map (fun d : Word => BitVec.toNat d) (some 77)) = none :=
  by decide +kernel

theorem witness_waysideTwo :
    waysideRuns.pwr.inReset = false ∧
    waysideRuns.pmc.wstRunning.testBit (2#2).toNat = true ∧
    (2#2).toNat ≠ 0 ∧
    (if (2#2).toNat = 3 then waysideRuns.tru.waysideOtp else Option.map (fun d : Word => BitVec.toNat d) (some 77)) =
  some 77 :=
  by decide +kernel

theorem witness_waysideClean :
    waysideRuns.pwr.inReset = false ∧
    waysideRuns.pmc.wstRunning.testBit (2#2).toNat = true ∧
    (2#2).toNat ≠ 0 ∧
    (if (2#2).toNat = 3 then waysideRuns.tru.waysideOtp else Option.map (fun d : Word => BitVec.toNat d) none) = none :=
  by decide +kernel

theorem witness_spillRead :
    Accepted spilling Session.pcie Reg.EVT_SPILL_CMD (BitVec.ofNat 32 (2 ^ 31 + (4#24).toNat)) :=
  accepted_of (by decide +kernel)

theorem witness_pmcCfg :
    Accepted live Session.pcie (Reg.PMC_CFG0 + 4 * (8191#13).toNat) 0 :=
  accepted_of (by decide +kernel)

theorem witness_counts :
    8191 < 8192 ∧
    (∀ (e : Nat × Word),
  e ∈ countingEvents.cfg →
    Reg.PMC_CFG0 ≤ e.fst →
      e.fst < Reg.PMC_CFG0 + 4 * 8192 →
        fieldOf e.snd 29 24 = 13 → fieldOf e.snd 15 0 = 286 → e.fst = Reg.PMC_CFG0 + 4 * 8191) :=
  by decide +kernel

theorem witness_countsNone :
    8191 < 8192 ∧
    (∀ (e : Nat × Word),
  e ∈ countingEvents.cfg →
    Reg.PMC_CFG0 ≤ e.fst →
      e.fst < Reg.PMC_CFG0 + 4 * 8192 →
        fieldOf e.snd 29 24 = 12 → fieldOf e.snd 15 0 = 286 → e.fst = Reg.PMC_CFG0 + 4 * 8191) ∧
    (∀ (w : Word), (Reg.PMC_CFG0 + 4 * 8191, w) ∈ countingEvents.cfg → fieldOf w 29 24 ≠ 12 ∨ fieldOf w 15 0 ≠ 286) :=
  ⟨by decide +kernel, by decide +kernel, fun w hw => .inl (by
    rw [show countingEvents.cfg = [(Reg.PMC_CFG0 + 4 * 8191, BitVec.ofNat 32 (13 * 2 ^ 24 + 286))] by decide +kernel] at hw
    simp only [List.mem_singleton, Prod.mk.injEq, true_and] at hw
    subst hw
    decide +kernel)⟩

/-! The hypotheses that speak of SHA-384, ECDSA or ML-DSA are met where those functions, which nothing evaluates here, give
what a premise says. -/

theorem sigCheck_of {t : TruState} {b : Bytes} {g : Nat} (hl : sigLength b = .inr 256)
    (hf : sigForm (b.drop (b.length - 256)) = none) (hg : beAt (b.drop (b.length - 256)) 10 1 = g)
    (hi : t.inForce ownerRegion = some g) (hy : t.hybrid g = false)
    (hh : sha384 (bytesAt (b.drop (b.length - 256)) 16 97) = t.ownerHash g)
    (hv : Config.ecdsaVerify (bytesAt (b.drop (b.length - 256)) 16 97) (b.take (b.length - 256))
      (bytesAt (b.drop (b.length - 256)) 128 96) = true) : t.sigCheck b = none := by
  simp [TruState.sigCheck, hl, hf, hg, hi, hy, hh, hv]

/-- A file that ends in `signature` verifies on the owned part. -/
theorem sig_owned {b : Bytes} {t : TruState} (ht : t.otp = owned.tru.otp) (hl : sigLength b = .inr 256)
    (hb : b.drop (b.length - 256) = signature) (h : sha384 ownerKey = ownerHash0)
    (v : ∀ m, Config.ecdsaVerify ownerKey m (List.replicate 96 1) = true) : t.sigCheck b = none := by
  have w : ∀ n, t.word n = owned.tru.word n := fun n => by simp [TruState.word, ht]
  have ws : ∀ n k, t.words n k = owned.tru.words n k := fun n k => by simp [TruState.words, w]
  have hv : ∀ r g, t.valid r g = owned.tru.valid r g := fun r g => by
    simp [TruState.valid, TruState.repairOk, TruState.checked, w, ws]
  refine sigCheck_of (g := 0) hl ?_ ?_ ?_ ?_ ?_ ?_
  · rw [hb]; decide +kernel
  · rw [hb]; decide +kernel
  · simp only [TruState.inForce, hv]; decide +kernel
  · simp only [TruState.hybrid, w]; decide +kernel
  · rw [hb, show bytesAt signature 16 97 = ownerKey by decide +kernel, h]
    simp only [TruState.ownerHash, ws]; decide +kernel
  · rw [hb, show bytesAt signature 16 97 = ownerKey by decide +kernel,
      show bytesAt signature 128 96 = List.replicate 96 1 by decide +kernel]
    exact v _

theorem fileFault_owned {s : State} {b : Bytes} {k n : Nat} (h : s.tru.sigCheck b = none)
    (h1 : headerFault b k n = none) (h2 : s.partFault b = none) (h3 : s.lifeFault b = none) :
    s.fileFault b k n = none := by
  simp [State.fileFault, State.signFault, h, h1, h2, h3]

theorem staged_bytes : (staged owned (.load 3) fullImage).mem.readBytes
    ((staged owned (.load 3) fullImage).freeCtr + 1) stagingBase (staged owned (.load 3) fullImage).rteLen = fullImage := by
  decide +kernel

theorem restaged_bytes : (staged reloading (.load 3) fullImage).mem.readBytes
    ((staged reloading (.load 3) fullImage).freeCtr + 1) stagingBase (staged reloading (.load 3) fullImage).rteLen =
      fullImage :=
  staged_bytes

theorem full_signed {t : TruState} (ht : t.otp = owned.tru.otp) (h : sha384 ownerKey = ownerHash0)
    (v : ∀ m, Config.ecdsaVerify ownerKey m (List.replicate 96 1) = true) : t.sigCheck fullImage = none :=
  sig_owned ht (by decide +kernel) (by decide +kernel) h v

theorem witness_loads (h : sha384 ownerKey = ownerHash0)
    (v : ∀ m, Config.ecdsaVerify ownerKey m (List.replicate 96 1) = true) :
    (staged owned (.load 3) fullImage).mem.readBytes ((staged owned (.load 3) fullImage).freeCtr + 1) stagingBase
      (staged owned (.load 3) fullImage).rteLen = fullImage ∧
    (staged owned (.load 3) fullImage).pwr.inReset = false ∧
    (staged owned (.load 3) fullImage).rte.op = some (.load 3) ∧
    (staged owned (.load 3) fullImage).mem.firstBad ((staged owned (.load 3) fullImage).freeCtr + 1)
      stagingBase (staged owned (.load 3) fullImage).rteLen = none ∧
    (staged owned (.load 3) fullImage).imageFault fullImage = none ∧
    needsFill (imageRecs fullImage) = false ∧
    (∀ r ∈ imageRecs fullImage, r.typ / 256 = 1 ∨ r.typ / 256 = 6) := by
  refine ⟨staged_bytes, by decide +kernel, by decide +kernel, by decide +kernel, ?_, by decide +kernel, by decide +kernel⟩
  have e := fileFault_owned (k := 1) (n := fullImage.length) (full_signed
    (t := (staged owned (.load 3) fullImage).tru) (by decide +kernel) h v) (by decide +kernel) (by decide +kernel)
    (by decide +kernel)
  rw [State.imageFault, e]
  decide +kernel

theorem witness_loadsAgain (h : sha384 ownerKey = ownerHash0)
    (v : ∀ m, Config.ecdsaVerify ownerKey m (List.replicate 96 1) = true) :
    (staged reloading (.load 3) fullImage).mem.readBytes ((staged reloading (.load 3) fullImage).freeCtr + 1)
      stagingBase (staged reloading (.load 3) fullImage).rteLen = fullImage ∧
    (staged reloading (.load 3) fullImage).rte.op = some (.load 3) ∧
    (staged reloading (.load 3) fullImage).imageFault fullImage = none ∧
    (staged reloading (.load 3) fullImage).rte.active = true := by
  refine ⟨restaged_bytes, by decide +kernel, ?_, by decide +kernel⟩
  have e := fileFault_owned (k := 1) (n := fullImage.length) (full_signed
    (t := (staged reloading (.load 3) fullImage).tru) (by decide +kernel) h v) (by decide +kernel) (by decide +kernel)
    (by decide +kernel)
  rw [State.imageFault, e]
  decide +kernel

theorem witness_stores (h : sha384 ownerKey = ownerHash0)
    (v : ∀ m, Config.ecdsaVerify ownerKey m (List.replicate 96 1) = true) :
    (staged owned (.store true) fullImage).mem.readBytes ((staged owned (.store true) fullImage).freeCtr + 1)
      stagingBase (staged owned (.store true) fullImage).rteLen = fullImage ∧
    (staged owned (.store true) fullImage).pwr.inReset = false ∧
    (staged owned (.store true) fullImage).rte.op = some (.store true) ∧
    (staged owned (.store true) fullImage).mem.firstBad ((staged owned (.store true) fullImage).freeCtr + 1)
      stagingBase (staged owned (.store true) fullImage).rteLen = none ∧
    (staged owned (.store true) fullImage).fileFault fullImage 1 (staged owned (.store true) fullImage).rteLen = none ∧
    sectionFault fullImage = none ∧
    0x02000000 + 4096 * (staged owned (.store true) fullImage).spillSectors ≤
      (staged owned (.store true) fullImage).rte.flashSize :=
  ⟨staged_bytes, by decide +kernel, by decide +kernel, by decide +kernel,
    fileFault_owned (full_signed (by decide +kernel) h v) (by decide +kernel) (by decide +kernel) (by decide +kernel),
    by decide +kernel⟩

theorem witness_storeFails (h : sha384 ownerKey = ownerHash0)
    (v : ∀ m, Config.ecdsaVerify ownerKey m (List.replicate 96 1) = true) :
    (staged owned (.store true) fullImage).mem.readBytes ((staged owned (.store true) fullImage).freeCtr + 1)
      stagingBase (staged owned (.store true) fullImage).rteLen = fullImage ∧
    (staged owned (.store true) fullImage).pwr.inReset = false ∧
    (staged owned (.store true) fullImage).rte.op = some (.store true) ∧
    (staged owned (.store true) fullImage).mem.firstBad ((staged owned (.store true) fullImage).freeCtr + 1)
      stagingBase (staged owned (.store true) fullImage).rteLen = none ∧
    (staged owned (.store true) fullImage).fileFault fullImage 1 (staged owned (.store true) fullImage).rteLen = none ∧
    sectionFault fullImage = none ∧
    (staged owned (.store true) fullImage).storeFault true fullImage.length (some 9) = some 9 :=
  ⟨staged_bytes, by decide +kernel, by decide +kernel, by decide +kernel,
    fileFault_owned (full_signed (by decide +kernel) h v) (by decide +kernel) (by decide +kernel) (by decide +kernel),
    by decide +kernel⟩

theorem small_bytes : smallFlash.mem.readBytes (smallFlash.freeCtr + 1) stagingBase smallFlash.rteLen = fullImage := by
  decide +kernel

theorem witness_storeSmall (h : sha384 ownerKey = ownerHash0)
    (v : ∀ m, Config.ecdsaVerify ownerKey m (List.replicate 96 1) = true) :
    smallFlash.mem.readBytes (smallFlash.freeCtr + 1) stagingBase smallFlash.rteLen = fullImage ∧
    smallFlash.pwr.inReset = false ∧
    smallFlash.rte.op = some (.store true) ∧
    smallFlash.mem.firstBad (smallFlash.freeCtr + 1) stagingBase smallFlash.rteLen = none ∧
    smallFlash.fileFault fullImage 1 smallFlash.rteLen = none ∧
    sectionFault fullImage = none ∧
    smallFlash.storeFault true fullImage.length none = some 4096 :=
  ⟨small_bytes, by decide +kernel, by decide +kernel, by decide +kernel,
    fileFault_owned (full_signed (by decide +kernel) h v) (by decide +kernel) (by decide +kernel) (by decide +kernel),
    by decide +kernel⟩

/-- The bytes of the amendment that stands in staging. -/
def amendFile : Bytes := imageFile 2 1 (List.replicate 48 3) 6 lockSection

theorem amended_bytes : amended.mem.readBytes (amended.freeCtr + 1) stagingBase amended.rteLen = amendFile := by
  decide +kernel

theorem amend_fault (h : sha384 ownerKey = ownerHash0)
    (v : ∀ m, Config.ecdsaVerify ownerKey m (List.replicate 96 1) = true) :
    (amended.begin.noteRead 2 stagingBase amended.rteLen).fileFault amendFile 2 amendFile.length = none :=
  fileFault_owned (sig_owned (by decide +kernel) (by decide +kernel) (by decide +kernel) h v) (by decide +kernel)
    (by decide +kernel) (by decide +kernel)

/-- Whether a judgement accepts. -/
def Accepts : Applied → Bool
  | .inl _ => true
  | .inr _ => false

theorem exists_of_accepts {x : Applied} (h : Accepts x = true) : ∃ t, x = .inl t := by
  cases x with
  | inl t => exact ⟨t, rfl⟩
  | inr f => cases h

theorem witness_amends (h : sha384 ownerKey = ownerHash0)
    (v : ∀ m, Config.ecdsaVerify ownerKey m (List.replicate 96 1) = true) :
    amended.mem.readBytes (amended.freeCtr + 1) stagingBase amended.rteLen = amendFile ∧
    amended.pwr.inReset = false ∧
    amended.rte.op = some .amend ∧
    amended.mem.firstBad (amended.freeCtr + 1) stagingBase amended.rteLen = none ∧
    (∃ t, (amended.begin.noteRead 2 stagingBase amended.rteLen).amdJudge amendFile = .inl t) ∧
    amended.now + 2097152 < amended.amdTime.fst * 1000000000 + amended.amdTime.snd := by
  refine ⟨amended_bytes, by decide +kernel, by decide +kernel, by decide +kernel, exists_of_accepts ?_, by decide +kernel⟩
  rw [State.amdJudge, amend_fault h v]
  decide +kernel

theorem key_input : (withInput up ownerKey).truInput = ownerKey := by decide +kernel

theorem key_input_half : (withInput halfProvisioned ownerKey).truInput = ownerKey := by decide +kernel

theorem blob_input : (withInput owned nextBlob).truInput = nextBlob := by decide +kernel

def lastBlob : Bytes := ownerBlob 2 0 []

theorem last_input : (withInput owned lastBlob).truInput = lastBlob := by decide +kernel

theorem witness_provision :
    Accepted (withInput up ownerKey) .pcie Reg.TRU_CMD (BitVec.ofNat 32 (2 ^ 31 + 1)) ∧
    truAccepts (withInput up ownerKey).lifecycle 1 = true ∧
    (withInput up ownerKey).pwr.queue = [] ∧
    (withInput up ownerKey).alloc + 250 ≤ (withInput up ownerKey).effCeiling ∧
    (withInput up ownerKey).truInput.length = 97 ∧
    (withInput up ownerKey).tru.inForce ownerRegion = none ∧
    (withInput up ownerKey).tru.unused ownerRegion = some 0 ∧
    firstOwner = ownerCommit 1 0 (withInput up ownerKey).truInput true :=
  ⟨accepted_of (by decide +kernel), by decide +kernel, by decide +kernel, by decide +kernel, by rw [key_input]; rfl,
    by decide +kernel, by decide +kernel, rfl⟩

theorem witness_provisionAgain (h : sha384 ownerKey = ownerHash0) :
    Accepted (withInput halfProvisioned ownerKey) .pcie Reg.TRU_CMD (BitVec.ofNat 32 (2 ^ 31 + 1)) ∧
    truAccepts (withInput halfProvisioned ownerKey).lifecycle 1 = true ∧
    (withInput halfProvisioned ownerKey).pwr.queue = [] ∧
    (withInput halfProvisioned ownerKey).alloc + 250 ≤ (withInput halfProvisioned ownerKey).effCeiling ∧
    (withInput halfProvisioned ownerKey).truInput.length = 97 ∧
    (withInput halfProvisioned ownerKey).tru.inForce ownerRegion = some 0 ∧
    sha384 (withInput halfProvisioned ownerKey).truInput = (withInput halfProvisioned ownerKey).tru.ownerHash 0 :=
  ⟨accepted_of (by decide +kernel), by decide +kernel, by decide +kernel, by decide +kernel, by rw [key_input_half]; rfl,
    by decide +kernel, by rw [key_input_half, h]; decide +kernel⟩

theorem witness_transfer (h : sha384 ownerKey = ownerHash0)
    (v : ∀ m, Config.ecdsaVerify ownerKey m (List.replicate 96 1) = true) :
    Accepted (withInput owned nextBlob) .pcie Reg.TRU_CMD (BitVec.ofNat 32 (2 ^ 31 + 2)) ∧
    truAccepts (withInput owned nextBlob).lifecycle 2 = true ∧
    (withInput owned nextBlob).pwr.queue = [] ∧
    (withInput owned nextBlob).alloc + 250 ≤ (withInput owned nextBlob).effCeiling ∧
    (withInput owned nextBlob).blobCheck (withInput owned nextBlob).truInput 1 = 0 := by
  refine ⟨accepted_of (by decide +kernel), by decide +kernel, by decide +kernel, by decide +kernel, ?_⟩
  rw [blob_input, State.blobCheck, sig_owned (t := (withInput owned nextBlob).tru) (b := nextBlob) (by decide +kernel)
    (by decide +kernel) (by decide +kernel) h v]
  decide +kernel

theorem witness_decommission (h : sha384 ownerKey = ownerHash0)
    (v : ∀ m, Config.ecdsaVerify ownerKey m (List.replicate 96 1) = true) :
    Accepted (withInput owned lastBlob) .pcie Reg.TRU_CMD (BitVec.ofNat 32 (2 ^ 31 + 3)) ∧
    truAccepts (withInput owned lastBlob).lifecycle 3 = true ∧
    (withInput owned lastBlob).pwr.queue = [] ∧
    (withInput owned lastBlob).alloc + 250 ≤ (withInput owned lastBlob).effCeiling ∧
    (withInput owned lastBlob).blobCheck (withInput owned lastBlob).truInput 2 = 0 ∧
    (withInput owned lastBlob).rte.active = false := by
  refine ⟨accepted_of (by decide +kernel), by decide +kernel, by decide +kernel, by decide +kernel, ?_, by decide +kernel⟩
  rw [last_input, State.blobCheck, sig_owned (t := (withInput owned lastBlob).tru) (b := lastBlob) (by decide +kernel)
    (by decide +kernel) (by decide +kernel) h v]
  decide +kernel

theorem witness_certLoad (h : chainValid (withInput up ownChain).truInput (withInput up ownChain).tru.ident = true)
    (k : chainKeys (withInput up ownChain).truInput =
      (Config.ecPublic (withInput up ownChain).tru.ecKey, Config.mldsaPublic (withInput up ownChain).tru.mlKey)) :
    Accepted (withInput up ownChain) .pcie Reg.TRU_CMD (BitVec.ofNat 32 (2 ^ 31 + 5)) ∧
    truAccepts (withInput up ownChain).lifecycle 5 = true ∧
    chainValid (withInput up ownChain).truInput (withInput up ownChain).tru.ident = true ∧
    chainKeys (withInput up ownChain).truInput =
      (Config.ecPublic (withInput up ownChain).tru.ecKey, Config.mldsaPublic (withInput up ownChain).tru.mlKey) :=
  ⟨accepted_of (by decide +kernel), by decide +kernel, h, k⟩

/-! ### Statements whose hypotheses are met by hand -/

theorem witness_resetHolds : State.reset.pwr.inReset = true ∧
    exec (.registerWrite .pcie false 0 0 0xF) State.reset =
      .next { State.reset with out := [], batch := [], freeCtr := 1 } :=
  ⟨rfl, rfl⟩

def biasedStep : State := { biased with pending := [.ditherHalfPeriod .a] }

theorem witness_stepKeepsInvariant : Inv biasedStep ∧ ∃ t, step biasedStep = .next t :=
  ⟨inv_of (by decide +kernel), _, rfl⟩

theorem witness_engineOps (s : State) (hs : s = engineAt (ins 4 3 3 4 0x3FFF) id) 
    (x : Pass) (hx : x = freshPass) (w u v imm : Word) (d : Nat) (hw : w = s.fetch x) (hd : d = fieldOf w 25 22)
    (hu : u = x.g (fieldOf w 21 18)) (hv : v = x.g (fieldOf w 17 14)) (hi : imm = BitVec.ofNat 32 (fieldOf w 13 0)) :
    s.pwr.inReset = false ∧ s.engine 2 = some x ∧ x.cycles < s.cycMax ∧
    (opOf w, Instr.movi 2, (x.setG 3 0x3FFF).next 1) ∈ [
  (0x01, Instr.nop 2, x.next 1),
  (0x04, .movi 2, (x.setG d (BitVec.ofNat 32 (fieldOf w 15 0))).next 1),
  (0x05, .movhi 2, (x.setG d (setField (x.g d) 31 16 (fieldOf w 15 0))).next 1),
  (0x09, .sub 2, (x.setG d (u - v)).next 1),
  (0x0A, .and 2, (x.setG d (u &&& v)).next 1),
  (0x0B, .or 2, (x.setG d (u ||| v)).next 1),
  (0x0C, .xor 2, (x.setG d (u ^^^ v)).next 1),
  (0x0D, .shl 2, (x.setG d (u <<< (v.toNat % 32))).next 1),
  (0x0E, .shr 2, (x.setG d (u >>> (v.toNat % 32))).next 1),
  (0x10, .addi 2, (x.setG d (u + BitVec.ofInt 32 (signedOf 14 (fieldOf w 13 0)))).next 1),
  (0x11, .andi 2, (x.setG d (u &&& imm)).next 1),
  (0x12, .ori 2, (x.setG d (u ||| imm)).next 1),
  (0x13, .shli 2, (x.setG d (u <<< (imm.toNat % 32))).next 1),
  (0x14, .shri 2, (x.setG d (u >>> (imm.toNat % 32))).next 1),
  (0x18, .cmp 2, { x with eq := u == v, lt := decide (u.toNat < v.toNat) }.next 1),
  (0x19, .cmpi 2, { x with
  eq := u == BitVec.ofNat 32 (fieldOf w 15 0), lt := decide (u.toNat < fieldOf w 15 0) }.next 1),
  (0x1C, .br 2, if x.holds d then { x with pc := fieldOf w 13 0, cycles := x.cycles + 2 } else x.next 1),
  (0x21, .setc 2, { x with cursor := u }.next 1),
  (0x25, .keyr 2, (x.setKey d (keyCopy d (beBytes (if d < 2 then 4 else keySizes.getD d 0)
  u.toNat))).next 1),
  (0x28, .chklen 2, (if x.limit < x.cursor.toNat + u.toNat then { x with conflict := true }
  else { x with limit := x.cursor.toNat + u.toNat }).next 1),
  (0x29, .flag 2, { x with flags := x.flags ||| BitVec.ofNat 8 (fieldOf w 7 0) }.next 1)] := by
  subst hs hx hw hd hu hv hi
  decide +kernel


theorem witness_timeLossDevice : (timeLost deviceDue).pwr.inReset = false ∧ (timeLost deviceDue).mst.time = .lost ∧
    (timeLost deviceDue).mst.queue = [queued 4 1 0 0x40] ∧ (queued 4 1 0 0x40).withdrawn = false ∧
    (timeLost deviceDue).rte.amd = none ∧
    (queued 4 1 0 0x40).deviceDone = false ∧ hasKind (queued 4 1 0 0x40).kinds 6 = true ∧
    (queued 4 1 0 0x40).partA.inScope = false ∧ (queued 4 1 0 0x40).partB.inScope = false ∧
    (queued 4 1 0 0x40).time * 4294967296 ≤
      (timeLost deviceDue).nowFine - (timeLost deviceDue).phase + (timeLost deviceDue).frameAdvance := by
  decide +kernel

theorem witness_sessionLocksBreak : lockedAll.pwr.inReset = false ∧ lockedAll.ctl.pcieUp = true ∧
    lockedAll.reaches .maint = true ∧ lockedAll.ringLane 14 = true ∧ (lockedAll.lane 14).state = 4 ∧
    (lockedAll.lock 6).owner = some 0 ∧ (lockedAll.lock 2).owner = some 1 ∧ (lockedAll.lock 5).owner = some 286 := by
  decide +kernel

theorem witness_timeLossKinds : allLost.pwr.inReset = false ∧ allLost.mst.time = .lost ∧ allLost.mst.queue = [allKinds] ∧
    allKinds.withdrawn = false ∧ allLost.rte.amd = none ∧ allLost.pathUp .a = true ∧
    (allKinds.part .a).inScope = true ∧ (allKinds.part .a).done = false ∧
    (allKinds.part .a).target = some ((allLost.txFc + 1) % 2 ^ 48) ∧
    (∀ k, k < 7 → hasKind (allKinds.part .a).kinds k = true) ∧ pathKey .a Reg.PA_LFR_TRACE_TX = true ∧
    noted allLost.shadow Reg.PA_LFR_TRACE_TX = some 0x41424344 := by
  decide +kernel

theorem witness_equalised : waitingFrame.pwr.inReset = false ∧ waitingFrame.pathUp .a = true ∧
    waitingFrame.locked .a = true ∧ (waitingFrame.path .a).rxd.chain.eqd = [] :: [] := by decide +kernel

theorem witness_basicCry :
    Accepted live Session.pcie (basicReg BasicUnit.cry) (live.withField (basicReg BasicUnit.cry) 3 0 (0#4).toNat) ∧
    BasicUnit.cry = BasicUnit.cry ∧
    (∀ (i : Nat),
  i < 2 →
  (live.stores Session.pcie (basicReg BasicUnit.cry)
          (live.withField (basicReg BasicUnit.cry) 3 0 (0#4).toNat)).fldI
        Reg.CRY_POLICY i 5 0 =
      (List.foldl (fun t f => t.storeField f.off f.idx f.hi f.lo f.val)
            (live.stores Session.pcie (basicReg BasicUnit.cry)
              (live.withField (basicReg BasicUnit.cry) 3 0 (0#4).toNat))
            ((live.stores Session.pcie (basicReg BasicUnit.cry)
                  (live.withField (basicReg BasicUnit.cry) 3 0 (0#4).toNat)).profFields
              (basicReg BasicUnit.cry) (live.withField (basicReg BasicUnit.cry) 3 0 (0#4).toNat))).fldI
        Reg.CRY_POLICY i 5 0) := by
  refine ⟨accepted_of (by decide +kernel), rfl, fun i hi => ?_⟩
  rw [← List.take_append_drop 8 (State.profFields _ _ _), List.foldl_append, State.fldI, State.fldI, State.storeFields_regI]
  · revert i; decide +kernel
  · revert i; decide +kernel

def patternRuns : State := { waysideRuns with pmc := { waysideRuns.pmc with wstRunning := 1 } }

theorem witness_waysideMem : patternRuns.pwr.inReset = false ∧ patternRuns.pmc.wstRunning.testBit (0#2).toNat = true ∧
    patternRuns.mem.merge = [] ∧ patternRuns.mem.stalled = [] ∧ Inv patternRuns :=
  ⟨by decide +kernel, by decide +kernel, by decide +kernel, by decide +kernel, inv_of (by decide +kernel)⟩

end Sys2Proof.Tests
end

section
/-!
SUPPORT. How a write is refused (R13, R455, R456): the checks that do not depend on time and what they answer, the
codes that the owning chapters give, and a refused write of a session as one command.
-/
namespace Sys2Proof.Machine

/-! ### Lists of codes -/

@[simp] theorem firstCode_nil : firstCode [] = acOk := rfl

@[simp] theorem firstCode_cons (c : Nat) (l : List Nat) :
    firstCode (c :: l) = if c = acOk then firstCode l else c := by
  by_cases h : c = 0 <;> simp [firstCode, acOk, h]

theorem firstCode_codeIf (b : Bool) {c : Nat} (l : List Nat) (hc : c ≠ acOk) :
    firstCode (codeIf b c :: l) = if b then c else firstCode l := by
  cases b
  · rfl
  · simp [codeIf, hc]

/-- The first code that is not `OK` is one of the list. -/
theorem firstCode_mem (l : List Nat) : firstCode l ∈ acOk :: l := by
  induction l with
  | nil => exact List.mem_cons_self
  | cons c l ih =>
    rw [firstCode_cons]
    split
    · exact List.mem_cons.mpr ((List.mem_cons.mp ih).imp_right (List.mem_cons_of_mem c))
    · simp

/-! ### `EXPERT_LOCK` is no late code -/

theorem codeIf_ne_expert (b : Bool) {c : Nat} (h : c ≠ acExpert) : codeIf b c ≠ acExpert := by
  cases b
  · exact (by decide : acOk ≠ acExpert)
  · exact h

theorem ite_ne_expert {P : Prop} [Decidable P] {c d : Nat} (hc : c ≠ acExpert) (hd : d ≠ acExpert) :
    (if P then c else d) ≠ acExpert := by
  split
  · exact hc
  · exact hd

theorem firstCode_ne_expert {l : List Nat} (h : ∀ c ∈ l, c ≠ acExpert) : firstCode l ≠ acExpert := by
  rcases List.mem_cons.mp (firstCode_mem l) with h0 | hl
  · rw [h0]; decide
  · exact h _ hl

theorem firstCode_pair_ne_expert {c d : Nat} (hc : c ≠ acExpert) (hd : d ≠ acExpert) :
    firstCode [c, d] ≠ acExpert := firstCode_ne_expert (by simp [hc, hd])

theorem State.fixCode_ne_expert (s : State) (id : Nat) (v : Int) : s.fixCode id v ≠ acExpert := by
  unfold State.fixCode
  split
  · decide
  · exact firstCode_pair_ne_expert (codeIf_ne_expert _ (by decide)) (codeIf_ne_expert _ (by decide))

theorem State.latePath_ne_expert (s : State) (p : Path) (b off : Nat) (w : Word) :
    s.latePath p b off w ≠ acExpert := by
  unfold State.latePath
  split_ifs
  · exact codeIf_ne_expert _ (by decide)
  · exact codeIf_ne_expert _ (by decide)
  · exact codeIf_ne_expert _ (by decide)
  · exact firstCode_pair_ne_expert (codeIf_ne_expert _ (by decide)) (s.fixCode_ne_expert _ _)
  · exact codeIf_ne_expert _ (by decide)
  · exact firstCode_pair_ne_expert (codeIf_ne_expert _ (by decide)) (s.fixCode_ne_expert _ _)
  · exact codeIf_ne_expert _ (by decide)
  · decide

theorem State.lateUnit_ne_expert (s : State) (b : Nat) (w : Word) : s.lateUnit b w ≠ acExpert := by
  have busy (x : Bool) : codeIf x acBusy ≠ acExpert := codeIf_ne_expert x (by decide)
  have frozen (x : Bool) : codeIf x acFrozen ≠ acExpert := codeIf_ne_expert x (by decide)
  have state (x : Bool) : codeIf x acState ≠ acExpert := codeIf_ne_expert x (by decide)
  unfold State.lateUnit
  exact ite_ne_expert (firstCode_pair_ne_expert (busy _) (state _)) <| ite_ne_expert (state _) <|
    ite_ne_expert (frozen _) <| ite_ne_expert (frozen _) <| ite_ne_expert (state _) <| ite_ne_expert (frozen _) <|
    ite_ne_expert (frozen _) <| ite_ne_expert (frozen _) <| ite_ne_expert (busy _) <| ite_ne_expert (busy _) <|
    ite_ne_expert (busy _) <| ite_ne_expert (busy _) <| ite_ne_expert (frozen _) <|
    ite_ne_expert (s.fixCode_ne_expert _ _) <| ite_ne_expert (state _) <| ite_ne_expert (busy _) (by decide)

theorem State.lateBasic_ne_expert (s : State) (b : Nat) (w : Word) : s.lateBasic b w ≠ acExpert := by
  unfold State.lateBasic
  split
  · exact codeIf_ne_expert _ (by decide)
  · decide

theorem State.lateCode_ne_expert (s : State) (a : Writer) (off : Nat) (w : Word) :
    s.lateCode a off w ≠ acExpert := by
  unfold State.lateCode
  split
  · decide
  · refine firstCode_ne_expert ?_
    simp only [List.forall_mem_cons]
    refine ⟨codeIf_ne_expert _ (by decide), ?_, s.lateBasic_ne_expert _ _, nofun⟩
    split
    · exact s.latePath_ne_expert _ _ _ _
    · exact s.lateUnit_ne_expert _ _

/-! ### The checks that do not depend on time -/

section
variable {s : State} {off : Nat} {w : Word} {d : RegDesc}

/-- The checks of a register that the map has in a present block, in their order. -/
theorem State.staticCode_present (a : Writer) (hd : regDesc off = some d) (hu : off < unmappedFrom)
    (hp : s.present off = true) :
    s.staticCode a off w =
      if !(valuesOk d w && s.valueOk off w && s.valueFits off w) then acValue
      else if a == .host && s.rwlLocked off && ((w ^^^ s.storedWord off d) &&& lockMask d) != 0 then acRwl
      else if a == .host && !d.basic && s.expertLocked off then acExpert
      else acOk := by
  unfold State.staticCode
  simp only [hd, hp, Nat.not_le.mpr hu, if_false, Bool.not_true, Bool.false_eq_true]
  rw [firstCode_codeIf _ _ (by decide), firstCode_codeIf _ _ (by decide), firstCode_codeIf _ _ (by decide),
    firstCode_nil]

/-- Registers that no lock covers: unmapped, or absent. -/
theorem State.staticCode_nowhere (a : Writer) (hd : regDesc off = some d)
    (h : ¬ (off < unmappedFrom ∧ s.present off = true)) : s.staticCode a off w ∈ [acAbsent, acUnmapped] := by
  unfold State.staticCode
  rw [hd]
  by_cases hu : off < unmappedFrom
  · have hp : s.present off = false := by simpa [hu] using h
    simp [Nat.not_le.mpr hu, hp]
  · simp [Nat.not_lt.mp hu]

/-- An expert write to a locked unit fails these checks (R13). -/
theorem State.staticCode_locked (hd : regDesc off = some d) (hb : d.basic = false) (hl : s.expertLocked off = true) :
    s.staticCode .host off w ∈ [acValue, acRwl, acExpert, acAbsent, acUnmapped] := by
  by_cases h : off < unmappedFrom ∧ s.present off = true
  · rw [s.staticCode_present .host hd h.1 h.2]
    have expert : (Writer.host == .host && !d.basic && s.expertLocked off) = true := by simp [hb, hl]
    rw [if_pos expert]
    split_ifs <;> simp
  · have := s.staticCode_nowhere (w := w) .host hd h
    simp only [List.mem_cons] at this ⊢
    tauto

/-- `EXPERT_LOCK` is the code where no other condition refuses the write. -/
theorem State.staticCode_onlyLocked (hd : regDesc off = some d) (hb : d.basic = false)
    (hl : s.expertLocked off = true) (hu : off < unmappedFrom) (hp : s.present off = true)
    (hv : (valuesOk d w && s.valueOk off w && s.valueFits off w) = true) (hr : s.rwlLocked off = false) :
    s.staticCode .host off w = acExpert := by
  rw [s.staticCode_present .host hd hu hp]
  simp [hv, hr, hb, hl]

/-- The locks of expert access do not refuse a basic write (R13). -/
theorem State.staticCode_basic (a : Writer) (hd : regDesc off = some d) (hb : d.basic = true) :
    s.staticCode a off w ≠ acExpert := by
  by_cases h : off < unmappedFrom ∧ s.present off = true
  · rw [s.staticCode_present a hd h.1 h.2]
    have noExpert : ¬ (a == .host && !d.basic && s.expertLocked off) = true := by simp [hb]
    rw [if_neg noExpert]
    split_ifs <;> decide
  · have := s.staticCode_nowhere (w := w) a hd h
    intro he
    simp [he, acExpert, acAbsent, acUnmapped] at this

end

/-- A basic write is never answered `EXPERT_LOCK` (R13). -/
theorem State.judge_basic {s : State} {off : Nat} {d : RegDesc} (a : Writer) (w : Word) (hd : regDesc off = some d)
    (hb : d.basic = true) : s.judge a off w ≠ acExpert :=
  firstCode_pair_ne_expert (s.staticCode_basic a hd hb) (s.lateCode_ne_expert a off w)

/-! ### Refused writes (R456) -/

theorem State.refuseWrite_eq (s : State) {c : Nat} (n off : Nat) (w : Word) (hc : refusedCode c = true) :
    s.refuseWrite n c off w =
      (s.updSession n fun x => { x with result := c, addr := off, refused := true }).occ
        ⟨2, 302, c, n, off, w.toNat, false, 0⟩ := by
  simp [State.refuseWrite, State.noteAccess, hc]

/-- Another session's lock on a register's domain refuses the write (R462). -/
theorem State.hostWrite_seqLock {s : State} {off : Nat} {d : RegDesc} (n : Nat) (w : Word) (hd : regDesc off = some d)
    (hu : off < unmappedFrom) (hp : s.present off = true) (hl : s.lockCode n off = acSeqLock) :
    s.hostWrite n off w = (s.refuseWrite n acSeqLock off w, acSeqLock) := by
  have covered : ¬ (unmappedFrom ≤ off ∨ (regDesc off).isNone = true ∨ (!s.present off) = true) := by
    simp [hd, hp, hu]
  unfold State.hostWrite
  simp only [covered, if_false, hl, if_true]
  rfl

/-- The checks that do not depend on time refuse a write whether it is staged or not (R462). -/
theorem State.hostWrite_static {s : State} {off c : Nat} {w : Word} (n : Nat) (hc : s.staticCode .host off w = c)
    (hr : refusedCode c = true) (hb : c ≠ acBusy)
    (hl : off < unmappedFrom → s.present off = true → s.lockCode n off ≠ acSeqLock) :
    s.hostWrite n off w = (s.refuseWrite n c off w, c) := by
  have h0 : c ≠ acOk := by rintro rfl; exact absurd hr (by decide)
  have judged : s.judge .host off w = c := by simp [State.judge, hc, h0]
  have unheld : (if unmappedFrom ≤ off ∨ (regDesc off).isNone = true ∨ (!s.present off) = true then acOk
      else s.lockCode n off) ≠ acSeqLock := by
    split
    · decide
    · next h =>
      simp only [not_or, Nat.not_le, Bool.not_eq_true', Bool.not_eq_false] at h
      obtain ⟨hu, -, hp⟩ := h
      exact hl hu hp
  unfold State.hostWrite
  simp only [judged, hc, firstCode_cons, h0, if_false, ite_self, unheld, hr, hb, if_true]

/-- A register write of a session that is refused answers the refusal's code (R455, R456). -/
theorem registerWrite_refused {s : State} {ses : Session} {off c : Nat} {w : Word} (hs : s.pwr.inReset = false)
    (hr : s.reaches ses = true) (hring : ∀ st, ses = .ring st → s.ringWrites = true) (h4 : off % 4 = 0)
    (h26 : off < 2 ^ 26) (hc : refusedCode c = true)
    (hw : s.begin.hostWrite (sessionNum ses) off w = (s.begin.refuseWrite (sessionNum ses) c off w, c)) :
    Answers (.registerWrite ses false (BitVec.ofNat 26 off) w 0xF) s
      (((s.begin.updSession (sessionNum ses) fun x => { x with result := c, addr := off, refused := true }).occ
        ⟨2, 302, c, sessionNum ses, off, w.toNat, false, 0⟩).portAnswer ses (some c)) := by
  have aligned : wordAligned (BitVec.ofNat 26 off).toNat = off := by
    rw [BitVec.toNat_ofNat, Nat.mod_eq_of_lt h26, wordAligned]
    omega
  have h0 : c ≠ acOk := by rintro rfl; exact absurd hc (by decide)
  have written : s.begin.sessionWrite (sessionNum ses) off w 0xF#4 =
      (s.begin.refuseWrite (sessionNum ses) c off w, c) := by
    simp [State.sessionWrite, State.busWrite, hw, h0]
  have reached : s.begin.reaches ses = true := by cases ses <;> exact hr
  rw [← State.refuseWrite_eq _ _ _ _ hc]
  refine answers_of rfl hs ?_
  simp only [aligned]
  cases ses with
  | pcie =>
    have up : s.begin.ctl.pcieUp = true := reached
    simp only [up, sessionNum] at written ⊢
    simp [written, State.portAnswer]
  | maint => simp [State.rowWrite, State.portWrite, reached, written]
  | ring st =>
    have writes : s.begin.ringWrites = true := hring st rfl
    simp [State.rowWrite, State.portWrite, reached, writes, written]

/-! ### Expert locks (R13) -/

/-- A session's expert write to a locked unit is refused: for the lock, or for another condition that refuses it too. -/
theorem State.hostWrite_locked {s : State} {off : Nat} {d : RegDesc} (n : Nat) (w : Word) (hd : regDesc off = some d)
    (hb : d.basic = false) (hl : s.expertLocked off = true) :
    ∃ c, c ∈ [acValue, acRwl, acExpert, acSeqLock, acAbsent, acUnmapped] ∧
      (s.lockCode n off ≠ acSeqLock → c = s.staticCode .host off w) ∧
      s.hostWrite n off w = (s.refuseWrite n c off w, c) := by
  have static := State.staticCode_locked (w := w) hd hb hl
  by_cases h : off < unmappedFrom ∧ s.present off = true ∧ s.lockCode n off = acSeqLock
  · obtain ⟨hu, hp, hq⟩ := h
    exact ⟨acSeqLock, by simp, fun hn => absurd hq hn, State.hostWrite_seqLock n w hd hu hp hq⟩
  · have codes : ∀ c ∈ [acValue, acRwl, acExpert, acAbsent, acUnmapped], refusedCode c = true ∧ c ≠ acBusy := by
      decide
    obtain ⟨hr, hbusy⟩ := codes _ static
    have unheld : off < unmappedFrom → s.present off = true → s.lockCode n off ≠ acSeqLock :=
      fun hu hp hq => h ⟨hu, hp, hq⟩
    refine ⟨s.staticCode .host off w, ?_, fun _ => rfl, State.hostWrite_static n rfl hr hbusy unheld⟩
    simp only [List.mem_cons] at static ⊢
    tauto

end Sys2Proof.Machine
end

section
/-! SUPPORT. R13: the image's locks of expert access. -/
namespace Sys2Proof.Machine

/-- Settles O38: the checks that do not depend on time hold the lock of expert access, and they come before every
effect of a write; only an expert write meets that check, and no owning chapter answers its code. -/
theorem expertLocks : Obligations.ExpertLocks := by
  unfold Obligations.ExpertLocks
  intro s ses off w d hs hr hring h4 h26 hd hl
  refine ⟨fun hb => ?_, fun hb => State.judge_basic .host w hd hb⟩
  obtain ⟨c, hc, hcode, hw⟩ := State.hostWrite_locked (s := s.begin) (sessionNum ses) w hd hb hl
  refine ⟨c, hc, fun hq hp hu hv hrwl => ?_, registerWrite_refused hs hr hring h4 h26 ?_ hw⟩
  · rw [hcode hq]
    exact State.staticCode_onlyLocked hd hb hl hu hp hv hrwl
  · have codes : ∀ c ∈ [acValue, acRwl, acExpert, acSeqLock, acAbsent, acUnmapped], refusedCode c = true := by decide
    exact codes c hc

end Sys2Proof.Machine
end

section
/-!
SUPPORT. What an application of milestones leaves alone (R69, R70, R72, R74): the units that it changes, the waiting
words that take force, and the transmit generations that a self-originated change does not move.
-/
namespace Sys2Proof.Machine

/-! ### What the units' parts of an application leave alone -/

/-- `t` has the milestone unit, the waiting words and the route loader of `s`. -/
structure KeepsMilestones (s t : State) : Prop where
  mst    : t.mst = s.mst
  shadow : t.shadow = s.shadow
  words  : t.tblShadow = s.tblShadow
  rte    : t.rte = s.rte

namespace KeepsMilestones

theorem refl (s : State) : KeepsMilestones s s := ⟨rfl, rfl, rfl, rfl⟩

theorem trans {s t u : State} (h : KeepsMilestones s t) (h' : KeepsMilestones t u) : KeepsMilestones s u :=
  ⟨h'.mst.trans h.mst, h'.shadow.trans h.shadow, h'.words.trans h.words, h'.rte.trans h.rte⟩

theorem foldl {α : Type} {f : State → α → State} (h : ∀ s a, KeepsMilestones s (f s a)) (l : List α) (s : State) :
    KeepsMilestones s (l.foldl f s) :=
  foldl_keeps (KeepsMilestones s) f (fun t a ht => ht.trans (h t a)) l s (refl s)

theorem ite {b : Prop} [Decidable b] {s t u : State} (ht : KeepsMilestones s t) (hu : KeepsMilestones s u) :
    KeepsMilestones s (if b then t else u) := by
  split
  · exact ht
  · exact hu

/-- The same change of a path's generations keeps two states alike. -/
theorem updMstPath {s t : State} (h : KeepsMilestones s t) (p : Path) (f : PathMst → PathMst) :
    KeepsMilestones (s.updMstPath p f) (t.updMstPath p f) :=
  ⟨by cases p <;> simp [State.updMstPath, h.mst], by simp [h.shadow], by simp [h.words], by simp [h.rte]⟩

end KeepsMilestones

/-- The reports that close a command leave them alone. -/
theorem Reported.keepsMilestones {u t : State} (h : Reported u t) : KeepsMilestones u t := by
  have := State.plain_of h.plain
  exact ⟨by tauto, by tauto, by tauto, by tauto⟩

theorem Answers.runs {c : Instr} {s u : State} {P : State → Prop} (h : Answers c s u)
    (hp : ∀ t, KeepsMilestones u t → P t) : Runs c s P := by
  obtain ⟨t, ht, hr⟩ := h
  exact ⟨t, ht, hp t hr.keepsMilestones⟩

theorem State.flushQueue_keeps (s : State) (q : Nat) : KeepsMilestones s (s.flushQueue q) := by
  unfold State.flushQueue
  dsimp only
  split
  · exact .refl s
  · constructor <;> simp [State.updSchQueue]

theorem State.flushCont_keeps (s : State) (p : Path) (c : Nat) : KeepsMilestones s (s.flushCont p c) :=
  .foldl (fun s _ => s.flushQueue_keeps _) _ s

theorem State.noteSram_keeps (s : State) (kind a n : Nat) : KeepsMilestones s (s.noteSram kind a n) := by
  unfold State.noteSram
  split_ifs <;> constructor <;> simp

theorem State.sramWrite_keeps (s : State) (kind : Nat) (ws : List Nat) :
    KeepsMilestones s (s.sramWrite kind ws) := by
  refine .foldl (fun s a => ?_) _ s
  have written (t : State) : KeepsMilestones t (t.setSramErr kind a 0) := by constructor <;> simp
  split
  · exact written s
  · unfold State.narrowWrite
    dsimp only
    split_ifs
    · exact .refl s
    · exact (s.noteSram_keeps kind a _).trans (written _)
    · exact s.noteSram_keeps kind a _

theorem State.polChanged_keeps (s : State) (i : Nat) (old : PolEntry) :
    KeepsMilestones s (s.polChanged i old) := by
  unfold State.polChanged
  dsimp only
  split_ifs <;> constructor <;> simp

theorem State.queueChanged_keeps (s : State) (q : Nat) (old : QEnt) :
    KeepsMilestones s (s.queueChanged q old) := by
  unfold State.queueChanged
  dsimp only
  refine .trans (.trans (.ite ?_ (.refl _)) (.ite ?_ (.refl _))) (.ite (State.flushQueue_keeps _ _) (.refl _)) <;>
    constructor <;> simp

theorem State.slotRelease_keeps (s : State) (p : Path) : KeepsMilestones s (s.slotRelease p) := by
  unfold State.slotRelease
  split <;> constructor <;> simp

theorem State.keyRelease_keeps (s : State) (p : Path) : KeepsMilestones s (s.keyRelease p) := by
  unfold State.keyRelease
  split <;> constructor <;> simp

theorem State.gateApply_keeps (s : State) (p : Path) (start : Nat) : KeepsMilestones s (s.gateApply p start) := by
  cases p <;> exact ⟨rfl, rfl, rfl, rfl⟩

/-! ### The kinds of a part -/

theorem State.updPath_keeps (s : State) (p : Path) (f : PathState → PathState) :
    KeepsMilestones s (s.updPath p f) := by
  constructor <;> simp

theorem State.slotTxApply_keeps (s : State) (p : Path) (g : BitVec 16) :
    KeepsMilestones (s.txGen p 0 g) (s.slotTxApply p g) := by
  have swapped : KeepsMilestones (s.txGen p 0 g) (s.slotTxSwap p g) :=
    ((s.updPath_keeps p _).updMstPath p _).trans (State.slotRelease_keeps _ p)
  refine swapped.trans ?_
  exact .foldl (fun (s : State) (x : Path × Nat) => s.flushCont_keeps x.1 x.2) _ _

theorem State.keyTxMove_keeps (s : State) (p : Path) (g : BitVec 16) :
    KeepsMilestones (s.txGen p 1 g) (s.keyTxMove p g) :=
  ((s.updPath_keeps p _).updMstPath p _).trans (State.keyRelease_keeps _ p)

/-- Whatever a kind's unit does, its application is the move of the transmit generation (R74). -/
theorem State.txApply_keeps (s : State) (p : Path) (start : Nat) {k : Nat} (g : BitVec 16) (hk : k < 6) :
    KeepsMilestones (s.txGen p k g) (s.txApply p start k g) := by
  have recorded (t : State) (old : BitVec 16) : KeepsMilestones t (t.genRec 296 p k false old g) := by
    constructor <;> simp
  have chain (f : TxdState → TxdState) : KeepsMilestones s (s.updTxd p f) := s.updPath_keeps p _
  refine .trans ?_ (recorded _ _)
  match k, hk with
  | 0, _ => exact s.slotTxApply_keeps p g
  | 1, _ => exact s.keyTxMove_keeps p g
  | 2, _ => exact (chain _).updMstPath p _
  | 3, _ => exact (s.gateApply_keeps p start).updMstPath p _
  | 4, _ => exact (chain _).updMstPath p _
  | 5, _ => exact .refl _

theorem Gens.get_set (g : Gens) {j k : Nat} (v : BitVec 16) (hj : j < 6) (hk : k < 6) :
    (g.set j v).get k = if k = j then v else g.get k := by
  match j, hj with
  | 0, _ | 1, _ | 2, _ | 3, _ | 4, _ | 5, _ =>
    match k, hk with
    | 0, _ | 1, _ | 2, _ | 3, _ | 4, _ | 5, _ => rfl

/-- The transmit generations of a path after the kinds of a list have applied. -/
theorem State.txGens_get (p : Path) (g : Nat → BitVec 16) {l : List Nat} (hl : ∀ j ∈ l, j < 6) (s : State) {k : Nat}
    (hk : k < 6) : ((l.foldl (fun s j => s.txGen p j (g j)) s).mstPath p).tx.get k =
      if k ∈ l then g k else (s.mstPath p).tx.get k := by
  induction l generalizing s with
  | nil => simp
  | cons j l ih =>
    rw [List.foldl_cons, ih fun i hi => hl i (List.mem_cons_of_mem j hi)]
    have moved : ((s.txGen p j (g j)).mstPath p).tx = (s.mstPath p).tx.set j (g j) := by
      simp [State.txGen, State.mstPath]
    rw [moved, Gens.get_set _ _ (hl j List.mem_cons_self) hk]
    by_cases h : k = j <;> simp [h]

/-- The kinds of a list apply, each with the generation that `g` gives: beside the units, the generations move. -/
theorem State.txApplies_keeps (p : Path) (start : Nat) (g : Nat → BitVec 16) {l : List Nat} (hl : ∀ j ∈ l, j < 6)
    {s t : State} (h : KeepsMilestones s t) : KeepsMilestones (l.foldl (fun s j => s.txGen p j (g j)) s)
      (l.foldl (fun s j => s.txApply p start j (g j)) t) := by
  induction l generalizing s t with
  | nil => exact h
  | cons j l ih =>
    exact ih (fun i hi => hl i (List.mem_cons_of_mem j hi))
      ((h.updMstPath p _).trans (t.txApply_keeps p start _ (hl j List.mem_cons_self)))

/-- A move of transmit generations leaves the queue, the time state, the waiting words and the loader alone. -/
theorem State.txGens_keeps (p : Path) (g : Nat → BitVec 16) (l : List Nat) (s : State) :
    let t := l.foldl (fun s j => s.txGen p j (g j)) s
    t.mst.queue = s.mst.queue ∧ t.mst.time = s.mst.time ∧ t.shadow = s.shadow ∧ t.rte = s.rte := by
  refine foldl_keeps (fun t : State => t.mst.queue = s.mst.queue ∧ t.mst.time = s.mst.time ∧ t.shadow = s.shadow ∧
    t.rte = s.rte) _ (fun t j ht => ?_) l s ⟨rfl, rfl, rfl, rfl⟩
  cases p <;> exact ht

/-! ### Waiting words (R70) -/

theorem noted_sparseDrop {α : Type} (covers : Nat → Bool) (m : Sparse α) (k : Nat) :
    noted (sparseDrop covers m) k = if covers k then none else noted m k := by
  have found : noted (sparseDrop covers m) k =
      (m.find? fun e => !covers e.1 && decide (e.1 = k)).map fun e => e.2 := by
    simp [noted, sparseDrop, List.find?_filter]
  rw [found]
  by_cases h : covers k = true
  · have none_left : (m.find? fun e => !covers e.1 && decide (e.1 = k)) = none := by
      refine List.find?_eq_none.mpr fun e _ => ?_
      by_cases he : e.1 = k <;> simp [he, h]
    rw [none_left, if_pos h, Option.map_none]
  · have same : (fun e : Nat × α => !covers e.1 && decide (e.1 = k)) = fun e => e.1 == k := by
      funext e
      by_cases he : e.1 = k <;> simp [he, h]
    rw [same, if_neg h, noted]

theorem noted_mem {α : Type} {m : Sparse α} {k : Nat} {w : α} (h : noted m k = some w) :
    k ∈ m.map fun e => e.1 := by
  obtain ⟨e, he, _⟩ := Option.map_eq_some_iff.mp h
  exact List.mem_map.mpr ⟨e, List.mem_of_find?_eq_some he, by simpa using List.find?_some he⟩

/-- Words that take force wait no longer; all others go on waiting. -/
theorem State.shadowTake_noted (s : State) (key k : Nat) :
    noted (s.shadowTake key).shadow k = if k = key then none else noted s.shadow k := by
  unfold State.shadowTake
  split
  next h =>
    split_ifs with hk
    · rw [hk, h]
    · rfl
  next => simp [noted_sparseDrop]

theorem State.shadowsTake_noted {s : State} {covers : Nat → Bool} {key : Nat} {w : Word}
    (hn : noted s.shadow key = some w) (hc : covers key = true) : noted (s.shadowsTake covers).shadow key = none := by
  have taken (l : List Nat) : ∀ s : State, noted (l.foldl (fun s key => s.shadowTake key) s).shadow key =
      if key ∈ l then none else noted s.shadow key := by
    induction l with
    | nil => simp
    | cons j l ih =>
      intro s
      rw [List.foldl_cons, ih, State.shadowTake_noted]
      by_cases h : key = j <;> simp [h]
  rw [State.shadowsTake, taken, if_pos (List.mem_filter.mpr ⟨noted_mem hn, hc⟩)]

/-- Waiting words take force in the registers alone. -/
theorem State.shadowsTake_keeps (s : State) (covers : Nat → Bool) :
    (s.shadowsTake covers).mst = s.mst ∧ (s.shadowsTake covers).tblShadow = s.tblShadow ∧
    (s.shadowsTake covers).rte = s.rte := by
  refine foldl_keeps (fun t : State => t.mst = s.mst ∧ t.tblShadow = s.tblShadow ∧ t.rte = s.rte) _
    (fun t key ht => ?_) _ s ⟨rfl, rfl, rfl⟩
  unfold State.shadowTake
  split <;> exact ht

/-- Words that take force in the class M tables wait no longer, and what a policer or a queue does about them is its
own. -/
theorem State.wordsTake_keeps (s : State) (ks : Sparse Word) :
    KeepsMilestones { s with tblShadow := sparseDrop (fun k => ks.any fun x => x.1 == k) s.tblShadow }
      (s.wordsTake ks) := by
  have pols (l : List (Nat × PolEntry)) (t : State) :
      KeepsMilestones t (l.foldl (fun s x => s.polChanged x.1 x.2) t) :=
    .foldl (fun (s : State) (x : Nat × PolEntry) => s.polChanged_keeps x.1 x.2) l t
  have queues (l : List (Nat × QEnt)) (t : State) :
      KeepsMilestones t (l.foldl (fun s x => s.queueChanged x.1 x.2) t) :=
    .foldl (fun (s : State) (x : Nat × QEnt) => s.queueChanged_keeps x.1 x.2) l t
  unfold State.wordsTake
  dsimp only
  refine .trans ?_ (queues _ _)
  refine .trans ?_ (pols _ _)
  refine .trans ?_ (State.sramWrite_keeps _ 3 _)
  exact ⟨rfl, rfl, rfl, rfl⟩

theorem State.tablesTake_keeps (s : State) : KeepsMilestones { s with tblShadow := [] } s.tablesTake := by
  have none_left : sparseDrop (fun k => s.tblShadow.any fun x => x.1 == k) s.tblShadow = [] :=
    List.filter_eq_nil_iff.mpr fun e he => by
      have : (s.tblShadow.any fun x => x.1 == e.1) = true := List.any_eq_true.mpr ⟨e, he, beq_self_eq_true _⟩
      simp [this]
  rw [← none_left]
  exact s.wordsTake_keeps s.tblShadow

/-! ### What follows the kinds: a self-originated change (R169) -/

/-- `t` has the time state, the transmit generations and the waiting register words of `s`. -/
structure KeepsGens (s t : State) : Prop where
  time   : t.mst.time = s.mst.time
  tx     : ∀ p, (t.mstPath p).tx = (s.mstPath p).tx
  shadow : t.shadow = s.shadow

/-- A state with another queue. -/
def State.setQueue (s : State) (q : List QEntry) : State := { s with mst := { s.mst with queue := q } }

@[simp] theorem State.setQueue_frame (s : State) (q : List QEntry) : (s.setQueue q).mst.queue = q ∧
    (s.setQueue q).mst.time = s.mst.time ∧ (s.setQueue q).shadow = s.shadow ∧ (s.setQueue q).rte = s.rte :=
  ⟨rfl, rfl, rfl, rfl⟩

namespace KeepsGens

theorem refl (s : State) : KeepsGens s s := ⟨rfl, fun _ => rfl, rfl⟩

theorem trans {s t u : State} (h : KeepsGens s t) (h' : KeepsGens t u) : KeepsGens s u :=
  ⟨h'.time.trans h.time, fun p => (h'.tx p).trans (h.tx p), h'.shadow.trans h.shadow⟩

/-- A new queue moves no generation. -/
theorem queue (s : State) (q : List QEntry) : KeepsGens s (s.setQueue q) :=
  ⟨rfl, fun p => by cases p <;> rfl, rfl⟩

end KeepsGens

theorem KeepsMilestones.keepsGens {s t : State} (h : KeepsMilestones s t) : KeepsGens s t :=
  ⟨by rw [h.mst], fun p => by rw [State.mstPath, h.mst]; rfl, h.shadow⟩

theorem State.raise_keeps (s : State) (src sub inst a b : Nat) : KeepsMilestones s (s.raise src sub inst a b) := by
  constructor <;> simp

/-- Fixing freezes generations and moves none (R73). -/
theorem State.fixEntry_keeps (s : State) (p : Path) (h : Nat) : KeepsGens s (s.fixEntry p h) := by
  have fixed (f : Nat) : KeepsGens s (s.fixAt p h f) := by
    unfold State.fixAt
    dsimp only
    split
    · exact .refl s
    · split_ifs
      · exact .refl s
      · exact .queue s _
      · exact (KeepsGens.queue s _).trans (State.raise_keeps _ _ _ _ _ _).keepsGens
  unfold State.fixEntry
  split
  · exact .refl s
  · exact fixed _

theorem State.enterEntry_keeps (s : State) (n : NewEntry) (h : Nat) : KeepsGens s (s.enterEntry n h) := by
  unfold State.enterEntry
  dsimp only
  split
  · exact (KeepsGens.queue s _).trans ((State.fixEntry_keeps _ .a h).trans (State.fixEntry_keeps _ .b h))
  · exact .queue s _

/-- Staging a next copy moves no generation. -/
theorem State.stage_keeps (s : State) (p : Path) (k : Nat) (g : BitVec 16) : KeepsGens s (s.stage p k g) := by
  refine ⟨?_, fun q => ?_, by simp [State.stage]⟩
  · cases p <;> rfl
  · cases p <;> cases q <;> rfl

theorem State.profRefuse_keeps (s : State) (p : Path) : KeepsMilestones s (s.profRefuse p) :=
  .trans (s.updPath_keeps p _) (State.raise_keeps _ _ _ _ _ _)

theorem State.profStage_keeps (s : State) (p : Path) (m : PathMode) (prof : List Nat) :
    KeepsMilestones s (s.profStage p m prof) := by
  unfold State.profStage
  split
  · exact s.updPath_keeps p _
  · exact s.profRefuse_keeps p

theorem State.scheduleProfiles_keeps (s : State) (p : Path) (prof : List Nat) :
    KeepsGens s (s.scheduleProfiles p prof).1 := by
  unfold State.scheduleProfiles
  dsimp only
  split_ifs
  · exact (s.profRefuse_keeps p).keepsGens
  · have noted (t : State) (c : TrkState → TrkState) :
        KeepsMilestones t ((t.updTrk p c).raiseOnce (pathSrc p 18) 0 0 0 0) := by constructor <;> simp
    exact (s.profStage_keeps p _ prof).keepsGens.trans <| (State.stage_keeps _ p 2 _).trans <|
      (State.enterEntry_keeps _ _ _).trans (noted _ _).keepsGens
  · exact .refl s

theorem State.selfLevel_keeps (s : State) (p : Path) : KeepsGens s (s.selfLevel p) := by
  unfold State.selfLevel
  split
  · exact .refl s
  · exact s.scheduleProfiles_keeps p _

end Sys2Proof.Machine
end

section
/-!
SUPPORT. A lone entry that is due (R69, R70, R72, R74), and the loss of the time source (R66).
-/
namespace Sys2Proof.Machine

/-! ### Entries of the queue -/

@[simp] theorem QEntry.updPart_part (e : QEntry) (p : Path) (f : PathPart → PathPart) :
    (e.updPart p f).part p = f (e.part p) := by cases p <;> rfl

@[simp] theorem QEntry.updPart_other (e : QEntry) (p : Path) (f : PathPart → PathPart) :
    (e.updPart p f).part (otherPath p) = e.part (otherPath p) := by cases p <;> rfl

@[simp] theorem QEntry.updPart_deviceDone (e : QEntry) (p : Path) (f : PathPart → PathPart) :
    (e.updPart p f).deviceDone = e.deviceDone := by cases p <;> rfl

/-- An entry is finished when the device's part and both paths' parts are. -/
theorem QEntry.finished_parts (e : QEntry) (p : Path) (fc : Nat) : e.finished fc =
    ((e.deviceDone || e.withdrawn) && ((e.part p).past fc && (e.part (otherPath p)).past fc)) := by
  cases p <;> simp [QEntry.finished, QEntry.part, otherPath, Bool.and_assoc, Bool.and_comm]

theorem frameLe_refl (f : Nat) : frameLe f f = true := by
  simp [frameLe]

/-- The frame before a frame does not reach it. -/
theorem frameLe_before (n : Nat) : frameLe (n % 2 ^ 48) ((n % 2 ^ 48 + 2 ^ 48 - 1) % 2 ^ 48) = false := by
  simp only [frameLe, decide_eq_false_iff_not]
  omega

/-- A part that is done and whose target frame has not been sent goes on only to be announced (R77). -/
theorem PathPart.past_done {x : PathPart} {f sent : Nat} (hi : x.inScope = true) (ht : x.target = some f)
    (hb : frameLe f sent = false) : PathPart.past { x with done := true } sent = decide (x.kinds &&& 0x3F#7 = 0) := by
  simp [PathPart.past, PathPart.announced, hi, ht, hb]

theorem PathPart.past_of_outside {x : PathPart} (h : x.inScope = false) (fc : Nat) : x.past fc = true := by
  simp [PathPart.past, h]

/-! ### A part of a path -/

theorem State.amdDue_none {s : State} (h : s.rte.amd = none) (due : List QEntry) : s.amdDue due = s := by
  simp [State.amdDue, h]

/-- The kinds of a mask that carry generations. -/
def kindList (kinds : BitVec 7) : List Nat := (List.range 6).filter fun k => hasKind kinds k

theorem mem_kindList {kinds : BitVec 7} {k : Nat} : k ∈ kindList kinds ↔ k < 6 ∧ hasKind kinds k = true := by
  simp [kindList]

theorem lt_of_mem_kindList {kinds : BitVec 7} : ∀ k ∈ kindList kinds, k < 6 := fun _ h => (mem_kindList.mp h).1

/-- The kinds of a mask apply on a path, kind `k` with generation `g k` (the first part of `State.applyPath`). -/
def State.kindsApply (s : State) (p : Path) (start : Nat) (kinds : BitVec 7) (g : Nat → BitVec 16) : State :=
  (kindList kinds).foldl (fun s k => s.txApply p start k (g k)) s

theorem State.kindsApply_keeps (s : State) (p : Path) (start : Nat) (kinds : BitVec 7) (g : Nat → BitVec 16) :
    (s.kindsApply p start kinds g).mst.queue = s.mst.queue ∧ (s.kindsApply p start kinds g).mst.time = s.mst.time ∧
    (s.kindsApply p start kinds g).shadow = s.shadow ∧ (s.kindsApply p start kinds g).rte = s.rte := by
  have kept := State.txApplies_keeps p start g lt_of_mem_kindList (.refl s) (l := kindList kinds)
  obtain ⟨queue, time, shadow, rte⟩ := State.txGens_keeps p g (kindList kinds) s
  exact ⟨by rw [State.kindsApply, kept.mst, queue], by rw [State.kindsApply, kept.mst, time], kept.shadow.trans shadow,
    kept.rte.trans rte⟩

theorem State.kindsApply_get (s : State) (p : Path) (start : Nat) {kinds : BitVec 7} (g : Nat → BitVec 16) {k : Nat}
    (hk : k < 6) (h : hasKind kinds k = true) : ((s.kindsApply p start kinds g).mstPath p).tx.get k = g k := by
  have kept := State.txApplies_keeps p start g lt_of_mem_kindList (.refl s) (l := kindList kinds)
  rw [State.kindsApply, kept.keepsGens.tx, State.txGens_get p g lt_of_mem_kindList s hk,
    if_pos (mem_kindList.mpr ⟨hk, h⟩)]

/-- What an entry's part does on a path beside its kinds: shadows, amendment, event, and a change of the path's own. -/
def State.partCloses (s : State) (p : Path) (kinds : BitVec 7) (due : List QEntry) : State :=
  let s := if hasKind kinds 6 then s.shadowsTake (pathKey p) else s
  let s := (s.amdDue due).raise 296 0 (pathNum p) 0 0
  if hasKind kinds 2 then s.selfLevel p else s

/-- Without an amendment it moves no generation, and the queue only where kind 2 lets a change of the path follow. -/
theorem State.partCloses_keeps {s : State} (h : s.rte.amd = none) (p : Path) (kinds : BitVec 7) (due : List QEntry) :
    (s.partCloses p kinds due).mst.time = s.mst.time ∧
    (∀ q, ((s.partCloses p kinds due).mstPath q).tx = (s.mstPath q).tx) ∧
    (hasKind kinds 6 = true → ∀ key w, noted s.shadow key = some w → pathKey p key = true →
      noted (s.partCloses p kinds due).shadow key = none) ∧
    (hasKind kinds 2 = false → (s.partCloses p kinds due).mst.queue = s.mst.queue) := by
  unfold State.partCloses
  dsimp only
  generalize hu : (if hasKind kinds 6 = true then s.shadowsTake (pathKey p) else s) = u
  have taken : u.mst = s.mst ∧ u.rte = s.rte := by
    obtain ⟨mst, _, rte⟩ := s.shadowsTake_keeps (pathKey p)
    subst hu
    split
    · exact ⟨mst, rte⟩
    · exact ⟨rfl, rfl⟩
  obtain ⟨mst, rte⟩ := taken
  rw [State.amdDue_none (by rw [rte, h])]
  have raised := u.raise_keeps 296 0 (pathNum p) 0 0
  generalize u.raise 296 0 (pathNum p) 0 0 = v at raised ⊢
  have level : KeepsGens v (if hasKind kinds 2 = true then v.selfLevel p else v) := by
    split
    · exact v.selfLevel_keeps p
    · exact .refl v
  have kept := raised.keepsGens.trans level
  refine ⟨by rw [kept.time, mst], fun q => ?_, fun h6 key w hn hp => ?_, fun h2 => ?_⟩
  · rw [kept.tx, State.mstPath, mst, State.mstPath]
  · rw [kept.shadow, ← hu, if_pos h6]
    exact State.shadowsTake_noted hn hp
  · rw [if_neg (by simp [h2]), raised.mst, mst]

/-- A lone entry whose part is due: it is done, and its kinds apply with the frozen generations (R74). -/
theorem State.applyPath_alone {s : State} {e : QEntry} {p : Path} {f : Nat} (start : Nat) (hq : s.mst.queue = [e])
    (hw : e.withdrawn = false) (hr : e.reached p f = true) : ∃ (v : State) (g : Nat → BitVec 16),
      KeepsMilestones (s.setQueue [e.updPart p fun x => { x with done := true }]) v ∧
      (∀ k, hasKind (e.part p).kinds k = true → g k = (e.part p).frozen.get k) ∧
      s.applyPath p f start = ((v.kindsApply p start (e.part p).kinds g).partCloses p (e.part p).kinds [e]).sweepQueue
        ((f + 2 ^ 48 - 1) % 2 ^ 48) := by
  have due : (s.mst.queue.filter fun e => e.reached p f && !e.withdrawn) = [e] := by simp [hq, hr, hw]
  unfold State.applyPath
  have kinds : (0 : BitVec 7) ||| (e.part p).kinds = (e.part p).kinds := BitVec.zero_or
  rw [due]
  simp only [List.foldl_cons, List.foldl_nil, kinds, if_neg (List.cons_ne_nil e [])]
  refine ⟨_, _, ?_, fun k hk => ?_, rfl⟩
  · have done : s.updQueue (fun e => if e.reached p f then e.updPart p fun x => { x with done := true } else e) =
        s.setQueue [e.updPart p fun x => { x with done := true }] := by
      simp [State.updQueue, State.setQueue, hq, hr]
    rw [done]
    exact .ite (State.updPath_keeps _ p _) (.refl _)
  · simp [hk]

/-- What the part of a lone entry does on its target frame. -/
theorem State.applyPath_target {s : State} {e : QEntry} {p : Path} {n : Nat} (start : Nat) (hq : s.mst.queue = [e])
    (hw : e.withdrawn = false) (ha : s.rte.amd = none) (hi : (e.part p).inScope = true)
    (hd : (e.part p).done = false) (ht : (e.part p).target = some (n % 2 ^ 48)) :
    let t := s.applyPath p (n % 2 ^ 48) start
    t.mst.time = s.mst.time ∧
    (∀ k, k < 6 → hasKind (e.part p).kinds k = true → (t.mstPath p).tx.get k = (e.part p).frozen.get k) ∧
    (hasKind (e.part p).kinds 6 = true → ∀ key w, noted s.shadow key = some w → pathKey p key = true →
      noted t.shadow key = none) ∧
    (hasKind (e.part p).kinds 2 = false → e.deviceDone = true → (e.part (otherPath p)).inScope = false →
      t.mst.queue =
        if (e.part p).kinds &&& 0x3F#7 = 0 then [] else [e.updPart p fun x => { x with done := true }]) := by
  have hr : e.reached p (n % 2 ^ 48) = true := by simp [QEntry.reached, hi, hd, ht, frameLe_refl]
  obtain ⟨v, g, kept, hg, applied⟩ := State.applyPath_alone start hq hw hr
  rw [applied]
  obtain ⟨queue, time, shadow, rte⟩ := v.kindsApply_keeps p start (e.part p).kinds g
  have frozen (k : Nat) (hk : k < 6) (hm : hasKind (e.part p).kinds k = true) :=
    v.kindsApply_get p start g hk hm
  generalize v.kindsApply p start (e.part p).kinds g = w at queue time shadow rte frozen ⊢
  obtain ⟨closeTime, closeTx, closeShadow, closeQueue⟩ :=
    State.partCloses_keeps (by rw [rte, kept.rte]; exact ha) p (e.part p).kinds [e]
  generalize w.partCloses p (e.part p).kinds [e] = x at closeTime closeTx closeShadow closeQueue ⊢
  have swept := KeepsGens.queue x (x.mst.queue.filter fun e => !e.finished ((n % 2 ^ 48 + 2 ^ 48 - 1) % 2 ^ 48))
  refine ⟨?_, fun k hk hm => ?_, fun h6 key w hn hp => ?_, fun h2 hdev hother => ?_⟩
  · exact swept.time.trans (closeTime.trans (time.trans (by simp [kept.mst])))
  · rw [← hg k hm, ← frozen k hk hm, ← closeTx p]
    exact congrArg (·.get k) (swept.tx p)
  · refine (congrArg (noted · key) swept.shadow).trans (closeShadow h6 key w ?_ hp)
    rw [shadow, kept.shadow]
    exact hn
  · have left : x.mst.queue = [e.updPart p fun x => { x with done := true }] := by
      simp [closeQueue h2, queue, kept.mst]
    simp only [State.sweepQueue, left, List.filter_cons, List.filter_nil, QEntry.finished_parts _ p,
      QEntry.updPart_part, QEntry.updPart_other, QEntry.updPart_deviceDone, hdev,
      PathPart.past_done hi ht (frameLe_before n), PathPart.past_of_outside hother]
    by_cases h : (e.part p).kinds &&& 0x3F#7 = 0 <;> simp [h]

/-! ### The device's part (R72) -/

/-- A lone entry of device scope alone whose time has come: all words of the device that wait take force, and the entry
leaves the queue. -/
theorem State.applyDevice_alone {s : State} {e : QEntry} {t : Nat} (sent : Nat) (hq : s.mst.queue = [e])
    (hw : e.withdrawn = false) (ha : s.rte.amd = none) (hd : e.deviceDone = false) (hs : e.devShadow = true)
    (hA : e.partA.inScope = false) (hB : e.partB.inScope = false) (ht : e.time * oneNs ≤ t) :
    let u := s.applyDevice t sent
    u.mst.time = s.mst.time ∧ u.mst.queue = [] ∧ u.tblShadow = [] ∧
    (∀ key w, noted s.shadow key = some w → deviceKey key = true → noted u.shadow key = none) := by
  unfold State.applyDevice
  simp only [hq, List.filter_cons, List.filter_nil, hd, hw, ht, Bool.not_false, Bool.true_and, decide_true, if_true,
    if_neg (List.cons_ne_nil e []), List.any_cons, List.any_nil, hs, Bool.or_false]
  have marked : s.updQueue (fun e => if !e.deviceDone && !e.withdrawn && decide (e.time * oneNs ≤ t)
      then { e with deviceDone := true } else e) = s.setQueue [{ e with deviceDone := true }] := by
    simp [State.updQueue, State.setQueue, hq, hd, hw, ht]
  rw [marked]
  obtain ⟨queue, time, shadow, rte⟩ := s.setQueue_frame [{ e with deviceDone := true }]
  generalize s.setQueue [{ e with deviceDone := true }] = v at queue time shadow rte ⊢
  obtain ⟨regsMst, regsWords, regsRte⟩ := v.shadowsTake_keeps deviceKey
  have tables := (v.shadowsTake deviceKey).tablesTake_keeps
  rw [State.amdDue_none (by rw [tables.rte]; exact (congrArg (·.amd) (regsRte.trans rte)).trans ha)]
  have kept := tables.trans (State.raise_keeps _ 296 0 2 0 0)
  generalize (v.shadowsTake deviceKey).tablesTake.raise 296 0 2 0 0 = x at kept ⊢
  have mst : x.mst = v.mst := kept.mst.trans regsMst
  refine ⟨?_, ?_, kept.words, fun key w hn hk => ?_⟩
  · exact (congrArg (·.time) mst).trans time
  · simp [State.sweepQueue, mst, queue, QEntry.finished, PathPart.past_of_outside, hA, hB]
  · exact (congrArg (noted · key) kept.shadow).trans (State.shadowsTake_noted (by rw [shadow]; exact hn) hk)

/-! ### The loss of the time source (R64) -/

/-- `u` differs from `s` in the time state, its markers and its slew, and in what every command begins anew. -/
def TimeStateOnly (s u : State) : Prop :=
  ∃ (out : List Out) (batch : List Occ) (ctr : Nat) (time : TimeState) (slew : Int) (seen : Bool) (qualified : Nat),
    u = { s with out := out, batch := batch, freeCtr := ctr, mst := { s.mst with
      time := time, slew := slew, markerSeen := seen, qualified := qualified } }

namespace TimeStateOnly

theorem begin (s : State) : TimeStateOnly s s.begin := ⟨_, _, _, _, _, _, _, rfl⟩

theorem trans {s t u : State} (h : TimeStateOnly s t) (h' : TimeStateOnly t u) : TimeStateOnly s u := by
  obtain ⟨_, _, _, _, _, _, _, rfl⟩ := h
  obtain ⟨_, _, _, _, _, _, _, rfl⟩ := h'
  exact ⟨_, _, _, _, _, _, _, rfl⟩

theorem ite {b : Prop} [Decidable b] {s t u : State} (ht : TimeStateOnly s t) (hu : TimeStateOnly s u) :
    TimeStateOnly s (if b then t else u) := by
  split
  · exact ht
  · exact hu

theorem setTimeState (s : State) (t : TimeState) : TimeStateOnly s (s.setTimeState t) := by
  unfold State.setTimeState State.raise State.occ
  dsimp only
  split_ifs <;> exact ⟨_, _, _, _, _, _, _, rfl⟩

end TimeStateOnly

/-- A missing marker, missing messages and the end of `HOLDOVER` change the time state alone. -/
theorem timeLoss_answers {s : State} {c : Instr} (hr : s.pwr.inReset = false)
    (hc : c ∈ [Instr.timeMarkerMissing, .timeMessageAbsent, .holdoverLimit]) :
    ∃ u, Answers c s u ∧ TimeStateOnly s u := by
  have moved (t : TimeState) : TimeStateOnly s (s.begin.setTimeState t) :=
    (TimeStateOnly.begin s).trans (.setTimeState _ t)
  simp only [List.mem_cons, List.not_mem_nil, or_false] at hc
  obtain rfl | rfl | rfl := hc
  · have unmarked : TimeStateOnly s { s.begin with mst := { s.mst with markerSeen := false, qualified := 0 } } :=
      ⟨_, _, _, _, _, _, _, rfl⟩
    exact ⟨_, answers_of rfl hr rfl, .ite (.ite (unmarked.trans (.setTimeState _ _)) unmarked) (.begin s)⟩
  · exact ⟨_, answers_of rfl hr rfl, .ite (moved _) (.begin s)⟩
  · exact ⟨_, answers_of rfl hr rfl, .ite (moved _) (.begin s)⟩

end Sys2Proof.Machine
end

section
/-! SUPPORT. R66: milestones in every time state. -/
namespace Sys2Proof.Machine

/-- Settles O16: the commands of a lost source change the time state alone, and what an entry does on its target frame
or at its time asks for no time state. -/
theorem timeLossMovesNothing : Obligations.TimeLossMovesNothing := by
  unfold Obligations.TimeLossMovesNothing
  refine ⟨fun s c hr hc => ?_, fun s e tm hr htm hq hw ha => ⟨fun p hup hi hd ht => ?_, fun hd hs hA hB ht => ?_⟩⟩
  · obtain ⟨u, answers, out, batch, ctr, time, slew, seen, qualified, rfl⟩ := timeLoss_answers hr hc
    exact ⟨_, answers, rfl, rfl, rfl, rfl, rfl, rfl, fun p => by cases p <;> exact ⟨rfl, rfl⟩, rfl, rfl, rfl, rfl⟩
  · have up : s.begin.pathUp p = true := hup
    refine (answers_of rfl hr (if_pos up)).runs fun t kept => ?_
    obtain ⟨time, gens, shadows, queue⟩ :=
      State.applyPath_target (s := s.begin) ((s.begin.upNs + 1024) * 65536) hq hw ha hi hd ht
    rw [kept.mst, kept.shadow]
    exact ⟨time.trans htm, fun k => by rw [kept.keepsGens.tx]; exact gens k, shadows, queue⟩
  · refine (answers_of rfl hr rfl).runs fun t kept => ?_
    obtain ⟨time, queue, tables, shadows⟩ := State.applyDevice_alone (s := s.begin) s.txFc hq hw ha hd hs hA hB ht
    rw [kept.mst, kept.words, kept.shadow]
    exact ⟨time.trans htm, queue, shadows, tables⟩

end Sys2Proof.Machine
end

section
/-!
SUPPORT. How locks break (R463): one domain, and all domains of some sessions.
-/
namespace Sys2Proof.Machine

/-! ### One domain -/

@[simp] theorem State.updLock_lock (s : State) (d : Nat) (f : LockState → LockState) :
    (s.updLock d f).lock d = f (s.lock d) := sparseGet_set_same

theorem State.updLock_lock_other (s : State) {d k : Nat} (f : LockState → LockState) (h : k ≠ d) :
    (s.updLock d f).lock k = s.lock k := sparseGet_set_other h

theorem State.lock_congr {s t : State} (h : t.ctl = s.ctl) (d : Nat) : t.lock d = s.lock d := by
  rw [State.lock, h, State.lock]

@[simp] theorem State.raise_lock (s : State) (src sub inst a b d : Nat) :
    (s.raise src sub inst a b).lock d = s.lock d := State.lock_congr (by simp) d

/-- What has occurred stays to be reported. -/
theorem State.occ_batch_subset (s : State) (o : Occ) : s.batch ⊆ (s.occ o).batch := by
  unfold State.occ
  split
  · exact List.subset_append_left _ _
  · exact List.Subset.refl _

/-- The unit of event 302 is always present. -/
theorem State.raise_control_batch (s : State) (sub inst a b : Nat) :
    (s.raise 302 sub inst a b).batch = s.batch ++ [⟨0, 302, sub, inst, a, b, false, 0⟩] := rfl

theorem State.breakLock_held {s : State} {d n : Nat} (h : (s.lock d).owner = some n) :
    s.breakLock d = (s.updLock d fun _ => ⟨none, true, []⟩).raise 302 1 d d n := by
  simp [State.breakLock, h]

/-- The lock of a domain breaks where a session that satisfies `p` holds it (one turn of `State.breakLocks`). -/
def State.breakFor (p : Nat → Bool) (s : State) (d : Nat) : State :=
  match (s.lock d).owner with
  | some n => if p n then s.breakLock d else s
  | none => s

theorem State.breakLocks_eq (s : State) (p : Nat → Bool) : s.breakLocks p = (List.range 8).foldl (State.breakFor p) s :=
  rfl

theorem State.breakFor_held {s : State} {p : Nat → Bool} {d n : Nat} (h : (s.lock d).owner = some n) (hp : p n = true) :
    s.breakFor p d = (s.updLock d fun _ => ⟨none, true, []⟩).raise 302 1 d d n := by
  simp [State.breakFor, State.breakLock_held h, h, hp]

theorem State.breakFor_other {s : State} {p : Nat → Bool} {d : Nat} (h : (s.lock d).owner.any p = false) :
    s.breakFor p d = s := by
  cases ho : (s.lock d).owner with
  | none => simp [State.breakFor, ho]
  | some n =>
    rw [ho, Option.any_some] at h
    simp [State.breakFor, ho, h]

theorem State.breakFor_lock (s : State) (p : Nat → Bool) (d k : Nat) :
    (s.breakFor p d).lock k = if k = d ∧ (s.lock k).owner.any p = true then ⟨none, true, []⟩ else s.lock k := by
  by_cases h : (s.lock d).owner.any p = true
  · obtain ⟨n, hn, hp⟩ := (Option.any_eq_true _ _).mp h
    rw [State.breakFor_held hn hp, State.raise_lock]
    by_cases hk : k = d
    · subst hk; simp [h]
    · simp [State.updLock_lock_other, hk]
  · rw [State.breakFor_other (by simpa using h)]
    by_cases hk : k = d
    · subst hk; simp [h]
    · simp [hk]

/-- No register changes, and nothing that is to be reported is lost. -/
theorem State.breakFor_keeps (s : State) (p : Nat → Bool) (d : Nat) :
    (s.breakFor p d).cfg = s.cfg ∧ (s.breakFor p d).shadow = s.shadow ∧ (s.breakFor p d).custom = s.custom ∧
    s.batch ⊆ (s.breakFor p d).batch := by
  by_cases h : (s.lock d).owner.any p = true
  · obtain ⟨n, hn, hp⟩ := (Option.any_eq_true _ _).mp h
    rw [State.breakFor_held hn hp]
    exact ⟨by simp, by simp, by simp, by rw [State.raise_control_batch]; exact List.subset_append_left _ _⟩
  · rw [State.breakFor_other (by simpa using h)]
    exact ⟨rfl, rfl, rfl, List.Subset.refl _⟩

/-! ### All domains of some sessions -/

theorem State.breakFors_lock (p : Nat → Bool) (l : List Nat) (s : State) (k : Nat) :
    (l.foldl (State.breakFor p) s).lock k =
      if k ∈ l ∧ (s.lock k).owner.any p = true then ⟨none, true, []⟩ else s.lock k := by
  induction l generalizing s with
  | nil => simp
  | cons d l ih =>
    rw [List.foldl_cons, ih, State.breakFor_lock]
    by_cases ho : (s.lock k).owner.any p = true
    · by_cases hk : k = d
      · subst hk; simp [ho]
      · simp [hk, ho]
    · simp [ho]

theorem State.breakFors_keeps (p : Nat → Bool) (l : List Nat) (s : State) :
    let t := l.foldl (State.breakFor p) s
    t.cfg = s.cfg ∧ t.shadow = s.shadow ∧ t.custom = s.custom ∧ s.batch ⊆ t.batch := by
  refine foldl_keeps (fun t : State => t.cfg = s.cfg ∧ t.shadow = s.shadow ∧ t.custom = s.custom ∧ s.batch ⊆ t.batch) _
    (fun t d ht => ?_) l s ⟨rfl, rfl, rfl, List.Subset.refl _⟩
  obtain ⟨cfg, shadow, custom, batch⟩ := t.breakFor_keeps p d
  obtain ⟨cfg', shadow', custom', batch'⟩ := ht
  exact ⟨cfg.trans cfg', shadow.trans shadow', custom.trans custom', List.Subset.trans batch' batch⟩

/-- Event 302 tells of every lock that breaks. -/
theorem State.breakFors_tell {p : Nat → Bool} {l : List Nat} {s : State} {d n : Nat} (hd : d ∈ l)
    (hn : (s.lock d).owner = some n) (hp : p n = true) :
    (⟨0, 302, 1, d, d, n, false, 0⟩ : Occ) ∈ (l.foldl (State.breakFor p) s).batch := by
  induction l generalizing s with
  | nil => simp at hd
  | cons e l ih =>
    rw [List.foldl_cons]
    by_cases he : d = e
    · subst he
      obtain ⟨-, -, -, batch⟩ := State.breakFors_keeps p l (s.breakFor p d)
      refine batch ?_
      rw [State.breakFor_held hn hp, State.raise_control_batch]
      exact List.mem_append_right _ (List.mem_singleton_self _)
    · refine ih ((List.mem_cons.mp hd).resolve_left he) ?_
      rw [State.breakFor_lock, if_neg (fun h => he h.1), hn]

/-- The locks of the sessions of `who` break (R463). -/
theorem State.breakLocks_broke {who : Nat → Prop} {p : Nat → Bool} (s : State) (hw : ∀ n, p n = true ↔ who n) :
    Broke who s (s.breakLocks p) := by
  rw [State.breakLocks_eq]
  obtain ⟨cfg, shadow, custom, -⟩ := State.breakFors_keeps p (List.range 8) s
  refine ⟨fun d n hd hn hwho => ⟨?_, ?_⟩, fun d hd => ?_, fun key _ _ => by rw [cfg], shadow, custom⟩
  · rw [State.breakFors_lock, if_pos ⟨List.mem_range.mpr hd, by simp [hn, hw, hwho]⟩]
  · exact State.breakFors_tell (List.mem_range.mpr hd) hn ((hw n).mpr hwho)
  · rw [State.breakFors_lock, if_neg fun h => ?_]
    obtain ⟨n, hn, hp⟩ := (Option.any_eq_true _ _).mp h.2
    exact hd n hn ((hw n).mp hp)

end Sys2Proof.Machine
end

section
/-!
SUPPORT. What the resets of sessions do beside the locks that they break: no staged write is applied (R448, R450,
R451, R463).
-/
namespace Sys2Proof.Machine

/-- The locks and what the session's staged writes could have changed are in `t` as in `s`, but for the vectors and the
dumps of a PCIe session (R448), and what `s` has to report is reported. -/
structure KeepsLocks (s t : State) : Prop where
  lock   : ∀ d, t.lock d = s.lock d
  batch  : s.batch ⊆ t.batch
  regs   : ∀ key, (key < Reg.MSIX_TABLE ∨ Reg.MSIX_TABLE + 1024 ≤ key) → key ≠ Reg.PMC_DUMP_CTRL →
    sparseGet regReset t.cfg key = sparseGet regReset s.cfg key
  shadow : t.shadow = s.shadow
  custom : t.custom = s.custom

namespace KeepsLocks

theorem refl (s : State) : KeepsLocks s s := ⟨fun _ => rfl, List.Subset.refl _, fun _ _ _ => rfl, rfl, rfl⟩

theorem trans {s t u : State} (h : KeepsLocks s t) (h' : KeepsLocks t u) : KeepsLocks s u :=
  ⟨fun d => (h'.lock d).trans (h.lock d), List.Subset.trans h.batch h'.batch,
    fun key ho hk => (h'.regs key ho hk).trans (h.regs key ho hk),
    h'.shadow.trans h.shadow, h'.custom.trans h.custom⟩

theorem foldl {α : Type} {f : State → α → State} (h : ∀ s a, KeepsLocks s (f s a)) (l : List α) (s : State) :
    KeepsLocks s (l.foldl f s) :=
  foldl_keeps (KeepsLocks s) f (fun t a ht => ht.trans (h t a)) l s (refl s)

theorem ite {b : Prop} [Decidable b] {s t u : State} (ht : KeepsLocks s t) (hu : KeepsLocks s u) :
    KeepsLocks s (if b then t else u) := by
  split
  · exact ht
  · exact hu

/-- No lock, no register and no report is touched. -/
theorem of_eq {s t : State} (hl : t.ctl.locks = s.ctl.locks) (hb : t.batch = s.batch) (hc : t.cfg = s.cfg)
    (hs : t.shadow = s.shadow) (hm : t.custom = s.custom) : KeepsLocks s t :=
  ⟨fun d => by rw [State.lock, hl, State.lock], by rw [hb]; exact List.Subset.refl _, fun _ _ _ => by rw [hc], hs, hm⟩

theorem occ (s : State) (o : Occ) : KeepsLocks s (s.occ o) :=
  ⟨State.lock_congr (by simp), s.occ_batch_subset o, fun _ _ _ => by simp, by simp, by simp⟩

theorem signal (s : State) (v : Nat) : KeepsLocks s (s.signal v) := by
  have plain := State.plain_of (s.signal_journals v).plain
  exact of_eq (by rw [show (s.signal v).ctl = s.ctl by tauto]) (s.signal_journals v).waits (by tauto) (by tauto)
    (by tauto)

theorem updPage (s : State) (p : Nat) (f : Page → Page) : KeepsLocks s (s.updPage p f) := of_eq rfl rfl rfl rfl rfl

theorem ctl (s : State) {c : CtlState} (h : c.locks = s.ctl.locks) : KeepsLocks s { s with ctl := c } :=
  of_eq h rfl rfl rfl rfl

theorem mntRead (s : State) (r : Option (Nat × Option (Word × Nat))) :
    KeepsLocks s { s with ctl := { s.ctl with mntRead := r } } := ctl s rfl

theorem pcieUp (s : State) (b : Bool) : KeepsLocks s { s with ctl := { s.ctl with pcieUp := b } } := ctl s rfl

theorem updLane (s : State) (l : Nat) (f : LegacyLane → LegacyLane) : KeepsLocks s (s.updLane l f) :=
  of_eq rfl rfl rfl rfl rfl

theorem raise (s : State) (src sub inst a b : Nat) : KeepsLocks s (s.raise src sub inst a b) := occ s _

theorem emit (s : State) (o : Out) : KeepsLocks s (s.emit o) := of_eq rfl rfl rfl rfl rfl

end KeepsLocks

/-- What follows a break of locks and keeps them leaves them broken. -/
theorem Broke.keeps {who : Nat → Prop} {s t u : State} (h : Broke who s t) (h' : KeepsLocks t u) : Broke who s u where
  broke d n hd hn hw := by
    obtain ⟨lock, told⟩ := h.broke d n hd hn hw
    exact ⟨(h'.lock d).trans lock, h'.batch told⟩
  kept d hd := (h'.lock d).trans (h.kept d hd)
  regs key ho hk := (h'.regs key ho hk).trans (h.regs key ho hk)
  rest := ⟨h'.shadow.trans h.rest.1, h'.custom.trans h.rest.2⟩

/-- What comes before a break of locks and keeps them is part of it. -/
theorem Broke.after {who : Nat → Prop} {s t u : State} (h : KeepsLocks s t) (h' : Broke who t u) : Broke who s u where
  broke d n hd hn hw := h'.broke d n hd (by rw [h.lock, hn]) hw
  kept d hd := (h'.kept d (by rwa [h.lock])).trans (h.lock d)
  regs key ho hk := (h'.regs key ho hk).trans (h.regs key ho hk)
  rest := ⟨h'.rest.1.trans h.shadow, h'.rest.2.trans h.custom⟩

/-- A command's effect breaks the locks of the state before it: its begin leaves locks and registers alone. -/
theorem Broke.begin {who : Nat → Prop} {s u : State} (h : Broke who s.begin u) : Broke who s u :=
  ⟨h.broke, h.kept, h.regs, h.rest⟩

/-! ### Tenant pages (R311) -/

theorem State.jobAbort_keepsLocks (s : State) (p : Nat) (j : Job) (status : Nat) :
    KeepsLocks s (s.jobAbort p j status) := by
  have record (t : State) (j : Job) (n : Nat) : KeepsLocks t (t.jobRecord p j n) := by
    unfold State.jobRecord
    dsimp only
    exact .trans (.trans (.updPage t p _) (.ite (.occ _ _) (.refl _))) (.ite (.signal _ _) (.refl _))
  exact .trans (.ite (.emit s _) (.refl s)) (record _ _ _)

theorem State.eraseSlots_keepsLocks (s : State) (p : Nat) : KeepsLocks s (s.eraseSlots p) :=
  .foldl (fun s _ => .ite (.trans (.updPage s p _) (.occ _ _)) (.refl s)) _ s

theorem State.pageReset_keepsLocks (s : State) (p : Nat) (stays : Bool) : KeepsLocks s (s.pageReset p stays) := by
  unfold State.pageReset
  dsimp only
  refine .trans (.trans ?_ (State.eraseSlots_keepsLocks _ p)) (.updPage _ p _)
  split
  · exact .ite (s.jobAbort_keepsLocks p _ _) (.updPage s p _)
  · exact .refl s

/-! ### Vectors and dumps (R448) -/

theorem sparseGet_filter_keeps {α : Type} {d : Nat → α} {keep : Nat × α → Bool} {k : Nat}
    (h : ∀ v, keep (k, v) = true) (m : Sparse α) : sparseGet d (m.filter keep) k = sparseGet d m k := by
  induction m with
  | nil => rfl
  | cons e m ih =>
    obtain ⟨a, v⟩ := e
    by_cases ha : a = k
    · subst ha; simp [h, sparseGet]
    · by_cases hk : keep (a, v) = true <;> simp [hk, sparseGet, ha, ih]

theorem State.clearVectors_keepsLocks (s : State) : KeepsLocks s s.clearVectors :=
  ⟨fun _ => rfl, List.Subset.refl _, fun key ho _ => sparseGet_filter_keeps (fun _ => by simp; omega) s.cfg, rfl, rfl⟩

theorem State.stopDumps_keepsLocks (s : State) : KeepsLocks s s.stopDumps :=
  ⟨fun _ => rfl, List.Subset.refl _, fun _ _ hk => sparseGet_set_other hk, rfl, rfl⟩

/-! ### The resets of sessions (R448, R450, R451) -/

theorem State.resetSession_broke (s : State) (n : Nat) : Broke (· = n) s (s.resetSession n) :=
  (s.breakLocks_broke fun _ => beq_iff_eq).keeps (.ctl _ rfl)

theorem State.resetSessions_broke {who : Nat → Prop} [DecidablePred who] (s : State) :
    Broke who s (s.resetSessions fun n => decide (who n)) :=
  (s.breakLocks_broke fun _ => decide_eq_true_iff).keeps (.ctl _ rfl)

theorem State.functionReset_broke (s : State) : Broke (· = 0) s s.functionReset := by
  have pages (t : State) : KeepsLocks t ((List.range 32).foldl (fun s p => s.pageReset p (s.pageEn p)) t) :=
    .foldl (fun s p => s.pageReset_keepsLocks p _) _ t
  exact (s.resetSession_broke 0).keeps <| (pages _).trans <|
    (State.clearVectors_keepsLocks _).trans (State.stopDumps_keepsLocks _)

theorem State.mntReset_broke (s : State) : Broke (· = 1) s s.mntReset :=
  (s.resetSession_broke 1).keeps (.mntRead _ none)

theorem State.bypassClosed_keepsLocks (s : State) (cause : Nat) : KeepsLocks s (s.bypassClosed cause) := by
  unfold State.bypassClosed
  have closed (h : HslState) : KeepsLocks s { s with hsl := h } := .of_eq rfl rfl rfl rfl rfl
  exact .ite (.refl s) ((closed _).trans (.trans (.raise _ _ _ _ _ _) (.raise _ _ _ _ _ _)))

/-- A ring lane that leaves state 4 resets every ring session (R451). -/
theorem State.laneEnter_broke {s : State} {l : Nat} (st : Nat) (hr : s.ringLane l = true) (h4 : (s.lane l).state = 4) :
    Broke (256 ≤ ·) s (s.laneEnter l st) := by
  have entered : KeepsLocks s ((s.updLane l fun x => { x with state := st, badLen := 0, cvAgo := [] }).raise
      (160 + 2 * l) 0 l st 0) := .trans (.updLane s l _) (.raise _ _ _ _ _ _)
  have ring : ((s.updLane l fun x => { x with state := st, badLen := 0, cvAgo := [] }).raise
      (160 + 2 * l) 0 l st 0).ringLane l = true := by
    rw [← hr]
    simp [State.ringLane, State.ringOn, State.inst]
  unfold State.laneEnter
  dsimp only
  rw [if_pos ⟨ring, h4⟩]
  exact .after (entered.trans (.ite (State.bypassClosed_keepsLocks _ 1) (.refl _))) (State.resetSessions_broke _)

end Sys2Proof.Machine
end

section
/-!
SUPPORT. An accepted lock command, and the acquisition of a free domain (R461, R463).
-/
namespace Sys2Proof.Machine

/-- The fields of the word of a lock command. -/
theorem lockWord_fields {op : Nat} (hop : op < 8) (dom : BitVec 3) :
    let w := BitVec.ofNat 32 (2 ^ 31 + op * 2 ^ 24 + dom.toNat)
    flagOf w 31 = true ∧ fieldOf w 26 24 = op ∧ fieldOf w 2 0 = dom.toNat := by
  have hd := dom.isLt
  have hw : (BitVec.ofNat 32 (2 ^ 31 + op * 2 ^ 24 + dom.toNat)).toNat = 2 ^ 31 + op * 2 ^ 24 + dom.toNat := by
    rw [BitVec.toNat_ofNat, Nat.mod_eq_of_lt (by omega)]
  simp only [flagOf, fieldOf, bitsOf, hw, Nat.testBit_eq_decide_div_mod_eq, decide_eq_true_eq]
  omega

/-- A write of `CTL_LOCK_CMD` is stored, and does no more as a write. -/
theorem State.applyWrite_lockCmd (s : State) (ses : Session) (w : Word) :
    (s.access ses Reg.CTL_LOCK_CMD).applyWrite (sessionNum ses) Reg.CTL_LOCK_CMD w =
      s.stores ses Reg.CTL_LOCK_CMD w := by
  obtain ⟨d, hd, hb⟩ : ∃ d, regDesc Reg.CTL_LOCK_CMD = some d ∧ d.basic = false := ⟨_, rfl, rfl⟩
  rw [State.applyWrite_stores hd hb]
  rfl

/-- An accepted lock command acts once its word is stored. -/
theorem State.rowLock_accepted {s : State} {ses : Session} {op : Nat} {dom : BitVec 3} {w : Word} (hop : op < 8)
    (hw : w = BitVec.ofNat 32 (2 ^ 31 + op * 2 ^ 24 + dom.toNat)) (h : Accepted s ses Reg.CTL_LOCK_CMD w) :
    s.begin.rowLock ses op dom =
      ((s.stores ses Reg.CTL_LOCK_CMD w).lockCommand (sessionNum ses) op dom.toNat).portAnswer ses (some acOk) := by
  obtain ⟨_, hr, hring, hlock, hj⟩ := h
  obtain ⟨go, hop', hdom⟩ := lockWord_fields hop dom
  rw [← hw] at go hop' hdom
  have reached : s.begin.reaches ses = true := by cases ses <;> exact hr
  have written : s.begin.hostWrite (sessionNum ses) Reg.CTL_LOCK_CMD w = (s.stores ses Reg.CTL_LOCK_CMD w, acOk) := by
    rw [← State.applyWrite_lockCmd]
    unfold State.hostWrite State.access
    simp only [hlock, hj]
    simp [acOk, acSeqLock, acStaged, refusedCode, acState]
  have acted : s.begin.sessionWrite (sessionNum ses) Reg.CTL_LOCK_CMD w 0xF#4 =
      ((s.stores ses Reg.CTL_LOCK_CMD w).lockCommand (sessionNum ses) op dom.toNat, acOk) := by
    simp [State.sessionWrite, State.busWrite, written, go, hop', hdom]
  unfold State.rowLock State.rowWrite State.portWrite
  rw [← hw]
  cases ses with
  | pcie => simp [reached, acted]
  | maint => simp [reached, acted]
  | ring st => simp [reached, acted, show s.begin.ringWrites = true from hring st rfl]

theorem State.stores_lock (s : State) (ses : Session) (off : Nat) (w : Word) (d : Nat) :
    (s.stores ses off w).lock d = s.lock d := by
  rw [State.stores_keeps]
  rfl

/-- A free domain is acquired, and the acquirer hears whether its lock was broken (R461, R463). -/
theorem acquire_writes {s : State} {ses : Session} {dom : BitVec 3} {w : Word} {broken : Bool}
    (hw : w = BitVec.ofNat 32 (2 ^ 31 + 1 * 2 ^ 24 + dom.toNat)) (h : Accepted s ses Reg.CTL_LOCK_CMD w)
    (hl : s.lock dom.toNat = ⟨none, broken, []⟩) :
    Writes (.acquire ses dom) s ses
      (((s.stores ses Reg.CTL_LOCK_CMD w).updLock dom.toNat fun _ => ⟨some (sessionNum ses), false, []⟩).updSession
        (sessionNum ses) fun x =>
          { x with lockResult := if broken then lkBroken else lkOk, lockDom := dom.toNat, lockIndex := 0 }) := by
  refine answers_of rfl h.1 ?_
  rw [State.rowLock_accepted (by decide) hw h]
  simp [State.lockCommand, State.lockAcquire, State.lockResult, State.stores_lock, hl]

end Sys2Proof.Machine
end

section
/-! SUPPORT. R463: sequence locks break. -/
namespace Sys2Proof.Machine

/-- Settles O37: a session's reset turns every domain that it holds into a free one that reads as broken and touches no
lock of another session; what it does beside that applies no staged write; and an acquisition ends the brokenness that it
tells of. -/
theorem locksBreak : Obligations.LocksBreak := by
  unfold Obligations.LocksBreak
  refine ⟨fun s dom n hr hn => ?_, fun s hr => ⟨fun c hc hup => ?_, fun c hc hport => ?_, fun lane hring h4 => ?_⟩,
    fun s ses dom d n w v hd hn hw hv hacc _ => ?_⟩
  · exact answers_of rfl hr (State.breakLock_held (s := s.begin) hn)
  · simp only [List.mem_cons, List.not_mem_nil, or_false] at hc
    obtain rfl | rfl | rfl := hc
    · exact ⟨_, answers_of rfl hr (if_pos hup), s.begin.functionReset_broke.begin⟩
    · exact ⟨_, answers_of (f := fun s => (s.resetSession 0).stopDumps) rfl hr rfl,
        ((s.begin.resetSession_broke 0).keeps (State.stopDumps_keepsLocks _)).begin⟩
    · exact ⟨_, answers_always
        (f := fun s => { s.functionReset with ctl := { s.functionReset.ctl with pcieUp := false } }) rfl rfl,
        (s.begin.functionReset_broke.keeps (.pcieUp _ false)).begin⟩
  · simp only [List.mem_cons, List.not_mem_nil, or_false] at hc
    obtain rfl | rfl := hc
    · exact ⟨_, answers_of rfl hr (if_pos hport), (s.begin.mntReset_broke.keeps (.emit _ _)).begin⟩
    · exact ⟨_, answers_of rfl hr (if_pos hport), s.begin.mntReset_broke.begin⟩
  · exact ⟨_, answers_of rfl hr (if_pos h4), (State.laneEnter_broke (s := s.begin) 1 hring h4).begin⟩
  · subst hd hn hv
    exact ⟨fun hl => acquire_writes hw hacc hl, fun hl => acquire_writes hw hacc hl⟩

end Sys2Proof.Machine
end
